-- ==== Sys2Proof/Word.lean ====
section
/-! DEFINITION. The word types of the HV2448 and the names of its numbered resources (R5, R7, R8). -/

namespace Sys2Proof

/-- A 32-bit register or memory word (R8). -/
abbrev Word := BitVec 32

/-- The smallest addressable unit (R7). -/
abbrev Byte := BitVec 8

/-- A 64-bit queue word or datum value. -/
abbrev Word64 := BitVec 64

/-- Port 0 to 23 (R5). -/
abbrev PortId := Fin 24

/-- Region 0 to 3 (R5). -/
abbrev RegionId := Fin 4

/-- Lane within a port (R5). -/
abbrev LaneId := Fin 48

/-- Watcher within a port (R5). -/
abbrev WatcherId := Fin 64

/-- Entry of a port's slot book (R195). -/
abbrev SlotId := Fin 256

/-- Core 0 to 7 (R5). -/
abbrev CoreId := Fin 8

/-- Global queue 0 to 127 (R5). -/
abbrev QueueId := Fin 128

/-- Trunk link 0 or 1 (R5). -/
abbrev LinkId := Fin 2

/-- Node context 0 to 4095 (R5). -/
abbrev CtxId := Fin 4096

/-- An initiator of accesses: 0 to 7 the cores, 8 and 9 the trunk links (R372), 10 to 13 the DMA blocks of
regions 0 to 3 (R184), 14 the dictionary (R300). The numbers above 9 are the model's own (log entry 17).
(Log entry 17 DESIGN CHOICE.) -/
abbrev Initiator := Fin 15

/-- A TDP carrier: 0 CAN, 1 trunk link 0, 2 trunk link 1 (R278). -/
abbrev Carrier := Fin 3

/-- The region of a port: p div 6 (R5). -/
def regionOfPort (p : PortId) : RegionId := ⟨p.val / 6, by omega⟩

/-- The local index of a port in its region (R5). -/
def localOfPort (p : PortId) : Fin 6 := ⟨p.val % 6, by omega⟩

/-- Port 6r + i (R5). -/
def portOf (r : RegionId) (i : Fin 6) : PortId := ⟨6 * r.val + i.val, by omega⟩

/-- The region of a core: c div 2 (R5). -/
def regionOfCore (c : CoreId) : RegionId := ⟨c.val / 2, by omega⟩

/-- The region of a global queue (R5). -/
def regionOfQueue (q : QueueId) : RegionId := ⟨q.val / 32, by omega⟩

/-- The local index of a global queue (R5). -/
def localOfQueue (q : QueueId) : Fin 32 := ⟨q.val % 32, by omega⟩

/-- Queue 32r + i (R5). -/
def queueOf (r : RegionId) (i : Fin 32) : QueueId := ⟨32 * r.val + i.val, by omega⟩

/-- All ports of a region in rising order. -/
def portsOf (r : RegionId) : List PortId := (List.finRange 6).map (portOf r)

/-- Ticks of the datum in one microsecond (5 ns per tick, R182). -/
def usTicks : Nat := 200

/-- Ticks of the datum in one millisecond. -/
def msTicks : Nat := 200000

/-- Ticks of the datum in one second (R192). -/
def secTicks : Nat := 200000000

end Sys2Proof
end

