-- ==== Sys2Proof/Syntax.lean ====
section
/-! DEFINITION. The commands of the block: one constructor of `Instr` per row of spec/opcode_table.json, with the
row's operands. What only the physical world can say (received symbols, levels, which self-tests fail) is an operand
(log entry 7). -/

namespace Sys2Proof

/-- A stored word that has check bits: the word of SRAM, context memory or boot ROM, or the code word of flash, at an
address (R328, R329, R338), or word i of those that wait in a queue, counted from its head (R358). -/
inductive Stored where
  | at_ (a : Word)
  | queue (q : QueueId) (i : Nat)
  deriving DecidableEq, Repr

/-- A bit error that has come up in a stored word: one bit of it is wrong, or two. It stays with the word until the
word is corrected or written. -/
structure BitErr where
  place : Stored
  double : Bool
  deriving DecidableEq, Repr

/-- Where a command acts, and what it meets there. -/
structure Meets (α β : Type) where
  at_ : α
  met : List β
  deriving DecidableEq, Repr

/-- An access of an initiator to the word at an address: a write of a value, or a read. -/
structure Access where
  init : Initiator
  addr : Word
  value : Option Word
  deriving DecidableEq, Repr

/-- An error on the CAN bus as the counters of ISO 11898-1 see it (R284): the receive error counter rises by 1 or by 8,
the transmit error counter by 8. -/
inductive CanErr where
  | rx1
  | rx8
  | tx8
  deriving DecidableEq, Repr

/-- A CAN frame that arrives: its identifier; the errors on the bus since the port's last command; and, where the port
answers it, the errors that the port meets while it sends the answer, up to each event of that (bus-off, sent, given up). -/
structure CanArrival where
  ident : Nat
  errs : List CanErr
  tries : List (List CanErr)
  deriving DecidableEq, Repr

/-- What one port's watcher heard of a preamble (R78, R93 to R96). -/
structure Heard where
  /-- the port -/
  port : PortId
  /-- RSSI in 0.1 dBm (R88) -/
  rssi : Int
  /-- the port's own estimate of the sync instant less that of the receiving port, in chips (R94) -/
  chipOff : Int
  /-- phase of the port's signal, 1/256 turn (R96) -/
  phase : BitVec 8
  deriving DecidableEq, Repr

/-- A preamble candidate as the watchers measured it (R78). -/
structure CandInfo where
  /-- the datum at the sync instant (R91) -/
  syncT : Word64
  /-- preamble symbols counted (R78) -/
  npre : Nat
  /-- the ports that heard it; one entry without traverse combining -/
  heard : List Heard
  deriving DecidableEq, Repr

/-- A downlink whose lifetime ends (R177, R178): the earliest of a node's chain, or a BEACON or broadcast CMD that is booked. -/
inductive ExpiredPacket where
  | chain (n : CtxId)
  | broadcast (p : PortId) (n : SlotId)
  deriving DecidableEq, Repr

/-- What a lane reports when it ends (R86). -/
inductive LaneReport where
  /-- it fell two symbols behind the samples -/
  | behind
  /-- it decided symbols: the bins of the two frequency-sync peaks (R45), the header symbols, the payload symbols, for
  each header symbol the power of the decided bin and the sum of the others (R89), FOFF in 1/16 Hz (R90), and, if it saw
  a second transform peak persist for four symbols (R100), the ticks from the sync instant to the start of that peak -/
  | symbols (peak0 peak1 : Nat) (header payload : List Nat) (powers : List (Nat × Nat)) (foff : Int) (second : Option Nat)
  deriving DecidableEq, Repr

/-- What a second-look unit recovers (R102): nothing, or the symbols of the weak frame. -/
inductive LookReport where
  | nothing
  | found (header payload : List Nat) (sync : BitVec 8) (rssi : Int) (powers : List (Nat × Nat)) (foff : Int)
      (syncT : Word64) (npre : Nat)
  deriving DecidableEq, Repr

/-- One differing block of a cipher operation (R212): which of the two first results differ from the retry's, and
whether the retry's own two results agree. -/
structure Mismatch where
  firstWrong : Bool
  secondWrong : Bool
  retryAgrees : Bool
  deriving DecidableEq, Repr

/-- The target of a handshake (R15, R420) to which a timeout is charged. -/
inductive FaultTarget where
  | lane (p : PortId) (i : LaneId)
  | core (c : CoreId)
  | pipe (r : RegionId) (i : Fin 4)
  | lookUnit (r : RegionId) (i : Fin 4)
  | dmaEngine (r : RegionId) (write : Bool)
  | queueBank (r : RegionId) (b : Fin 8)
  | watcher (p : PortId) (i : WatcherId)
  | port (p : PortId)
  | region (r : RegionId)
  | chipBlock (page : Fin 16)
  deriving DecidableEq, Repr

/-- A handshake (R15): its target, and the access that an initiator made by it, if it was one. -/
structure Handshake where
  target : FaultTarget
  acc : Option Access
  deriving DecidableEq, Repr

/-- What a port's reciprocity calibration measures at a start (R136, R422). -/
structure PortCal where
  port : PortId
  /-- 1/256 turn -/
  calph : BitVec 8
  /-- 0.1 dB, two's complement -/
  calgain : BitVec 8
  /-- noise figure, 0.1 dB -/
  nf : Nat
  /-- degrees Celsius -/
  temp : Int
  toneFound : Bool
  deriving DecidableEq, Repr

/-- The config-memory device that a start identifies (R288). -/
structure CfgDevice where
  /-- its SFDP header carries the signature: the density in bytes that SFDP declares, and 1-1-2 support; none: it does
  not answer with the signature -/
  sfdp : Option (Nat × Bool)
  /-- level of CFG_IO1 as sampled before step 1 -/
  io1 : Bool
  /-- its contents from address 0 on, where it was written or replaced from outside since the last start -/
  content : Option (List Byte)
  deriving DecidableEq, Repr

/-- What a start finds: levels of the strap balls, the config-memory device, the hard self-tests (R422) and what the
port calibrations measure (R136). -/
structure StartInputs where
  /-- ADDR[3:0] (R281) -/
  straps : BitVec 4
  /-- none: missing -/
  cfgDevice : Option CfgDevice
  /-- a word of the image fails its check (R332 step 3) -/
  imageBad : Bool
  /-- children that fail a hard self-test -/
  failed : List FaultTarget
  /-- chip SRAM failed (R422) -/
  chipSramBad : Bool
  /-- regions whose SRAM failed -/
  sramBad : List RegionId
  /-- KSEAL derived and the key log's header passes its seal in a copy (R220) -/
  storeOpens : Bool
  /-- slots whose two sealed copies both fail (R220) -/
  slotsLost : List Nat
  /-- an attestation counter copy passes its seal (R229) -/
  attCounterOk : Bool
  /-- what the port calibrations of step 9 measure; a port that is not listed completes none -/
  cal : List PortCal
  deriving DecidableEq, Repr

/-- A reference frequency found by a window (R183). -/
inductive RefMeasure where
  | invalid
  | valid (reff : Fin 4)
  deriving DecidableEq, Repr

/-- The wake sources of R407 that are events. -/
inductive WakeSource where
  | waken
  | alarm
  | gpio (g : Fin 16)
  | trunk (l : LinkId)
  | reqRun
  deriving DecidableEq, Repr

/-- JTAG instructions other than GETCHAL and TOKEN (R234). -/
inductive JtagIns where
  | bypass
  | idcode
  /-- SAMPLE/PRELOAD: the levels of the balls are shifted out and the boundary register is loaded -/
  | sample (preload : List Bool)
  /-- EXTEST: the boundary register is loaded and drives the balls -/
  | extest (pins : List Bool)
  /-- debug module, scope CORE: halt or resume a core -/
  | halt (c : CoreId)
  | resume (c : CoreId)
  /-- debug module: one step of a halted core -/
  | stepCore (c : CoreId)
  /-- debug module: read or write a core register -/
  | readReg (c : CoreId) (r : Fin 32)
  | writeReg (c : CoreId) (r : Fin 32) (v : Word)
  /-- debug module: bus access through a core -/
  | busRead (c : CoreId) (a : Word)
  | busWrite (c : CoreId) (a v : Word)
  /-- a test-mode instruction, scope TEST -/
  | testMode (code : Nat)
  deriving DecidableEq, Repr


/-- A command of the HV2448: one constructor per row of spec/opcode_table.json. -/
inductive Instr where
  /-- HANDSHAKE_TIMEOUT (R15): The 2000-tick completion watchdog of a handshake expires, so the handshake is aborted and reported to the parent's fault unit. -/
  | handshakeTimeout (t : Handshake) (retryOk : Bool)
  /-- HELD_ACCESS_RELEASE (R16): The reason that held a handshake ends, and the held access completes. -/
  | heldAccessRelease (i : Initiator)
  /-- PREAMBLE_CANDIDATE (R78): A watcher sees four aligned base upchirps and declares a preamble candidate. -/
  | preambleCandidate (p : PortId) (w : WatcherId) (k : Nat) (c : CandInfo)
  /-- SYNC_CHECK (R79): The sync symbols of a candidate are demodulated, and a matching sync value makes the candidate a detection. -/
  | syncCheck (p : PortId) (w : WatcherId) (c : Nat) (s0 s1 : Nat)
  /-- LANE_REQUEST (R82): At the sync instant plus 2T, a detection requests a lane and is granted the lowest-numbered free lane of its port. -/
  | laneRequest (p : PortId) (n : Nat)
  /-- LANE_REQUEST_WITHDRAWN (R85): A request that has no lane by its sync instant plus 3T is withdrawn and counted in DROPNOLANE. -/
  | laneRequestWithdrawn (p : PortId) (n : Nat)
  /-- LANE_OUTCOME (R86): A lane finishes decoding a frame, reaches an outcome and is freed. -/
  | laneOutcome (p : PortId) (i : LaneId) (rep : LaneReport)
  /-- AGC_CLIP (R74): A converter sample reaches full scale, so the gain drops by 3 steps and CLIP sets. -/
  | agcClip (p : PortId)
  /-- AGC_GAIN_DOWN (R74): The RMS has been more than 3 dB above target for 1 ms, so the gain index drops by 1. -/
  | agcGainDown (p : PortId)
  /-- AGC_GAIN_UP (R74): The RMS has been more than 6 dB below target for 100 ms, so the gain index rises by 1. -/
  | agcGainUp (p : PortId)
  /-- PORT_RXGAIN_WRITE (R75): A write of PORT_RXGAIN sets the gain and freezes the gain loop. -/
  | portRxgainWrite (i : Initiator) (p : PortId) (v : Word)
  /-- PORT_AGC_RESUME (R75): A write of 1 to PORT_AGC.RESUME clears FROZEN, and the loop resumes. -/
  | portAgcResume (i : Initiator) (p : PortId) (v : Word)
  /-- PORT_RXFREQ_WRITE (R73): A write of PORT_RXFREQ retunes the port at once, or holds the hop during a transmission interval, with aborts and discards. -/
  | portRxfreqWrite (i : Initiator) (p : PortId) (v : Word)
  /-- PORT_RXCTL_WRITE (R87): A write of PORT_RXCTL, where RXEN = 0 aborts the frames of the port. -/
  | portRxctlWrite (i : Initiator) (p : PortId) (v : Word)
  /-- PORT_WCFG_WRITE (R77): A write of a watcher configuration is stored, or is stored disabled with WCFG_BAD when the bandwidth rule is broken. -/
  | portWcfgWrite (i : Initiator) (p : PortId) (w : WatcherId) (v : Word)
  /-- PORT_CNTCLR (R114): A write of 1 to PORT_CNTCLR.CLR clears the receive and slot-book counters. -/
  | portCntclr (i : Initiator) (p : PortId) (v : Word)
  /-- SECOND_LOOK_START (R102): A free second-look unit takes the oldest request and starts the subtraction and decode. -/
  | secondLookStart (r : RegionId)
  /-- SL_EXPIRED (R101): The earliest sample that a waiting request needs leaves the slice, so the request is dropped. -/
  | slExpired (r : RegionId) (n : Nat)
  /-- SECOND_LOOK_DONE (R102): A second-look unit finishes, and a recovered frame is passed to the link engine. -/
  | secondLookDone (r : RegionId) (u : Fin 4) (rep : LookReport)
  /-- PLUMB_DUE (R104): A lane's INTERVAL since its last verdict expires, so the lane falls due for a plumb check. -/
  | plumbDue (p : PortId) (i : LaneId)
  /-- PLUMB_CHECK_START (R104): A due lane is idle and the generator is free, so a plumb frame is injected. -/
  | plumbCheckStart (p : PortId)
  /-- PLUMB_CHECK_VERDICT (R105): A plumb check ends with a pass or a fail. -/
  | plumbCheckVerdict (p : PortId) (decoded : Bool) (snrError : Int)
  /-- PORT_PLUMB_RUNNOW (R104): A write of 1 to PORT_PLUMB.RUNNOW makes every lane of the port due. -/
  | portPlumbRunnow (i : Initiator) (p : PortId) (v : Word)
  /-- GAUGE_START (R107): The 60 s period or the 1 s retry elapses, so the limit gauge picks a quiet channel and starts a 10 ms measurement. -/
  | gaugeStart (p : PortId)
  /-- GAUGE_RUNNOW (R107): A write of 1 to PORT_GAUGE_CTL.RUNNOW starts a floor measurement. -/
  | gaugeRunnow (i : Initiator) (p : PortId) (v : Word)
  /-- GAUGE_DONE (R107): A 10 ms floor measurement ends and writes FLOOR, CH, GAIN and T. -/
  | gaugeDone (p : PortId) (floor : Int)
  /-- HOP_LOCK (R118): A hop or relock completes, and the synthesizer sets LOCK. -/
  | hopLock (p : PortId)
  /-- HOP_FAIL (R468): A hop has not locked within twice its settle time, so UNLOCK sets, a failure is charged and a full calibration starts. -/
  | hopFail (p : PortId)
  /-- LOCK_LOST (R127): The synthesizer loses lock, and a frame on air is cut. -/
  | lockLost (p : PortId)
  /-- PORT_BM_FREQ_WRITE (R120): A write of PORT_BMe_FREQ clears the entry's VALID bit. -/
  | portBmFreqWrite (i : Initiator) (p : PortId) (e : Fin 64) (v : Word)
  /-- PORT_BMCTL_FILL (R120): A write of 1 to FILL books a FILL-form calibration stake for the invalid entries. -/
  | portBmctlFill (i : Initiator) (p : PortId) (v : Word)
  /-- PORT_BMCTL_INVALL (R120): A write of 1 to INVALL clears VALID in every benchmark entry. -/
  | portBmctlInvall (i : Initiator) (p : PortId) (v : Word)
  /-- PORT_TUNE_WRITE (R133): A write of PORT_TUNE applies the tuner state at once, sets FROZEN and advances the phase epoch. -/
  | portTuneWrite (i : Initiator) (p : PortId) (v : Word)
  /-- PORT_TUNE_RESUME (R133): A write of 1 to PORT_TUNE_CTL.RESUME clears FROZEN, and the loop continues from the present state. -/
  | portTuneResume (i : Initiator) (p : PortId) (v : Word)
  /-- TUNER_RL_MEASURED (R132): Return loss is measured over the first 64 µs of full power, and the tuner loop decides its next trial. -/
  | tunerRlMeasured (p : PortId) (rl : Nat)
  /-- PORT_TXPWR_WRITE (R130): A write of PORT_TXPWR sets the power, or is ignored with PWR_BAD when out of range. -/
  | portTxpwrWrite (i : Initiator) (p : PortId) (v : Word)
  /-- PORT_TXCNTCLR (R143): A write of 1 to PORT_TXCNTCLR.CLR clears the transmit counters and TXTIME. -/
  | portTxcntclr (i : Initiator) (p : PortId) (v : Word)
  /-- PORT_CAL_RUNNOW (R137): A write of 1 to PORT_CAL.RUNNOW asks for a calibration stake. -/
  | portCalRunnow (i : Initiator) (p : PortId) (v : Word)
  /-- CAL_TEMP_DRIFT (R137): The port temperature moves more than 8 °C from TCAL, so CALVALID clears. -/
  | calTempDrift (p : PortId) (t : Int)
  /-- CAL_NOISE_COLD_END (R136): The cold noise measurement ends, and the noise source is switched on. -/
  | calNoiseColdEnd (p : PortId) (power : Int)
  /-- CAL_NOISE_HOT_END (R136): The hot noise measurement ends, NF is found by Y-factor, and the loop is closed. -/
  | calNoiseHotEnd (p : PortId) (nf : Nat)
  /-- CAL_TONE_START (R136): The loop is closed, and the −40 dBm tone is received and compared. -/
  | calToneStart (p : PortId)
  /-- CAL_TONE_END (R136): The tone comparison ends, CALPH and CALGAIN are found, and the loop opens. -/
  | calToneEnd (p : PortId) (calph : BitVec 8) (calgain : BitVec 8)
  /-- CAL_COMPLETE (R137): A calibration ends, CALVALID sets and receive resumes. -/
  | calComplete (p : PortId)
  /-- FRAME_PREPARED (R200): The encoder finishes preparing a TX stake's frame into a buffer slot, and the stake becomes READY. -/
  | framePrepared (p : Meets PortId Mismatch)
  /-- STAKE_ARMING_DEADLINE (R199): A stake's arming deadline is reached, so it is armed or is late, its hop starts and receive stops. -/
  | stakeArmingDeadline (p : PortId) (n : SlotId)
  /-- STAKE_LOCK_CHECK (R127): The lock check at release − RAMP − 20 µs (TX) or release − 20 µs (RXWIN) passes or ends the stake late with NOLOCK. -/
  | stakeLockCheck (p : PortId) (n : SlotId)
  /-- TX_FEM_LEVELS (R126): The FEMCTL lines take their TX levels, and a pending tuner trial takes effect. -/
  | txFemLevels (p : PortId) (n : SlotId)
  /-- TX_SWITCH_TO_TX (R126): The T/R switch goes to transmit. -/
  | txSwitchToTx (p : PortId) (n : SlotId)
  /-- TX_RAMP_UP (R126): The transmitter's ramp-up starts. -/
  | txRampUp (p : PortId) (n : SlotId)
  /-- STAKE_RELEASE (R199): An armed stake reaches its release tick and becomes ACTIVE, firing its action. -/
  | stakeRelease (p : PortId) (n : SlotId)
  /-- TX_FRAME_END (R126): Frame end is reached, ramp-down starts and TXDONE counts the frame. -/
  | txFrameEnd (p : PortId) (n : SlotId)
  /-- TX_OFF (R126): The transmitter goes off, the switch and FEMCTL return to RX and the return hop starts. -/
  | txOff (p : PortId) (n : SlotId)
  /-- TX_INTERVAL_END (R126): The transmission interval ends, and receive resumes. -/
  | txIntervalEnd (p : PortId) (n : SlotId)
  /-- RXWIN_END (R201): At release + DUR, an RXWIN on an entry hops back, and frames that have not ended are aborted. -/
  | rxwinEnd (p : PortId) (n : SlotId)
  /-- STAKE_INTERVAL_END (R199): An ACTIVE stake reaches the end of its interval and becomes FREE. -/
  | stakeIntervalEnd (p : PortId) (n : SlotId)
  /-- SB_BOOK (R197): A BOOK command through PORT_SB_CMD checks and books a stake, or refuses it. -/
  | sbBook (i : Initiator) (p : PortId) (v : Word)
  /-- SB_CANCEL (R203): A CANCEL command frees a BOOKED or READY stake, or is refused with NOTCANCEL. -/
  | sbCancel (i : Initiator) (p : PortId) (v : Word)
  /-- LINK_UPLINK (R165): The link engine processes a frame passed by a lane or a second-look unit through the uplink steps. -/
  | linkUplink (r : RegionId) (mm : List Mismatch)
  /-- CTXOP_INSTALL (R161): The INSTALL operation enters a context's keys in the hash table and releases its held frames. -/
  | ctxopInstall (i : Initiator) (r : RegionId) (v : Word)
  /-- CTXOP_REMOVE (R161): The REMOVE operation starts removing a context once no frame of the node is in flight. -/
  | ctxopRemove (i : Initiator) (r : RegionId) (v : Word)
  /-- CTXOP_REMOVE_DONE (R161): The last frame in flight leaves, so REMOVE removes both keys and discards the chain as REMOVED. -/
  | ctxopRemoveDone (n : CtxId)
  /-- CTXOP_FIND (R161): The FIND operation looks up LINK_CTXKEY and returns the context index. -/
  | ctxopFind (i : Initiator) (r : RegionId) (v : Word)
  /-- MISS_HOLD_EXPIRED (R173): A held frame is not released within HOLD ms of its END_T and is discarded. -/
  | missHoldExpired (r : RegionId) (n : Fin 16)
  /-- DOWNLINK_PACKET (R178): The link engine takes a packet from DNINQ and appends it to a chain, or books a broadcast, or refuses it. -/
  | downlinkPacket (r : RegionId)
  /-- DOWNLINK_EXPIRED (R178): A downlink packet's lifetime ends, and it is dropped as EXPIRED. -/
  | downlinkExpired (x : ExpiredPacket)
  /-- SCHED_WINDOW_DUE (R175): A scheduled window of a node with a non-empty chain comes due, and a SCHED stake is requested. -/
  | schedWindowDue (n : CtxId)
  /-- CHAIN_MOVE_END (R178): A downlink chain finishes moving to the region of the new HOMEPORT. -/
  | chainMoveEnd (n : CtxId)
  /-- LINK_CNTCLR (R181): A write of 1 to LINK_CNTCLR.CLR clears the link counters of the region. -/
  | linkCntclr (i : Initiator) (r : RegionId) (v : Word)
  /-- LINK_ANCHORID_WRITE (R180): A write of LINK_ANCHORID sets the chip-wide anchor ID, and a write of all ones is ignored. -/
  | linkAnchoridWrite (i : Initiator) (r : RegionId) (v : Word)
  /-- LINK_HASHSTAT_READ (R162): A read of LINK_HASHSTAT returns LONGEST and clears it. -/
  | linkHashstatRead (i : Initiator) (r : RegionId)
  /-- CONTEXT_WORD_WRITE (R164): A word write into context memory is ordered against engine updates, and the DNHEAD/DNTAIL word of an installed context is ignored. -/
  | contextWordWrite (i : Initiator) (n : CtxId) (w : Fin 16) (v : Word)
  /-- REFIN_WINDOW_END (R183): A 1 ms REFIN measurement window ends, updating REFF, or declaring REFIN lost or returned. -/
  | refinWindowEnd (m : RefMeasure)
  /-- REFIN_EDGE_LOSS (R183): 1 µs passes with no REFIN edge, so REF_LOST and HOLDOVER set and the synthesizers lose lock. -/
  | refinEdgeLoss
  /-- DATUM_NOW_READ (R184): A read of DATUM_NOW_LO latches all 64 bits of the datum in the reader's latch. -/
  | datumNowRead (i : Initiator)
  /-- DATUM_TRIM_WRITE (R186): A write of DATUM_TRIM changes the datum rate, relocks on a large change, or is ignored with TRIM_BAD. -/
  | datumTrimWrite (i : Initiator) (v : Word)
  /-- PPS_EDGE (R187): A PPS_IN edge is captured and accepted or ignored as a glitch, and PPSERR and lock are updated. -/
  | ppsEdge (falling : Bool)
  /-- PPS_LOST (R188): 220 000 000 ticks pass with no accepted edge, so PPS_LOST sets and PPSLOCK clears. -/
  | ppsLost
  /-- DATUM_PPSCTL_WRITE (R188): A write of DATUM_PPSCTL that changes EN or EDGE restarts or stops PPS capture. -/
  | datumPpsctlWrite (i : Initiator) (v : Word)
  /-- DATUM_STEPGO (R190): A write of 1 to STEPGO takes DATUM_STEP and schedules a step. -/
  | datumStepgo (i : Initiator) (v : Word)
  /-- DATUM_DECLARE (R193): A write of 1 to DATUM_CTL.DECLARE clears UNSYNCED. -/
  | datumDeclare (i : Initiator) (v : Word)
  /-- PPS_HOLDOVER_EXPIRED (R193): The loss of PPS lasts HOLDOVER seconds, so UNSYNCED sets. -/
  | ppsHoldoverExpired
  /-- CIPH_CCM_ENC (R216): The CCM_ENC operation is started on a firmware cipher channel. -/
  | ciphCcmEnc (i : Initiator) (r : RegionId) (n : Fin 2) (v : Word)
  /-- CIPH_CCM_DEC (R216): The CCM_DEC operation is started on a firmware cipher channel. -/
  | ciphCcmDec (i : Initiator) (r : RegionId) (n : Fin 2) (v : Word)
  /-- CIPH_CMAC_GEN (R216): The CMAC_GEN operation is started on a firmware cipher channel. -/
  | ciphCmacGen (i : Initiator) (r : RegionId) (n : Fin 2) (v : Word)
  /-- CIPH_CMAC_VER (R216): The CMAC_VER operation is started on a firmware cipher channel. -/
  | ciphCmacVer (i : Initiator) (r : RegionId) (n : Fin 2) (v : Word)
  /-- CIPH_DERIVE (R216): The DERIVE operation derives a session key into DSTSLOT. -/
  | ciphDerive (i : Initiator) (r : RegionId) (n : Fin 2) (v : Word)
  /-- CIPH_KEYLOAD (R218): The KEYLOAD operation unwraps a key into DSTSLOT. -/
  | ciphKeyload (i : Initiator) (r : RegionId) (n : Fin 2) (v : Word)
  /-- CIPH_KEYSAVE (R217): The KEYSAVE operation writes the wrapped form of a slot to DST. -/
  | ciphKeysave (i : Initiator) (r : RegionId) (n : Fin 2) (v : Word)
  /-- CIPHER_GRANT (R214): The cipher block grants a pipe pair to a waiting operation and reads its key slot. -/
  | cipherGrant (r : RegionId)
  /-- CIPHER_OP_END (R213): A cipher operation finishes and releases its output, or ends with an error. -/
  | cipherOpEnd (r : RegionId) (n : Fin 2) (mm : List Mismatch)
  /-- KEY_COMMIT_DONE (R219): A slot write has been committed to both copies of the key log, and its operation reports DONE. -/
  | keyCommitDone (ok : Bool)
  /-- KEY_LOADPLAIN (R221): The LOADPLAIN operation of KEY_CTL loads a plain key into a slot. -/
  | keyLoadplain (i : Initiator) (v : Word)
  /-- KEY_ERASE (R221): The ERASE operation of KEY_CTL empties one slot. -/
  | keyErase (i : Initiator) (v : Word)
  /-- KEY_ERASEALL (R221): The ERASEALL operation of KEY_CTL empties all 8192 slots as one slot write. -/
  | keyEraseall (i : Initiator) (v : Word)
  /-- HASH_SHA256 (R225): The SHA256 operation of HASH_CMD hashes HASH_LEN bytes. -/
  | hashSha256 (i : Initiator) (v : Word)
  /-- HASH_LMS_VERIFY (R225): The LMS_VERIFY operation of HASH_CMD verifies a signature under a chosen key. -/
  | hashLmsVerify (i : Initiator) (v : Word)
  /-- HASH_DONE (R225): A hash-engine operation ends with its STATUS. -/
  | hashDone
  /-- OTP_PROGKEY (R223): The PROGKEY operation writes a customer public key to OTP, or is denied. -/
  | otpProgkey (i : Initiator) (v : Word)
  /-- OTP_REVOKE (R223): The REVOKE operation revokes a customer key, or is denied. -/
  | otpRevoke (i : Initiator) (v : Word)
  /-- OTP_CLEARROOTOK (R223): The CLEARROOTOK operation clears ROOTOK, or is denied. -/
  | otpClearrootok (i : Initiator) (v : Word)
  /-- ATT_REQUEST (R227): A write of ATT_CTL.GO requests an attestation report, or ends TOOSOON, SPENT or LOST. -/
  | attRequest (i : Initiator) (v : Word)
  /-- ATT_SIGNED (R229): The counter is committed, the report is signed and written, and STATUS is DONE. -/
  | attSigned
  /-- DBG_TOKEN_SUBMIT (R235): A write of DBG_CTL.GO submits a debug token, which is accepted or rejected. -/
  | dbgTokenSubmit (i : Initiator) (v : Word)
  /-- JTAG_TOKEN (R235): The JTAG instruction TOKEN submits a debug token. -/
  | jtagToken (token : List Byte)
  /-- JTAG_GETCHAL (R234): The JTAG instruction GETCHAL returns the current debug challenge. -/
  | jtagGetchal
  /-- SEC_AUTH_WINDOW_END (R237): An authentication-failure window ends, and the count restarts. -/
  | secAuthWindowEnd
  /-- TRUNK_SIGNAL_PRESENT (R243): A differential signal appears on DIN, and the receiver enters ALIGN. -/
  | trunkSignalPresent (l : LinkId)
  /-- TRUNK_UP (R243): 32 clean IDLEs with no ingress unit held bring the link UP, and the module sends CREDIT 128. -/
  | trunkUp (l : LinkId)
  /-- TRUNK_DOWN (R243): Loss of signal, errors or missing commas take the link DOWN and discard unadmitted frames. -/
  | trunkDown (l : LinkId)
  /-- TRUNK_FRAME_RX (R248): A request frame is received whole and discarded, answered BADLEN, or queued for admission. -/
  | trunkFrameRx (l : LinkId) (bytes : List Byte) (codeError : Bool)
  /-- TRUNK_ADMIT (R250): Reply space is reserved for a waiting request, which is admitted. -/
  | trunkAdmit (l : LinkId)
  /-- TRUNK_PING (R253): The PING request is answered with the device state in AUX. -/
  | trunkPing (l : LinkId)
  /-- TRUNK_MEMRD (R254): The MEMRD request reads words in ascending order as machine-mode accesses. -/
  | trunkMemrd (l : Meets LinkId BitErr)
  /-- TRUNK_MEMWR (R254): The MEMWR request writes words in ascending order as machine-mode accesses. -/
  | trunkMemwr (l : LinkId)
  /-- TRUNK_QRD (R255): The QRD request reads consecutive words from a queue. -/
  | trunkQrd (l : Meets LinkId BitErr)
  /-- TRUNK_QWR (R255): The QWR request writes all its words to a queue, or parks for space. -/
  | trunkQwr (l : LinkId)
  /-- QWR_RESUME (R255): A parked QWR finds space and writes its words. -/
  | qwrResume (l : LinkId) (t : Fin 32)
  /-- QWR_PARK_TIMEOUT (R255): A parked QWR waits QWAIT ms without space and replies FULL. -/
  | qwrParkTimeout (l : LinkId) (t : Fin 32)
  /-- TRUNK_SREAD (R256): The SREAD request reads a whole packet at once, or parks as a standing read. -/
  | trunkSread (l : LinkId)
  /-- SREAD_SERVED (R256): A packet arrives in the queue of a parked SREAD, which is answered as a QRD with PKT. -/
  | sreadServed (l : LinkId) (t : Fin 32)
  /-- SREAD_TIMEOUT (R256): A parked SREAD sees no packet within its timeout and replies TIMEOUT. -/
  | sreadTimeout (l : LinkId) (t : Fin 32)
  /-- TRUNK_DICT (R257): The DICT request carries one TDP request and returns one TDP response. -/
  | trunkDict (l : LinkId)
  /-- TRUNK_MBX_POST (R257): The MBX POST request posts a message to a host mailbox, or replies FULL. -/
  | trunkMbxPost (l : LinkId)
  /-- TRUNK_MBX_TAKE (R257): The MBX TAKE request takes the message of a host mailbox. -/
  | trunkMbxTake (l : LinkId)
  /-- TRUNK_MBX_PEEK (R257): The MBX PEEK request reads the message of a host mailbox without taking it. -/
  | trunkMbxPeek (l : LinkId)
  /-- TRUNK_RELEASE (R252): A RELEASE ordered set frees a retained tag and its reply reservation. -/
  | trunkRelease (l : LinkId) (t : Byte)
  /-- TRUNK_RETAIN_EXPIRED (R252): RETAIN ms pass after a reply, so its tag becomes EXPIRED and the reservation is freed. -/
  | trunkRetainExpired (l : LinkId) (t : Fin 32)
  /-- TRK_ATTNSET_WRITE (R263): A write of TRK_ATTNSET sets EVT cause bits. -/
  | trkAttnsetWrite (i : Initiator) (v : Word)
  /-- TRK_CNTCLR (R264): A write of TRK_CNTCLR clears the counters of a link. -/
  | trkCntclr (i : Initiator) (v : Word)
  /-- TDP_READ (R271): The READ message is answered with READ_EXP, or opens a segmented read with READ_INIT. -/
  | tdpRead (c : Carrier) (index : BitVec 16) (sub : Byte)
  /-- TDP_WRITE_EXP (R271): The WRITE_EXP message writes an object and is answered WRITE_OK or ABORT. -/
  | tdpWriteExp (c : Carrier) (index : BitVec 16) (sub : Byte) (data : List Byte)
  /-- TDP_WRITE_INIT (R274): The WRITE_INIT message opens a segmented write with WRITE_READY. -/
  | tdpWriteInit (c : Carrier) (index : BitVec 16) (sub : Byte) (total : Word)
  /-- TDP_SEG_REQ (R273): The SEG_REQ message asks for the next segment of a read. -/
  | tdpSegReq (c : Carrier) (seq : Byte)
  /-- TDP_SEG (R274): The SEG message carries a write segment and is acknowledged with SEG_ACK. -/
  | tdpSeg (c : Carrier) (seq : Byte) (data : List Byte)
  /-- TDP_SEG_LAST (R274): The SEG_LAST message ends a segmented write, which is applied and answered WRITE_OK. -/
  | tdpSegLast (c : Carrier) (seq : Byte) (data : List Byte)
  /-- TDP_ABORT (R275): An ABORT message from the host closes the carrier's open transfer. -/
  | tdpAbort (c : Carrier) (index : BitVec 16) (sub code : Byte)
  /-- TDP_XFER_TIMEOUT (R272): No message of an open transfer arrives for 1 s, so the transfer closes. -/
  | tdpXferTimeout (c : Carrier)
  /-- TDP_FW_ANSWER (R278): Firmware's answer packet arrives in RSPQ and is returned on the carrier, or is discarded. -/
  | tdpFwAnswer
  /-- TDP_FW_TIMEOUT (R278): No valid firmware answer arrives within TMO ms, so the request ends with NOFWRESP. -/
  | tdpFwTimeout (c : Carrier)
  /-- ATTN_DETAIL_CLEAR (R262): A write to a latched-bit detail object clears the cause flags whose bits are 1. -/
  | attnDetailClear (c : Carrier) (bit : Fin 14) (sub : Byte) (data : List Byte)
  /-- CTX_OP_CHANNEL (R311): A write to object 0x5101 OP starts a context operation on the dictionary's own channel. -/
  | ctxOpChannel (c : Carrier) (op : Byte)
  /-- ATTEST_WRITE (R313): A 32-byte write to ATTEST requests a report that the dictionary holds for reading. -/
  | attestWrite (c : Carrier) (challenge : List Byte)
  /-- CLEARRET (R315): A write of 1 to object 0x8003 empties the retirement list at the next start. -/
  | clearret (c : Carrier) (v : Byte)
  /-- CAN_REQUEST_FRAME (R283): A CAN request frame with the node's identifier is buffered, or dropped when the buffer is full. -/
  | canRequestFrame (x : CanArrival) (data : List Byte) (fd brs : Bool)
  /-- CAN_BUSOFF (R284): The port enters bus-off, and BUSOFF increments. -/
  | canBusoff
  /-- CAN_BUSOFF_RECOVERY (R284): The port leaves bus-off after 128 occurrences of 11 recessive bits. -/
  | canBusoffRecovery
  /-- CAN_TX_TIMEOUT (R284): A response retried for 100 ms is discarded and counted in TXDROP. -/
  | canTxTimeout
  /-- CAN_CNTCLR (R297): A write of CAN_CNTCLR clears the CAN and TDP counters. -/
  | canCntclr (i : Initiator) (v : Word)
  /-- CFG_RECORD_COMMITTED (R292): A queued record has been written, followed by 0xFF, and read back in config memory. -/
  | cfgRecordCommitted (readBackOk : Bool)
  /-- CFG_CLEAR (R295): A write of 1 to CFG_CTL.CLEAR discards queued records and compacts to defaults. -/
  | cfgClear (i : Initiator) (v : Word)
  /-- CORE_LOAD_STORE (R323): A core load or store completes, traps, or is held. -/
  | coreLoadStore (c : CoreId) (u : List BitErr)
  /-- CORE_LR_W (R324): The LR.W instruction loads a word and sets a reservation. -/
  | coreLrW (c : Meets CoreId BitErr)
  /-- CORE_SC_W (R324): The SC.W instruction stores a word only under a valid reservation. -/
  | coreScW (c : CoreId)
  /-- CORE_AMO (R324): An AMO instruction performs one indivisible read-modify-write. -/
  | coreAmo (c : Meets CoreId BitErr)
  /-- CORE_FENCE (R325): The FENCE instruction completes when every earlier access has completed. -/
  | coreFence (c : CoreId)
  /-- CORE_FENCE_I (R325): The FENCE.I instruction makes written code visible to the fetch path. -/
  | coreFenceI (c : CoreId)
  /-- CORE_WFI (R319): A core stalls in WFI until an interrupt. -/
  | coreWfi (c : CoreId)
  /-- CORE_TIME_READ (R319): A read of the time CSR latches the datum in the core's latch. -/
  | coreTimeRead (c : CoreId)
  /-- MTIMECMP_WRITE (R320): A write of MTIMECMP makes the held compare pair take effect. -/
  | mtimecmpWrite (c : CoreId)
  /-- MACHINE_TIMER_INTERRUPT (R320): The datum reaches the compare value, so the machine timer interrupt becomes pending. -/
  | machineTimerInterrupt (c : CoreId)
  /-- CORE_INTERRUPT_TAKEN (R321): A core takes a pending enabled interrupt. -/
  | coreInterruptTaken (c : CoreId)
  /-- MIRQCLAIM_WRITE (R322): A write of n to MIRQCLAIM clears the event latch of source n for this core. -/
  | mirqclaimWrite (c : CoreId)
  /-- CORE_CTL_WRITE (R336): A write of CORE_CTL.RUN starts cores at their entry or holds them in reset. -/
  | coreCtlWrite (i : Initiator) (v : Word)
  /-- CORE_MSIP_WRITE (R336): A write of CORE_MSIP sets or clears the machine software interrupts. -/
  | coreMsipWrite (i : Initiator) (v : Word)
  /-- FLASH_READ (R338): A flash read returns data with ECC, or returns the poison word or a bus error. -/
  | flashRead (i : Initiator) (a : Word) (u : List BitErr)
  /-- FLASH_PROGRAM (R339): The PROGRAM operation of FLASH_CMD starts programming one code word, or is refused. -/
  | flashProgram (i : Initiator) (v : Word)
  /-- FLASH_PROGRAM_DONE (R339): A program operation ends with DONE. -/
  | flashProgramDone
  /-- FLASH_ERASE (R341): The ERASE operation of FLASH_CMD increments ES and starts erase pulses, or is refused. -/
  | flashErase (i : Initiator) (v : Word)
  /-- FLASH_ERASE_PULSE_END (R341): An erase pulse ends with a verify, which ends the erase DONE, ends it FAILED after 160 pulses, or starts the next pulse. -/
  | flashErasePulseEnd (verify : Bool)
  /-- FLASH_SUSPEND (R344): A write of 1 to FLASH_SUSP.SUSPEND suspends a running erase. -/
  | flashSuspend (i : Initiator) (v : Word)
  /-- FLASH_RESUME (R344): A write of 1 to FLASH_SUSP.RESUME starts a new pulse of a suspended erase. -/
  | flashResume (i : Initiator) (v : Word)
  /-- FLASH_WP_WRITE (R347): A write of FLASH_WP sets write-protect bits until the next start. -/
  | flashWpWrite (i : Initiator) (n : Fin 4) (v : Word)
  /-- QUE_WR_LO (R352): A write of QUE_WR_LO stores the low half in the writer's latch. -/
  | queWrLo (i : Initiator) (q : QueueId) (v : Word)
  /-- QUE_WR_HI (R352): A write of QUE_WR_HI pushes a word without an end mark. -/
  | queWrHi (i : Initiator) (q : QueueId) (v : Word)
  /-- QUE_WREND_HI (R352): A write of QUE_WREND_HI pushes a word with the end mark. -/
  | queWrendHi (i : Initiator) (q : QueueId) (v : Word)
  /-- QUE_RD_LO (R355): A read of QUE_RD_LO takes the head word, or the idle word when the queue is empty. -/
  | queRdLo (i : Initiator) (q : QueueId) (u : List BitErr)
  /-- QUE_FLUSH (R357): A write of 1 to QUE_CTL.FLUSH empties the queue and arms DISCARD. -/
  | queFlush (i : Initiator) (q : QueueId) (v : Word)
  /-- QUE_CTL_EN_WRITE (R350): A write of QUE_CTL.EN enables the queue, or refuses with CFGBAD, or disables and flushes it. -/
  | queCtlEnWrite (i : Initiator) (q : QueueId) (v : Word)
  /-- QUE_CFG_WRITE (R350): A write of QUE_CFG sets BASE and DEPTH, or is ignored with CFGBAD while the queue is enabled. -/
  | queCfgWrite (i : Initiator) (q : QueueId) (v : Word)
  /-- DMA_COMMIT (R361): A write of COMMIT makes the shadow descriptor ready, and it is taken at once when the channel is idle. -/
  | dmaCommit (i : Initiator) (n : Fin 32) (v : Word)
  /-- DMA_READ_BURST (R364): The read engine grants a ready channel and reads one burst into the buffer. -/
  | dmaReadBurst (r : Meets RegionId BitErr)
  /-- DMA_WRITE_BURST (R365): The write engine writes one burst of a channel's elements from the buffer. -/
  | dmaWriteBurst (r : RegionId)
  /-- DMA_ABORT (R369): A write of 1 to DMA_CTL.ABORT stops the active descriptor. -/
  | dmaAbort (i : Initiator) (n : Fin 32) (v : Word)
  /-- MBX_LOCK_READ (R372): A read of MBX_LOCK acquires a free lock or returns the owner. -/
  | mbxLockRead (i : Initiator) (m : Fin 16)
  /-- MBX_LOCK_WRITE (R372): A write of 0 by the owner releases the lock, and a write by another initiator sets LOCKERR. -/
  | mbxLockWrite (i : Initiator) (m : Fin 16) (v : Word)
  /-- MBX_MSG_WRITE (R373): A write of MBX_MSG posts a message, or sets POSTFAIL when the mailbox is full. -/
  | mbxMsgWrite (i : Initiator) (m : Fin 16) (v : Word)
  /-- MBX_TAKE_READ (R373): A read of MBX_TAKE takes the message and sets TAKEN. -/
  | mbxTakeRead (i : Initiator) (m : Fin 16)
  /-- MBX_TAKEN_CLEAR (R374): A W1C of TAKEN by the sender clears it, and one by any other initiator is ignored. -/
  | mbxTakenClear (i : Initiator) (m : Fin 16) (v : Word)
  /-- GPIO_EDGE (R385): A GPIO ball changes level and fires its edge producer. -/
  | gpioEdge (g : Fin 16) (level : Bool)
  /-- LUT_FILTER_END (R381): A LUT filter window ends, and the held event goes on to evaluation. -/
  | lutFilterEnd (j : Fin 16)
  /-- EVT_FIRE_WRITE (R383): A write to EVT_FIRE fires channels as primary events. -/
  | evtFireWrite (i : Initiator) (high : Bool) (v : Word)
  /-- TIMER_STEP (R386): A running timer takes a counting step, reloading and firing ZERO at zero. -/
  | timerStep (t : Fin 16)
  /-- TMR_START (R387): A write of TMRi_CTL.START starts the timer. -/
  | tmrStart (i : Initiator) (t : Fin 16) (v : Word)
  /-- TMR_STOP (R387): A write of TMRi_CTL.STOP stops the timer. -/
  | tmrStop (i : Initiator) (t : Fin 16) (v : Word)
  /-- TMR_FORCE (R387): A write of TMRi_CTL.FORCE makes the timer take a zero step on the next tick. -/
  | tmrForce (i : Initiator) (t : Fin 16) (v : Word)
  /-- TMR_GO_WRITE (R387): A write of TMR_GO starts the masked timers on one datum tick. -/
  | tmrGoWrite (i : Initiator) (v : Word)
  /-- TMR_CAPT_READ (R389): A read of TMRi_CAPT returns the capture and clears CAPT_NEW. -/
  | tmrCaptRead (i : Initiator) (t : Fin 16)
  /-- EVT_CTL_CLR (R394): A write of EVT_CTL.CLR clears every MERGED, FWD and DROPS count. -/
  | evtCtlClr (i : Initiator) (v : Word)
  /-- VIN_VALID (R404): VIN rises through 34 V, and a start begins at step 1. -/
  | vinValid (inp : StartInputs)
  /-- VIN_DROP (R404): VIN falls below 32 V, and the converter stops. -/
  | vinDrop
  /-- VIN_OVERVOLTAGE (R404): VIN rises above 82 V, and the converter stops. -/
  | vinOvervoltage
  /-- VIN_OVERVOLTAGE_END (R404): VIN falls back below 78 V, and a start begins at step 3. -/
  | vinOvervoltageEnd (inp : StartInputs)
  /-- VIN_RANGE_FLAG (R404): VIN enters 32–36 V or 75–82 V, so VIN_LOW or VIN_HIGH sets. -/
  | vinRangeFlag (high : Bool)
  /-- RESETN (R416): The release of RESETN after at least 10 µs low begins a start at step 3. -/
  | resetn (inp : StartInputs)
  /-- BACKUP_POWER_LOSS (R397): The backup supply falls below 1.6 V, so the elapsed count and RTC state are lost. -/
  | backupPowerLoss
  /-- BACKUP_SWITCH_OVER (R403): The selector passes from VKA to VBAT, recording the first switch-over and incrementing SWCOUNT. -/
  | backupSwitchOver
  /-- RTC_FRAC_READ (R400): A read of RTC_FRAC freezes the reader's RTC shadows. -/
  | rtcFracRead (i : Initiator)
  /-- RTC_DATE_READ (R400): A read of RTC_DATE returns the shadow and ends the freeze. -/
  | rtcDateRead (i : Initiator)
  /-- RTC_HALT_SET (R401): A write of 1 to RTC_CTL.HALT halts the calendar. -/
  | rtcHaltSet (i : Initiator) (v : Word)
  /-- RTC_HALT_CLEAR (R401): A write of 0 to HALT starts a valid calendar in BCD mode, or is refused with SET_BAD. -/
  | rtcHaltClear (i : Initiator) (v : Word)
  /-- RTC_BINARY (R399): A write of 1 to RTC_CTL.BINARY sets MODE to binary. -/
  | rtcBinary (i : Initiator) (v : Word)
  /-- RTC_TIME_WRITE (R401): A write of RTC_TIME or RTC_DATE is taken under HALT, or ignored with SET_IGNORED. -/
  | rtcTimeWrite (i : Initiator) (date : Bool) (v : Word)
  /-- RTC_CTL_SYNC_DONE (R401): An RTC_CTL write finishes crossing, and SYNCBUSY clears. -/
  | rtcCtlSyncDone
  /-- RTC_ALARM (R402): RTC_SEC reaches RTC_ALARM, so the alarm is raised. -/
  | rtcAlarm (inp : StartInputs)
  /-- PWR_REQ_RUN (R406): A write of REQ = RUN leaves NAP. -/
  | pwrReqRun (i : Initiator) (v : Word)
  /-- PWR_REQ_NAP (R406): A write of REQ = NAP powers down the port blocks and RF dies. -/
  | pwrReqNap (i : Initiator) (v : Word)
  /-- PWR_REQ_HOLD (R408): A write of REQ = HOLD enters HOLD, or is refused with ENTRY_REFUSED. -/
  | pwrReqHold (i : Initiator) (v : Word)
  /-- PWR_REQ_STANDBY (R408): A write of REQ = STANDBY enters STANDBY, or is refused with ENTRY_REFUSED. -/
  | pwrReqStandby (i : Initiator) (v : Word)
  /-- WAKE_EVENT (R407): An enabled wake source acts in NAP, HOLD or STANDBY, re-seeding the datum and restoring power. -/
  | wakeEvent (src : WakeSource) (inp : StartInputs)
  /-- HOLD_WAKE_CORE_RESTART (R335): 2 ms after a wake from HOLD, the released cores restart at CORE_WAKE. -/
  | holdWakeCoreRestart
  /-- PWR_DOMSLEEP_WRITE (R409): A write of PWR_DOMSLEEP puts domains to sleep or wakes them, or is refused. -/
  | pwrDomsleepWrite (i : Initiator) (r : RegionId) (v : Word)
  /-- DOMAIN_READY (R410): A woken domain becomes ready, and the held access completes. -/
  | domainReady (r : RegionId) (d : Fin 10)
  /-- PWR_VSET_WRITE (R412): A write of VSET moves VCORE, or is refused with VCTL_REFUSED. -/
  | pwrVsetWrite (i : Initiator) (r : RegionId) (v : Word)
  /-- PWR_PACE_WRITE (R412): A write of PACE changes the region's pace entry, or is refused. -/
  | pwrPaceWrite (i : Initiator) (r : RegionId) (v : Word)
  /-- PWR_VCEIL_WRITE (R412): A write of VCEIL sets the ceiling, or is refused. -/
  | pwrVceilWrite (i : Initiator) (r : RegionId) (v : Word)
  /-- VCORE_SETTLED (R412): VCORE reaches its target, and VBUSY clears. -/
  | vcoreSettled (r : RegionId)
  /-- AVS_MARGIN_LOW (R413): The completion margin falls below the guard, so the loop adds boost. -/
  | avsMarginLow (r : RegionId)
  /-- AVS_PACE_STEP (R413): With boost exhausted, PACENOW drops one entry every 100 µs, and AVS_CONFLICT sets. -/
  | avsPaceStep (r : RegionId)
  /-- AVS_MARGIN_HELD (R413): The margin holds for 10 ms, so the loop removes boost or raises PACENOW one step. -/
  | avsMarginHeld (r : RegionId)
  /-- TEMP_HIGH (R454): The spine-die temperature exceeds 105 °C, and TEMP_HIGH sets. -/
  | tempHigh (t : Int)
  /-- OUT33_OVERLOAD (R405): V33OUT overload folds back the output and sets OUT33_FAULT. -/
  | out33Overload
  /-- UPD_LOCK_CLAIM (R442): A write of 1 to object 0x9001 claims the update lock for its carrier. -/
  | updLockClaim (c : Carrier)
  /-- UPD_LOCK_RELEASE (R443): A write of 0 to 0x9001 by the holder releases the lock and abandons any image. -/
  | updLockRelease (c : Carrier)
  /-- UPD_LOCK_EXPIRED (R443): 30 s without progress release the lock, setting EXPIRED. -/
  | updLockExpired
  /-- UPD_IMAGE_INIT (R446): A WRITE_INIT of IMAGE starts or restarts an image write. -/
  | updImageInit (c : Carrier) (total : Word)
  /-- UPD_IMAGE_SEGMENT (R446): An IMAGE segment is erased into place, programmed and read back, then acknowledged, or the update FAILED. -/
  | updImageSegment (c : Carrier) (seq : Byte) (last : Bool) (data : List Byte) (flashOk : Bool)
  /-- UPD_COMMIT (R447): A write of COMMIT programs bytes 0–15 and releases the lock. -/
  | updCommit (c : Carrier) (flashOk : Bool)
  /-- UPD_ABORT (R448): A write of ABORT releases the lock and abandons the image. -/
  | updAbort (c : Carrier)
  /-- REGISTER_WRITE (R10): A write to a register field that has no row of its own takes effect under its access code. -/
  | registerWrite (i : Initiator) (a v : Word)
  /-- RESETN_ASSERT (R416): RESETN held low for at least 10 µs stops everything except VKA and the backup domain. -/
  | resetnAssert
  /-- RUN_REACHED (R416): The start-up sequence reaches step 10, so the device enters RUN or DEGRADED and RUN_T is stamped. -/
  | runReached (inp : StartInputs)
  /-- BACKUP_POWER_RETURN (R397): The selected backup supply becomes valid again, because VKA becomes valid or a cell is fitted, so the backup domain powers on or the selector returns from VBAT to VKA. -/
  | backupPowerReturn
  /-- V33OUT_RECOVERY (R405): The load on V33OUT falls, and the folded-back output recovers by itself. -/
  | v33outRecovery
  /-- CORE_INSTRUCTION (R317): A core fetches and executes an instruction that is not a load, store, atomic, fence, WFI or listed CSR access, and retires it or traps. -/
  | coreInstruction (c : Meets CoreId BitErr)
  /-- JTAG_INSTRUCTION (R234): A JTAG instruction other than GETCHAL or TOKEN is shifted and run: BYPASS, IDCODE, SAMPLE/PRELOAD, EXTEST, or an unlocked test-mode or debug-module instruction. -/
  | jtagInstruction (x : JtagIns)
  /-- TESTEN_CHANGE (R458): The TESTEN ball changes level; while it is high the module does not leave reset. -/
  | testenChange (high : Bool)
  /-- OTP_OPERATION_END (R223): An OTP operation ends with DONE or FAILED after its PENDING time, and DONE sets the OTP cause of SEC_STAT. -/
  | otpOperationEnd (ok : Bool)
  /-- CAN_RESPONSE_SENT (R283): A TDP response frame wins the bus and is sent, CAN_CNT_TX counts it and the next buffered request is taken. -/
  | canResponseSent
  deriving DecidableEq, Repr

end Sys2Proof
end

