-- ==== Sys2Proof/Config.lean ====
section
/-! DEFINITION. What one module's manufacture fixes, and the free values: constants with no body, so that no proof
can see what they are (log entries 8 to 12). -/

namespace Sys2Proof.Config

/-- A fresh value that the spec leaves open, taken with State's counter `freeCtr` (log entry 12).
(Log entry 12 UNVERIFIED.) -/
opaque freeValue : Nat → Nat

/-- The bytes of the boot ROM at an offset; the spec gives no contents (log entry 9).
(Log entry 9 UNVERIFIED.) -/
opaque romByte : Nat → Byte

/-- What a lane's decoder makes of received coded bits that are no code word; the spec states no decoder for
damaged symbols (log entry 8). First argument: the number of bits wanted; second: the coded bits with their erasures.
(Log entry 8 UNVERIFIED.) -/
opaque decoderGuess : Nat → List (Option Bool) → List Bool

/-- Module serial number (object 0x1000 subindex 3, R304), log entry 10.
(Log entry 10 UNVERIFIED.) -/
opaque serial : Word64

/-- Hardware revision (object 0x1000 subindex 4, R304), log entry 10.
(Log entry 10 UNVERIFIED.) -/
opaque hwRev : BitVec 16

/-- Boot ROM version (object 0x1000 subindex 5, R304), log entry 10.
(Log entry 10 UNVERIFIED.) -/
opaque romVer : Word

/-- The IEEE 1149.1 IDCODE; the spec gives none (R234), log entry 10.
(Log entry 10 UNVERIFIED.) -/
opaque idcode : Word

/-- The ball that a cell of the boundary-scan chain stands at, numbered as `Dev.ballLevel` numbers them; the spec gives
no order (R234), log entry 10.
(Log entry 10 UNVERIFIED.) -/
opaque scanCell : Nat → Nat

/-- Number of cells of the boundary-scan chain; the spec gives none (R234), log entry 10.
(Log entry 10 UNVERIFIED.) -/
opaque scanLength : Nat

/-- The device-unique secret DUS, 256 bits (R209), log entry 10.
(Log entry 10 UNVERIFIED.) -/
opaque dus : BitVec 256

/-- Byte i of the Skastad root public key in OTP (R222), log entry 10.
(Log entry 10 UNVERIFIED.) -/
opaque rootKey : Nat → Byte

/-- The identifier I of a tree of the attestation key, from the attestation seed (R226); the spec does not say how the
seed gives it. Second argument: the tree, 0 the top one, 1 + t the lower tree t. Log entry 11.
(Log entry 11 UNVERIFIED.) -/
opaque hssId : List Byte → Nat → List Byte

/-- An element of an LMOTS private key of the attestation key, from the seed (R226): tree, leaf, element. Log entry 11.
(Log entry 11 UNVERIFIED.) -/
opaque hssSecret : List Byte → Nat → Nat → Nat → List Byte

/-- The randomizer of an LMOTS signature (R227): seed, tree, leaf, message. Log entry 11.
(Log entry 11 UNVERIFIED.) -/
opaque hssRandom : List Byte → Nat → Nat → List Byte → List Byte

/-- Byte i of the manufacturing certificate (R226), log entry 11.
(Log entry 11 UNVERIFIED.) -/
opaque certByte : Nat → Byte

/-- Length of the manufacturing certificate, log entry 11.
(Log entry 11 UNVERIFIED.) -/
opaque certLength : Nat

/-- SHA-256 speed, LMS speed and similar fabric times are not modelled (R14). The remaining settle time of a hop
whose end is unknown is 140 microseconds (R124). -/
def unknownSettle : Nat := 140

end Sys2Proof.Config
end

