-- ==== Sys2Proof/Machine/PortState.lean ====
section
/-! DEFINITION. The state of one port block: receive engine (R69 to R116), synthesizer, transmitter, tuner and
calibration (R117 to R143) and slot book (R195 to R208). Registers that software reads and writes whole are words;
what lives inside the block has its own type. Every default is the value after reset. -/

namespace Sys2Proof.Machine

/-- The receive counters of R114, in the order of their addresses. -/
inductive RxCnt where
  | det | syncrej | watchfull | dropnolane | dropcap | borrowin | lendout | hdrbad | crcbad | lanelate
  | rxabort | dropqfull | delivered | trav | sltried | slrecovered | slnobuf | slexpired | plumbpass | plumbfail
  deriving DecidableEq, Repr

/-- The word of the counter block at 0x0100 that a receive counter is. -/
def RxCnt.ix : RxCnt → Fin 20
  | .det => 0 | .syncrej => 1 | .watchfull => 2 | .dropnolane => 3 | .dropcap => 4 | .borrowin => 5
  | .lendout => 6 | .hdrbad => 7 | .crcbad => 8 | .lanelate => 9 | .rxabort => 10 | .dropqfull => 11
  | .delivered => 12 | .trav => 13 | .sltried => 14 | .slrecovered => 15 | .slnobuf => 16 | .slexpired => 17
  | .plumbpass => 18 | .plumbfail => 19

/-- The transmit counters of R143 at 0x8440. -/
inductive TxCnt where
  | txdone | txcut | marijoin | mariout | marifall
  deriving DecidableEq, Repr

/-- The word of the counter block at 0x8440 that a transmit counter is. -/
def TxCnt.ix : TxCnt → Fin 5
  | .txdone => 0 | .txcut => 1 | .marijoin => 2 | .mariout => 3 | .marifall => 4

/-- The slot-book counters of R208 at 0xF040. -/
inductive SbCnt where
  | booked | fired | txlate | late | displaced | latelost
  deriving DecidableEq, Repr

/-- The word of the counter block at 0xF040 that a slot-book counter is. -/
def SbCnt.ix : SbCnt → Fin 6
  | .booked => 0 | .fired => 1 | .txlate => 2 | .late => 3 | .displaced => 4 | .latelost => 5

/-- Chirp order, bandwidth code (R113) and channel number (R70) of a signal. -/
structure Mode where
  k : Nat
  bw : Nat
  chan : Nat
  deriving DecidableEq, Repr

/-- A candidate that a watcher holds (R78). -/
structure Cand where
  k : Nat
  info : CandInfo
  deriving DecidableEq, Repr

/-- One watcher: PORT_WCFGi, its retirement, its candidates (R77, R78). -/
structure Watcher where
  /-- EN, BW and KMASK as R116 lays them out -/
  cfg : Word := 0x7F3
  retired : Bool := false
  /-- at most four -/
  cands : List Cand := []
  deriving DecidableEq, Repr

/-- A detection that waits for a lane (R79, R82, R85). -/
structure LaneReq where
  watcher : WatcherId
  mode : Mode
  /-- the sync value received -/
  sync : Byte
  info : CandInfo
  /-- gain index of the receiving port at the sync instant (R113) -/
  rxgain : Nat
  /-- the request has been made, at the sync instant plus 2T (R79) -/
  asked : Bool
  /-- refused so far only because of the lane cap (R85) -/
  capOnly : Bool
  deriving DecidableEq, Repr

/-- A frame that a lane decodes (R86). -/
structure LaneJob where
  rxPort : PortId
  req : LaneReq
  /-- the other ports combined with the receiving port (R94) -/
  contrib : List Heard
  /-- elapsed tick of the grant -/
  since : Nat
  /-- too few second-look slices were free at the grant (R99) -/
  noSlice : Bool
  deriving DecidableEq, Repr

/-- What a lane is doing. -/
inductive LaneWork where
  | idle
  | plumb
  | frame (j : LaneJob)
  deriving DecidableEq, Repr

/-- One lane (R82, R83, R87, R104 to R106). -/
structure Lane where
  work : LaneWork := .idle
  withheld : Bool := false
  retired : Bool := false
  /-- the elapsed tick at which the lane fell due for its plumb check (R104) -/
  due : Option Nat := some 0
  /-- the elapsed tick of the end of the last check with a verdict (R104) -/
  lastVerdict : Nat := 0
  /-- a check is to be made at once, whatever INTERVAL is (R87, R106) -/
  repeatNow : Bool := false
  deriving DecidableEq, Repr

/-- A floor measurement in progress (R107). -/
structure GaugeRun where
  chan : Nat
  gain : Nat
  startT : Word64
  /-- elapsed tick at which the 10 ms end -/
  endAt : Nat
  deriving DecidableEq, Repr

/-- The limit gauge (R107 to R110, R116). -/
structure Gauge where
  /-- EN, THRESH and NFTHRESH -/
  ctl : Word := 0x00191E01
  floor : BitVec 16 := 0x8000
  chan : Nat := 0
  gain : Nat := 0
  excess : BitVec 16 := 0x8000
  isOver : Bool := false
  noquiet : Bool := false
  nfOver : Bool := false
  nf : BitVec 16 := 0xFFFF
  t : Word64 := 0
  run : Option GaugeRun := none
  last : Option Nat := none
  /-- elapsed tick of the next measurement -/
  dueAt : Nat := 60 * 200000000
  deriving DecidableEq, Repr

/-- The receive side of a port. -/
structure Rx where
  rxctl : Word := 0x03040004
  /-- PORT_RXFREQ -/
  rxfreq : Nat := 400000000
  sync : Word := 0
  gain : Nat := 31
  /-- gain changes of the last 2 s, newest first: elapsed tick, index before (R113) -/
  gainLog : List (Nat × Nat) := []
  frozen : Bool := false
  held : Bool := false
  clip : Bool := false
  target : Nat := 6
  changes : BitVec 8 := 0
  wcfgBad : Bool := false
  freqBad : Bool := false
  retired : Bool := false
  cnt : Vector Word 20 := Vector.replicate 20 0
  /-- PORT_PLUMB.INTERVAL -/
  interval : Nat := 10
  plumbFail : BitVec 48 := 0
  /-- the order of the next plumb frame (R105) -/
  plumbOrder : Nat := 6
  /-- the lane the plumb generator checks -/
  plumbLane : Option LaneId := none
  watchers : Vector Watcher 64 := Vector.replicate 64 {}
  lanes : Vector Lane 48 := Vector.replicate 48 {}
  /-- requests that have no lane yet -/
  reqs : List LaneReq := []
  /-- elapsed tick of the last candidate or lane work in each 125 kHz channel (R107) -/
  activity : List (Nat × Nat) := []
  gauge : Gauge := {}
  deriving DecidableEq, Repr

/-- One entry of the benchmark table (R118 to R121). -/
structure BmEntry where
  freq : Nat := 0
  valid : Bool := false
  pin : Bool := false
  temp : Int := 0
  /-- order of last use, for R119 -/
  used : Nat := 0
  deriving DecidableEq, Repr

/-- The two kinds of hop of R118. -/
inductive HopKind where
  | table
  | full
  deriving DecidableEq, Repr

/-- A hop in progress (R118, R468). -/
structure Hop where
  target : Nat
  kind : HopKind
  /-- the entry of a table hop, or the one that a FILL calibrates -/
  entry : Option (Fin 64)
  /-- a relock on wake: LASTHOP reads 3 afterwards (R468) -/
  wake : Bool
  /-- elapsed ticks of its start and of LOCK -/
  startAt : Nat
  endAt : Nat
  deriving DecidableEq, Repr

/-- The synthesizer of a port (R117 to R127, R142, R468). -/
structure Synth where
  /-- CALSEL and TEMPWIN -/
  ctl : Word := 0x00000F00
  lock : Bool := false
  hop : Option Hop := none
  lasthop : Nat := 0
  unlock : Bool := false
  noentry : Bool := false
  bmfull : Bool := false
  /-- the present F -/
  freq : Nat := 400000000
  epoch : BitVec 8 := 0
  epochT : Word64 := 0
  bm : Vector BmEntry 64 := Vector.replicate 64 {}
  useCtr : Nat := 0
  /-- the value last written while a hop was in progress (R123) -/
  queued : Option Nat := none
  /-- a retune is held until the transmission interval ends (R123) -/
  heldHop : Bool := false
  deriving DecidableEq, Repr

/-- A frame in the transmit buffer (R125): its stake's entry and its symbols. -/
structure Prepared where
  slot : SlotId
  mode : Mode
  pre : Nat
  syncSym : List Nat
  /-- values of the two downchirps (R45) -/
  fsync : List Nat
  header : List Nat
  payload : List Nat
  /-- phase rotation in 1/256 turn and power in 0.1 dBm (R140) -/
  phase : BitVec 8
  /-- none: PORT_TXPWR -/
  power : Option Int
  deriving DecidableEq, Repr

/-- The state of a port that the front-end lines follow (R131): driven low, receive, transmit, calibration, off. -/
inductive FemState where
  | low | rx | tx | cal | off
  deriving DecidableEq, Repr

/-- The transmitter and the front-end lines (R125 to R131, R142, R143). -/
structure Tx where
  ctl : Word := 0x00040800
  /-- PORT_TXPWR.PWR, 0.5 dBm steps -/
  pwr : BitVec 8 := 0
  femctl : Word := 0
  pwrBad : Bool := false
  cut : Bool := false
  cnt : Vector Word 5 := Vector.replicate 5 0
  txtime : Word64 := 0
  /-- levels of FEMCTLp_0 and FEMCTLp_1 -/
  femLevel : BitVec 2 := 0
  fem : FemState := .low
  /-- the T/R switch stands at transmit -/
  toTx : Bool := false
  /-- the transmitter is on, counted in TXTIME from this elapsed tick -/
  onSince : Option Nat := none
  buffer : List Prepared := []
  /-- elapsed tick at which ramp-down started -/
  rampDown : Option Nat := none
  /-- elapsed tick at which the transmission interval may end (R126, R127) -/
  endAt : Option Nat := none
  /-- the entry of the stake whose transmission interval runs -/
  interval : Option SlotId := none
  /-- RAMP of that stake in µs, and whether a return hop is due after it (R124, R126) -/
  rampUs : Nat := 8
  retHop : Bool := false
  mari : Bool := false
  deriving DecidableEq, Repr

/-- The aerial tuner (R132, R133, R143). -/
structure Tuner where
  /-- C1, L and C2 in effect -/
  tune : Word := 0
  frozen : Bool := false
  held : Bool := false
  mismatch : Bool := false
  /-- RLMIN and RLGOAL -/
  ctl : Word := 0x001E1300
  rl : Nat := 0
  best : Nat := 0
  valid : Bool := false
  /-- the state that RL was last measured in -/
  rlTune : Option Word := none
  /-- the state that gave BEST -/
  bestTune : Word := 0
  /-- the state to apply at the FEMCTL instant of the next transmission interval -/
  next : Option Word := none
  /-- the state in effect is a trial not yet measured -/
  trial : Bool := false
  /-- the present transmission has been measured -/
  measured : Bool := false
  /-- the next trial of the cycle of R132 -/
  cycle : Nat := 0
  deriving DecidableEq, Repr

/-- The steps of a calibration (R136). -/
inductive CalStep where
  | cold | hot | loop | tone | ending
  deriving DecidableEq, Repr

/-- Reciprocity calibration (R135 to R137, R143). -/
structure Cal where
  auto : Bool := true
  /-- the step in progress -/
  step : Option CalStep := none
  /-- elapsed tick at which the calibration began -/
  startAt : Nat := 0
  calvalid : Bool := false
  tnow : Int := 0
  tcal : Int := 0
  calph : BitVec 8 := 0
  calgain : BitVec 8 := 0
  calT : Word64 := 0
  /-- the F at which the results were measured (R137) -/
  freq : Nat := 0
  mari : Word := 0x00003C00
  /-- a calibration stake is wanted (R137) -/
  wanted : Bool := false
  /-- a stake ended CANCELLED: nothing is asked until the next clearing or RUNNOW (R137) -/
  blocked : Bool := false
  deriving DecidableEq, Repr

/-- The states of a stake (R199) but FREE. -/
inductive StakeState where
  | booked | ready | armed | active
  deriving DecidableEq, Repr

/-- Why the link engine booked a stake, and what its frame carries (R175 to R179). -/
structure LinkTx where
  ctx : Option CtxId
  /-- link frame type (R144) -/
  type : Nat
  /-- send an ACK of this uplink FCNT (R176) -/
  ackOf : Option (BitVec 24)
  /-- the TAG of the packet the frame carries, if one, and which packet of its chain that is -/
  packet : Option (BitVec 24)
  pid : Nat := 0
  /-- link payload of a packet that is no longer in a chain (BEACON, broadcast CMD, JOIN_ACC) -/
  payload : List Byte
  /-- the FCNTDN used, once the frame is built -/
  used : Option Word
  /-- the home port -/
  home : PortId
  /-- the region whose engine booked it -/
  region : RegionId
  /-- the link frame once it has been built; empty before -/
  frame : List Byte := []
  /-- its cipher operation gave no frame: nothing is sent (R212, R215) -/
  discarded : Bool := false
  /-- elapsed tick at which the lifetime of a BEACON or broadcast CMD ends (R177) -/
  expires : Option Nat := none
  deriving DecidableEq, Repr

/-- A booked stake (R195 to R199, R208). -/
structure Stake where
  /-- the 64-bit datum value of R185 -/
  release : Int
  action : Nat
  winsel : Bool
  entry : Fin 64
  w2 : Word
  param : Word
  tag : Word
  state : StakeState
  origin : Nat
  /-- settle, RAMP, FEMLEAD and return settle taken at booking, in µs (R126, R196) -/
  settle : Nat
  ramp : Nat
  femlead : Nat
  ret : Nat
  /-- frame length in ticks for TX, as booked, and that of the frame prepared (R46) -/
  air : Nat
  onAir : Nat
  /-- the F of the window for the lock check (R127) -/
  winF : Nat
  link : Option LinkTx
  /-- elapsed tick of the release, once ACTIVE -/
  firedAt : Nat
  /-- the lock check has passed (R127, R201); for an RXWIN on an entry, until it hops back -/
  checked : Bool := false
  /-- entries that a FILL stake has yet to calibrate (R120) -/
  fill : List (Fin 64) := []
  /-- phase rotation in 1/256 turn, and the power in 0.1 dBm, of a port of a group (R140) -/
  phase : BitVec 8
  power : Option Int
  /-- steps of the datum since the release (R191) -/
  shift : Int := 0
  deriving DecidableEq, Repr

/-- The slot book of a port (R195 to R208). -/
structure SlotBook where
  stakes : Vector (Option Stake) 256 := Vector.replicate 256 none
  new : Vector Word 5 := Vector.replicate 5 0
  cmdSlot : Nat := 0
  cmdOp : Nat := 0
  earliest : Bool := false
  result : Nat := 0
  ctl : Word := 0x03E80004
  txLate : Bool := false
  late : Bool := false
  cnt : Vector Word 6 := Vector.replicate 6 0
  /-- what stays reserved of intervals whose stake failed its lock check (R127), in datum values -/
  reserved : List (Int × Int) := []
  deriving DecidableEq, Repr

/-- One port block. -/
structure Port where
  rx : Rx := {}
  syn : Synth := {}
  tx : Tx := {}
  tun : Tuner := {}
  cal : Cal := {}
  sb : SlotBook := {}
  deriving DecidableEq, Repr

end Sys2Proof.Machine
end

