-- ==== Sys2Proof/Machine/RegionState.lean ====
section
/-! DEFINITION. The state of one region beside its ports: link engine (R144 to R181), cipher block (R211 to R217,
R240), queues (R349 to R360), DMA block (R361 to R371), second-look units and slices (R97 to R103) and region fault
unit (R421, R439). Every default is the value after reset. -/

namespace Sys2Proof.Machine

/-- A decoded air frame on its way to the link engine: what the receive words of R113 hold, and its L bytes. -/
structure AirFrame where
  port : PortId
  /-- global lane number, or global second-look unit number -/
  unit : Nat
  sl : Bool
  mode : Mode
  rate : Nat
  robust : Bool
  crcp : Bool
  crcOk : Bool
  sync : Byte
  npre : Nat
  syncT : Word64
  endT : Word64
  rssi : Int
  snr : Int
  foff : Int
  rxgain : Nat
  travmask : BitVec 6
  gains : BitVec 24
  phases : BitVec 48
  bytes : List Byte
  deriving DecidableEq, Repr

/-- A miss frame in a hold slot (R172, R173). -/
structure Held where
  frame : AirFrame
  /-- elapsed tick at which the hold ends -/
  until_ : Nat
  deriving DecidableEq, Repr

/-- A frame that waits in the link engine (R165); a held one that an INSTALL released resumes at step 4 for its context, with
the datum at which the INSTALL completed (R173). -/
structure UpWork where
  frame : AirFrame
  resumed : Option (CtxId × Int) := none
  deriving DecidableEq, Repr

/-- A packet of a downlink chain (R177, R178). -/
structure DnPacket where
  /-- which of the packets accepted since the start it is -/
  id : Nat
  kind : Nat
  ackreq : Bool
  tag : BitVec 24
  payload : List Byte
  /-- elapsed tick at which its lifetime ends -/
  expires : Option Nat
  /-- times it went on air with ACKREQ -/
  sent : Nat
  /-- FCNTDN of the last sending -/
  fcnt : Option Word
  deriving DecidableEq, Repr

/-- The downlink chain of a context (R178). -/
structure Chain where
  ctx : CtxId
  /-- the region whose queue memory holds it -/
  region : RegionId
  packets : List DnPacket
  /-- elapsed tick at which a move in progress ends -/
  moveEnd : Option Nat
  deriving DecidableEq, Repr

/-- An entry of the install table (R160): long or short form, address, context. -/
structure HashEntry where
  short : Bool
  addr : Word
  ctx : CtxId
  deriving DecidableEq, Repr

/-- A context-operation channel: LINK_CTXOP of a region, or 0x5101 of the dictionary (R161, R311). -/
structure CtxOp where
  index : Nat := 0
  op : Nat := 0
  short : Bool := false
  status : Nat := 0
  key : Word := 0
  deriving DecidableEq, Repr

/-- The link-engine registers and work of a region (R180, R181). -/
structure Link where
  cfg : Word := 0x430E0803
  qsel : Word := 0x00030201
  missctl : Word := 0x07D01004
  missrxd : Word := 1000000
  op : CtxOp := {}
  longest : Nat := 0
  cnt : Vector Word 21 := Vector.replicate 21 0
  hold : Vector (Option Held) 16 := Vector.replicate 16 none
  /-- frames that lanes and second-look units passed, oldest first; released ones before them -/
  work : List UpWork := []
  deriving DecidableEq, Repr

/-- The link counters of R181, in the order of their addresses. -/
inductive LinkCnt where
  | malformed | relaydeep | miss | missnohold | missexpired | misslate | state | dup | gap | cipherlen
  | authfail | nocrcfail | accepted | ackreq | dnsent | dnacked | dnexpired | dnnoack | dnfull | keyerr | ciphfault
  deriving DecidableEq, Repr

/-- The word of the counter block at 0x8040 that a link counter is. -/
def LinkCnt.ix : LinkCnt → Fin 21
  | .malformed => 0 | .relaydeep => 1 | .miss => 2 | .missnohold => 3 | .missexpired => 4 | .misslate => 5
  | .state => 6 | .dup => 7 | .gap => 8 | .cipherlen => 9 | .authfail => 10 | .nocrcfail => 11
  | .accepted => 12 | .ackreq => 13 | .dnsent => 14 | .dnacked => 15 | .dnexpired => 16 | .dnnoack => 17
  | .dnfull => 18 | .keyerr => 19 | .ciphfault => 20

/-- The registers of a cipher channel as an operation takes them at GO (R216). -/
structure CiphRegs where
  src : Word := 0
  dst : Word := 0
  len : Word := 0
  key : Word := 0
  nonce : Vector Word 4 := Vector.replicate 4 0
  op : Nat := 0
  deriving DecidableEq, Repr

/-- A key slot (R217, R219): 16 or 32 key bytes, role, export. -/
structure KeySlot where
  slot : Nat
  key : List Byte
  role : Nat
  export_ : Bool
  deriving DecidableEq, Repr

/-- What a granted operation holds until its end (R215): its key, or why it has none; its pair of pipes. -/
structure CiphRun where
  regs : CiphRegs
  /-- key bytes read at the grant -/
  key : Option (List Byte)
  /-- the refusal found at the grant (NOKEY or ROLE) as a STATUS code -/
  bad : Option Nat
  /-- the slot that KEYSAVE wraps, read at the grant -/
  saved : Option KeySlot
  pair : Nat × Nat
  /-- elapsed tick of the grant -/
  since : Nat
  deriving DecidableEq, Repr

/-- Where a channel's operation stands. -/
inductive CiphStage where
  | none
  | waiting (r : CiphRegs)
  | running (r : CiphRun)
  | committing (slot : Nat)
  deriving DecidableEq, Repr

/-- One request channel, CIPH0 or CIPH1 (R216, R240). -/
structure CiphChan where
  regs : CiphRegs := {}
  status : Nat := 0
  /-- the channel left PENDING and the interrupt is not yet cleared by a new GO (R321) -/
  ended : Bool := false
  stage : CiphStage := .none
  deriving DecidableEq, Repr

/-- The cipher block (R211 to R216). -/
structure Cipher where
  fenced : Vector Bool 4 := Vector.replicate 4 false
  mismatch : BitVec 8 := 0
  faults : BitVec 8 := 0
  /-- position in the rotation (0,1), (2,3), (0,2), (1,3), (0,3), (1,2) -/
  rot : Fin 6 := 0
  chans : Vector CiphChan 2 := Vector.replicate 2 {}
  /-- the channel that firmware's turn passes to (R214) -/
  turn : Fin 2 := 0
  /-- grants to link-engine work since the last firmware grant while both waited (R214) -/
  share : Nat := 0
  deriving DecidableEq, Repr

/-- A word of queue memory: its data and its end mark. -/
structure QWord where
  data : Word64
  eop : Bool
  /-- bit errors: true: two bits (R358) -/
  err : Option Bool := none
  deriving DecidableEq, Repr

/-- One queue (R349 to R360). The words waiting are kept oldest first; the pointers count words. -/
structure Queue where
  base : Nat := 0
  depth : Nat := 11
  en : Bool := true
  pktie : Bool := false
  lowie : Bool := false
  lowmark : Nat := 0
  words : List QWord := []
  wptr : Nat := 0
  rptr : Nat := 0
  pktcnt : Nat := 0
  flushed : Bool := false
  discard : Bool := false
  ecc2 : Bool := false
  cfgbad : Bool := false
  /-- the last word pushed carried the end mark, or none was pushed -/
  lastEop : Bool := true
  deriving DecidableEq, Repr

/-- A descriptor (R361, R363). -/
structure Desc where
  src : Word := 0
  dst : Word := 0
  cnt : Nat := 0
  wb : Word := 0
  cfg : Word := 0
  deriving DecidableEq, Repr

/-- An element in the DMA buffer: its bytes as read, its source end mark, whether it came from a queue. -/
structure Elem where
  data : Word64
  eop : Bool
  deriving DecidableEq, Repr

/-- How a read side ended (R368). -/
inductive ReadEnd where
  | open_
  | count
  | eop
  | err (a : Word)
  deriving DecidableEq, Repr

/-- One DMA channel (R361 to R371). -/
structure DmaChan where
  shadow : Desc := {}
  commit : Bool := false
  active : Option Desc := none
  /-- last active descriptor as the RO registers show it -/
  shown : Desc := {}
  cnt : Nat := 0
  /-- elements whose read has been issued -/
  taken : Nat := 0
  written : Nat := 0
  buf : List Elem := []
  readEnd : ReadEnd := .open_
  aborting : Bool := false
  residue : Nat := 0
  done : Bool := false
  err : Bool := false
  errLast : Bool := false
  aborted : Bool := false
  eopstop : Bool := false
  baddesc : Bool := false
  late : Bool := false
  /-- IE bit of the descriptor that ended (R370) -/
  ie : Bool := false
  /-- elements left of a read burst and of a write burst that are in progress, because an access of theirs is held -/
  rdLeft : Nat := 0
  wrLeft : Nat := 0
  /-- the write of the first element of the buffer has been issued and is held (R365) -/
  issued : Bool := false
  /-- the queue that its held push is for has been disabled since (R354) -/
  pushFail : Bool := false
  /-- elapsed tick of the last hand-over (R362) -/
  handT : Option Nat := none
  crc : Word := 0
  errAddr : Word := 0
  deriving DecidableEq, Repr

/-- The DMA block of a region: 8 channels and the round-robin positions of its two engines. -/
structure Dma where
  chans : Vector DmaChan 8 := Vector.replicate 8 {}
  rdTurn : Nat := 0
  wrTurn : Nat := 0
  deriving DecidableEq, Repr

/-- A slice allocation of the second-look memory (R97, R99). -/
structure Slice where
  port : PortId
  chan : Nat
  bw : Nat
  /-- elapsed tick at which recording began -/
  since : Nat
  deriving DecidableEq, Repr

/-- A frame as second look sees it (R100): S if decoded right, W if its header or CRC failed. -/
structure SlFrame where
  port : PortId
  mode : Mode
  /-- elapsed ticks of frame start, sync instant, header start and end -/
  start : Nat
  sync : Nat
  hdr : Nat
  stop : Nat
  good : Bool
  /-- elapsed tick at which the second transform peak that its lane saw began (R100) -/
  peak : Option Nat
  syncVal : Byte
  rxgain : Nat
  /-- it is neither S nor W: counted DROP_NOLANE, abandoned, or sent with CRCP = 0 (R100) -/
  neutral : Bool
  /-- too few slices were free at its grant (R99) -/
  noSlice : Bool
  deriving DecidableEq, Repr

/-- A detection that a watcher made while a lane worked on its channel (R100), with the elapsed tick. -/
structure SlReport where
  port : PortId
  chan : Nat
  bw : Nat
  at_ : Nat
  deriving DecidableEq, Repr

/-- A second-look request (R101): a strong frame's channel, and what is known of the weak one. -/
structure SlReq where
  port : PortId
  mode : Mode
  /-- the F that the port received on (R91) -/
  freq : Nat
  /-- elapsed tick of W's frame start, for the order of service -/
  wStart : Nat
  /-- elapsed tick of the earliest sample that W needs -/
  need : Nat
  /-- sync value and gain index of a W that was detected -/
  seen : Option (Byte × Nat)
  /-- the port's gain changes as they stood at the request (R113) -/
  gains : List (Nat × Nat)
  deriving DecidableEq, Repr

/-- A second-look unit. -/
structure SlUnit where
  fenced : Bool := false
  job : Option SlReq := none
  deriving DecidableEq, Repr

/-- Second look in a region. -/
structure Second where
  units : Vector SlUnit 4 := Vector.replicate 4 {}
  slices : List Slice := []
  reqs : List SlReq := []
  /-- ended frames that may still pair -/
  hist : List SlFrame := []
  reports : List SlReport := []
  deriving DecidableEq, Repr

/-- What a failure can be charged to (R420): a resource of R25, or a memory, which never becomes permanent. -/
inductive Charged where
  | unit (t : FaultTarget)
  | chipSram
  | regionSram (r : RegionId)
  | ctxMem
  | flash
  deriving DecidableEq, Repr

/-- The recent failures of one child (R421): elapsed ticks, newest first. -/
structure Track where
  child : Charged
  times : List Nat
  deriving DecidableEq, Repr

/-- The region fault unit (R439). -/
structure RegFault where
  tflag : Word := 0
  pflag : Word := 0
  cntTrans : Word := 0
  missdrop : Word := 0
  statdrop : Word := 0
  track : List Track := []
  deriving DecidableEq, Repr

/-- Power domains, voltage and pace of a region (R409 to R413, R419). -/
structure RegPower where
  domsleep : BitVec 10 := 0
  domerr : BitVec 10 := 0
  /-- domains that are waking -/
  waking : List Nat := []
  vset : Nat := 30
  /-- VCORE when its present move began, and the elapsed tick of that -/
  vnow : Nat := 30
  vStart : Nat := 0
  pace : Nat := 7
  paceNow : Nat := 7
  vceil : Nat := 30
  boost : Nat := 0
  deriving DecidableEq, Repr

/-- One region. -/
structure Region where
  retired : Bool := false
  link : Link := {}
  cipher : Cipher := {}
  queues : Vector Queue 32 := Vector.ofFn fun i => { base := 2048 * i.val }
  banks : BitVec 8 := 0
  dma : Dma := {}
  second : Second := {}
  flt : RegFault := {}
  pwr : RegPower := {}
  deriving DecidableEq, Repr

end Sys2Proof.Machine
end

