-- ==== Sys2Proof/Machine/ChipState.lean ====
section
/-! DEFINITION. The state of the chip level: datum (R182 to R194, R207), security page (R209 to R239), trunk links
(R241 to R264), dictionary, CAN FD and config memory (R265 to R298), cores (R317 to R336), flash (R337 to R348),
mailboxes (R372 to R375), events, GPIO and timers (R376 to R395), RTC and power (R396 to R419), chip fault unit
(R420 to R438) and update (R440 to R449). Every default is the value after reset. -/

namespace Sys2Proof.Machine

/-- The PPS capture (R187, R188, R193). -/
structure Pps where
  ctl : Word := 0x003C0A01
  dly : BitVec 16 := 0
  t : Word64 := 0
  err : Int := 0
  /-- elapsed tick of the last accepted edge since EN was set or PPS was lost -/
  lastEdge : Option Nat := none
  /-- elapsed tick of the last write that set EN; none before one, and while a loss goes on -/
  since : Option Nat := none
  /-- consecutive accepted edges inside and outside LOCKWIN -/
  good : Nat := 0
  bad : Nat := 0
  /-- elapsed tick at which the present loss began -/
  lostAt : Option Nat := none
  /-- the present loss has lasted HOLDOVER seconds (R193) -/
  lostLong : Bool := false
  deriving DecidableEq, Repr

/-- The datum and its registers (R182 to R193, R207). -/
structure Datum where
  now : Word64 := 0
  unsynced : Bool := true
  ppslock : Bool := false
  ppsLost : Bool := false
  refLost : Bool := false
  holdover : Bool := false
  /-- a wake has re-seeded the datum, and REFIN has not measured valid since: it runs on the holdover oscillator (R414) -/
  seeded : Bool := false
  /-- what is left over, in 10^-9 of a tick, when its ticks are told in ticks of exactly 5 ns (R186) -/
  rem : Nat := 0
  trimBad : Bool := false
  ppsGlitch : Bool := false
  reff : Nat := 0
  steps : BitVec 8 := 0
  trim : Int := 0
  step : Word64 := 0
  /-- a step waiting (STEPPEND) with the value taken at STEPGO -/
  pend : Option Word64 := none
  stepAtPps : Bool := false
  stepT : Word64 := 0
  pps : Pps := {}
  deriving DecidableEq, Repr

/-- Who waits for a commit of the key store. -/
inductive Committer where
  | keyPage
  | cipher (r : RegionId) (n : Fin 2)
  deriving DecidableEq, Repr

/-- A slot write on its way into both copies of the key log (R219): a slot's new content, or erase-all. -/
inductive KeyWrite where
  | put (k : KeySlot)
  | erase (slot : Nat)
  | eraseAll
  deriving DecidableEq, Repr

/-- The key store and its registers (R219 to R221, R239).
(Log entry 6 DESIGN CHOICE.) -/
structure Keys where
  load : Vector Word 8 := Vector.replicate 8 0
  ctl : Word := 0
  status : Nat := 0
  query : Nat := 0
  slots : List KeySlot := []
  lost : List Nat := []
  writes : Word := 0
  commits : List (Committer × KeyWrite) := []
  deriving DecidableEq, Repr

/-- OTP (R222, R223): customer key bytes as programmed, with whether their CRC holds.
(Log entry 6 DESIGN CHOICE.) -/
structure Otp where
  /-- the CRC of ROOT holds -/
  rootGood : Bool := true
  cust : Vector (Option (List Byte × Bool)) 2 := Vector.replicate 2 none
  rev : Vector Bool 2 := Vector.replicate 2 false
  provisioned : Bool := false
  rootok : Bool := true
  op : Nat := 0
  sel : Nat := 0
  status : Nat := 0
  src : Word := 0
  /-- the running operation: OP and the field it names, as they stood at GO -/
  run : Option (Nat × Fin 2) := none
  /-- the key taken for a running PROGKEY; none while its read is held (R343) -/
  taken : Option (List Byte) := none
  deriving DecidableEq, Repr

/-- Where an attestation request came from (R227, R313). -/
inductive AttFrom where
  | regs (src dst : Word)
  | dict (c : Carrier)
  deriving DecidableEq, Repr

/-- An attestation in progress: its source, its challenge, its index (R227 to R229). -/
structure AttRun where
  from_ : AttFrom
  challenge : List Byte
  q : Nat
  deriving DecidableEq, Repr

/-- The attestation block (R226 to R230, R313).
(Log entry 11 UNVERIFIED.) -/
structure Att where
  status : Nat := 0
  src : Word := 0
  dst : Word := 0
  /-- C, the indices consumed -/
  c : Nat := 0
  lost : Bool := false
  /-- elapsed count (48 bits, RTC) of the last commit, or of RUN -/
  last : Nat := 0
  run : Option AttRun := none
  dictStatus : Nat := 0
  dictReport : Option (List Byte) := none
  deriving DecidableEq, Repr

/-- A hash or verify operation as GO takes it (R225). -/
structure HashJob where
  op : Nat
  keysel : Nat
  src : Word
  len : Nat
  sig : Word
  pub : Word
  deriving DecidableEq, Repr

/-- Who uses the SHA-256 and LMS engine (R225): the HASH registers, the attestation block, the debug-token check. -/
inductive EngUser where
  | hash
  | att
  | token
  deriving DecidableEq, Repr

/-- A debug token on its way to the engine: as JTAG shifted it in, or in memory. -/
inductive Token where
  | bytes (l : List Byte)
  | at_ (a : Word)
  deriving DecidableEq, Repr

/-- The engine: who has it, whom it served last (R225), the tokens that wait, oldest first. -/
structure Engine where
  user : Option EngUser := none
  last : EngUser := .token
  tokens : List Token := []
  deriving DecidableEq, Repr

/-- The keys derived from DUS at a start, in registers that no bus reaches (R209, R210); empty before step 4. -/
structure Derived where
  kseal : List Byte := []
  kcfg : List Byte := []
  attSeed : List Byte := []
  deriving DecidableEq, Repr

/-- The SHA-256 and LMS engine's HASH registers (R225, R239). -/
structure Hash where
  src : Word := 0
  len : Word := 0
  op : Nat := 0
  keysel : Nat := 0
  status : Nat := 0
  sig : Word := 0
  pub : Word := 0
  digest : Vector Word 8 := Vector.replicate 8 0
  ended : Bool := false
  /-- the operation that is PENDING -/
  job : Option HashJob := none
  /-- its outcome once the engine has read its operands, given out by its end: status and digest -/
  result : Option (Nat × List Byte) := none
  deriving DecidableEq, Repr

/-- Debug lock (R234 to R236). -/
structure Dbg where
  /-- which fresh value the challenge is -/
  chal : Nat := 0
  src : Word := 0
  status : Nat := 0
  locked : Bool := false
  scope : Nat := 0
  /-- debug unlocked since start (R227) -/
  unlocked : Bool := false
  /-- what the last JTAG instruction shifted out -/
  jtagOut : List Byte := []
  /-- the boundary register, as PRELOAD or EXTEST loaded it -/
  boundary : List Bool := []
  /-- EXTEST is the current instruction: the boundary register drives the balls -/
  extest : Bool := false
  testen : Bool := false
  deriving DecidableEq, Repr

/-- SEC attention (R237 to R239). -/
structure Sec where
  stat : BitVec 7 := 0
  authctl : Word := 0x000A0040
  cnt : Nat := 0
  /-- second of the datum at which the present window began -/
  winStart : Nat := 0
  /-- AUTH was set in the present window -/
  hit : Bool := false
  deriving DecidableEq, Repr

/-- A trunk request, decoded from its header (R245, R253). -/
structure TrunkReq where
  tag : Fin 32
  opc : Nat
  flags : Nat
  addr : Word
  len : Nat
  param : Nat
  data : List Byte
  /-- ingress units it holds, and reply units reserved for it -/
  units : Nat
  resv : Nat
  /-- its place in the order of admission over both links, and the elapsed tick of its admission -/
  seq : Nat := 0
  at_ : Nat := 0
  /-- the STATUS it gets in place of being executed: BADLEN or STALE (R248, R252) -/
  answer : Option Nat := none
  deriving DecidableEq, Repr

/-- State of a tag (R252). -/
inductive TagState where
  | idle
  | active
  | retained
  | expired
  deriving DecidableEq, Repr

/-- A tag: its state, the reply kept (opcode, status, AUX, data), its reservation, the end of its retention. -/
structure Tag where
  st : TagState := .idle
  opc : Nat := 0
  status : Nat := 0
  aux : Nat := 0
  data : List Byte := []
  resv : Nat := 0
  /-- elapsed tick of EXPIRED -/
  expires : Nat := 0
  deriving DecidableEq, Repr

/-- A parked request (R251, R255, R256) and its elapsed deadline. -/
structure Parked where
  req : TrunkReq
  until_ : Nat
  deriving DecidableEq, Repr

/-- A trunk link (R241 to R264). -/
structure Trunk where
  state : Nat := 0
  linkdown : Bool := false
  freein : Nat := 128
  cnt : Vector Word 9 := Vector.replicate 9 0
  /-- received, not yet admitted -/
  waiting : List TrunkReq := []
  /-- admitted, not yet executed -/
  admitted : List TrunkReq := []
  parked : List Parked := []
  /-- a MEMRD or MEMWR held in the middle: the request, accesses done, bytes read (R16, R254) -/
  run : Option (TrunkReq × Nat × List Byte) := none
  /-- the queue that its held push is for has been disabled since (R354) -/
  pushFail : Bool := false
  tags : Vector Tag 32 := Vector.replicate 32 {}
  /-- frames and ordered sets sent since the start, newest first -/
  sent : List (List Byte) := []
  deriving DecidableEq, Repr

/-- The trunk counters of R264. -/
inductive TrkCnt where
  | req | rep | crcerr | codeerr | overrun | malformed | resend | stale | linkdown
  deriving DecidableEq, Repr

/-- The word of a link's counter block that a trunk counter is. -/
def TrkCnt.ix : TrkCnt → Fin 9
  | .req => 0 | .rep => 1 | .crcerr => 2 | .codeerr => 3 | .overrun => 4 | .malformed => 5 | .resend => 6
  | .stale => 7 | .linkdown => 8

/-- The chip-wide trunk registers (R260 to R263). -/
structure TrunkRegs where
  ctl : Word := 0x000A0A03
  acl : Word := 0x0000FFFF
  cause : Word := 0x00001000
  rxq : Vector Word 4 := Vector.replicate 4 0
  txq : Vector Word 4 := Vector.replicate 4 0
  seq : Bool := false
  /-- bits 0 to 13 as they stood when SEQ was last judged -/
  lastAttn : BitVec 14 := 0x2020
  /-- order of admissions -/
  admits : Nat := 0
  deriving DecidableEq, Repr

/-- An open TDP transfer (R272 to R274). -/
structure Xfer where
  write : Bool
  index : BitVec 16
  sub : Byte
  total : Option Nat
  /-- bytes of a captured read, or of a write so far -/
  data : List Byte
  /-- SEQ of the last segment answered -/
  last : Option Byte
  /-- the last response, for a repeat -/
  lastResp : List Byte
  /-- bytes delivered so far -/
  pos : Nat
  /-- elapsed tick of the last message -/
  at_ : Nat
  /-- window taken when a CTXDATA transfer opened -/
  ctxSel : Nat
  deriving DecidableEq, Repr

/-- What one TDP carrier holds (R272, R278). -/
structure TdpCarrier where
  xfer : Option Xfer := none
  /-- the index and subindex of the transfer the 1 s limit closed last -/
  timedOut : Option (BitVec 16 × Byte) := none
  /-- a forwarded request: serial, index, subindex, elapsed tick of its timeout -/
  fw : Option (BitVec 16 × BitVec 16 × Byte × Nat) := none
  /-- a forwarded transfer is open for this index -/
  fwXfer : Option (BitVec 16 × Byte) := none
  /-- a message whose object lies in a domain that is not ready: it is held (R16, R410) -/
  wait : Option (List Byte × Bool) := none
  /-- last response message -/
  resp : List Byte := []
  /-- the ATTN word sampled with it -/
  attn : BitVec 16 := 0
  deriving DecidableEq, Repr

/-- A request frame in the CAN receive buffer (R283). -/
structure CanReq where
  data : List Byte
  fd : Bool
  brs : Bool
  /-- the errors that the sending of its answer is still to meet, up to each event of it (R284) -/
  tries : List (List CanErr) := []
  deriving DecidableEq, Repr

/-- A frame on the bus (R281, R282). -/
structure CanFrame where
  ident : Nat
  data : List Byte
  fd : Bool
  brs : Bool
  deriving DecidableEq, Repr

/-- The CAN FD controller (R280 to R287, R296, R297). -/
structure Can where
  mode : Nat := 0
  nonode : Bool := false
  node : Nat := 0
  arb : Nat := 0
  data : Nat := 0
  tec : Nat := 0
  rec_ : Nat := 0
  cnt : Vector Word 5 := Vector.replicate 5 0
  buf : List CanReq := []
  /-- the request being answered -/
  cur : Option CanReq := none
  /-- the response frame waiting for the bus -/
  out : Option CanFrame := none
  /-- the last frame sent -/
  sent : Option CanFrame := none
  /-- straps ADDR[3:0] sampled at start -/
  straps : Nat := 0
  deriving DecidableEq, Repr

/-- The TDP dispatcher (R272 to R279, R296, R297) with the dictionary's own registers (R309 to R314). -/
structure Tdp where
  fwctl : Word := 0x32070600
  cnt : Vector Word 4 := Vector.replicate 4 0
  serial : BitVec 16 := 0
  car : Vector TdpCarrier 3 := Vector.replicate 3 {}
  ctxSel : Nat := 0
  ctxCount : Nat := 1
  op : CtxOp := {}
  /-- values of RWP objects that differ from their defaults -/
  rwp : List (BitVec 16 × Byte × List Byte) := []
  deriving DecidableEq, Repr

/-- A record waiting for config memory (R292, R429). -/
structure CfgRec where
  index : BitVec 16
  sub : Byte
  value : List Byte
  deriving DecidableEq, Repr

/-- Config memory and its port (R288 to R298).
(Log entry 16 DESIGN CHOICE.) -/
structure Cfg where
  flags : BitVec 5 := 0
  sfdp : Bool := false
  area : Nat := 0
  applied : Nat := 0
  skipped : Nat := 0
  gen : Word := 0
  dev : BitVec 8 := 0
  queue : List CfgRec := []
  /-- size in use in bytes; 0: missing (log entry 16) -/
  size : Nat := 0
  /-- contents of the device: addresses strictly rising, erased bytes (0xFF) left out -/
  mem : List (Nat × Byte) := []
  /-- the next persist compacts first (R293) -/
  mustCompact : Bool := false
  /-- CFG_FOREIGN since the start (R227) -/
  foreignSeen : Bool := false
  deriving DecidableEq, Repr

/-- The machine-mode CSRs of a core (R317 to R327). -/
structure Csrs where
  mstatus : Word := 0
  mtvec : Word := 0x100
  mepc : Word := 0
  mcause : Word := 0
  mtval : Word := 0
  mscratch : Word := 0
  mie : Word := 0
  mcounteren : Word := 0
  mcountinhibit : Word := 0
  mcycle : Word64 := 0
  minstret : Word64 := 0
  pmpcfg : Vector Byte 16 := Vector.replicate 16 0
  pmpaddr : Vector Word 16 := Vector.replicate 16 0
  mtimecmp : Word := 0xFFFFFFFF
  mtimecmph : Word := 0xFFFFFFFF
  /-- MTIMECMPH as last written, held until MTIMECMP is written -/
  heldCmph : Word := 0xFFFFFFFF
  mirqen : Vector Word 8 := Vector.replicate 8 0
  /-- latches of event sources 0 to 63 -/
  latch : BitVec 64 := 0
  deriving DecidableEq, Repr

/-- One core (R317 to R336). -/
structure Core where
  retired : Bool := false
  /-- out of reset -/
  running : Bool := false
  pc : Word := 0
  regs : Vector Word 32 := Vector.replicate 32 0
  /-- machine mode -/
  mach : Bool := true
  csr : Csrs := {}
  /-- the prefetch buffer (R325): its first address and what memory held when it was filled, 64 bytes at most -/
  pf : Option (Nat × List Byte) := none
  /-- address of the reserved word -/
  resv : Option Word := none
  wfi : Bool := false
  /-- stalled on a held access (R323) -/
  held : Bool := false
  /-- RUN was written 0 while an access is outstanding (R336) -/
  stopping : Bool := false
  /-- halted by the debug module (R234) -/
  halted : Bool := false
  entry : Word := 0
  wake : Word := 0
  msip : Bool := false
  /-- released, so that a wake from HOLD restarts it (R335) -/
  released : Bool := false
  deriving DecidableEq, Repr

/-- The journal counts of a flash block (R346). -/
structure BlkCnt where
  blk : Nat
  es : Nat
  ec : Nat
  deriving DecidableEq, Repr

/-- What the flash controller does now (R339 to R344). -/
inductive FlashOp where
  | idle
  | program (a : Nat)
  /-- the block, the pulses completed, the elapsed tick at which the present pulse started -/
  | erase (blk : Nat) (pulses : Nat) (since : Nat)
  | suspended (blk : Nat) (pulses : Nat)
  deriving DecidableEq, Repr

/-- The flash die and its controller (R337 to R348).
(Log entry 5 DESIGN CHOICE.) -/
structure Flash where
  /-- bytes of programmed words: addresses strictly rising, 0xFF left out -/
  mem : List (Nat × Byte) := []
  /-- code words programmed since their block's erase, by address, rising -/
  prog : List Nat := []
  blocks : List BlkCnt := []
  half : List Nat := []
  /-- bit errors in programmed code words, by the word's address; true: two bits (R338) -/
  errs : List (Nat × Bool) := []
  op : FlashOp := .idle
  cmdOp : Nat := 0
  status : Nat := 0
  src : Bool := false
  addr : Word := 0
  data : Vector Word 4 := Vector.replicate 4 0
  flags : BitVec 6 := 0
  errAddr : Word := 0
  suspends : Nat := 0
  lastBlk : Nat := 0
  ecc1cnt : Word := 0
  wp : Vector Word 4 := Vector.replicate 4 0
  deriving DecidableEq, Repr

/-- A mailbox (R372 to R375). OWNER and SENDER are initiator numbers. -/
structure Mbx where
  owner : Option (Fin 10) := none
  msg : Word := 0
  full : Bool := false
  taken : Bool := false
  postfail : Bool := false
  lockerr : Bool := false
  sender : Nat := 15
  rxcore : Nat := 0
  deriving DecidableEq, Repr

/-- An event channel (R377 to R379, R394). -/
structure EvtChan where
  src : Word := 0
  taska : Word := 0
  taskb : Word := 0
  cfg : Word := 0
  loop : Bool := false
  merged : BitVec 8 := 0
  fwd : BitVec 16 := 0
  t : Word64 := 0
  deriving DecidableEq, Repr

/-- A LUT cell and its filter (R380, R381, R394). -/
structure Lut where
  cfg : Word := 0
  inp : Word := 0
  q : Bool := false
  drops : BitVec 16 := 0
  /-- the held event: channel, hop count, elapsed tick of the window's end -/
  heldEvt : Option (Fin 64 × Nat × Nat) := none
  deriving DecidableEq, Repr

/-- A general timer (R386 to R389, R395). -/
structure Timer where
  cnt : Word := 0
  load : Word := 0xFFFFFFFF
  oneshot : Bool := false
  chain : Bool := false
  pre : Nat := 0
  out : Bool := false
  run : Bool := false
  zero : Bool := false
  captNew : Bool := false
  captOvr : Bool := false
  late : Bool := false
  capt : Word := 0
  /-- PRE and CHAIN latched at the start -/
  preRun : Nat := 0
  chainRun : Bool := false
  /-- elapsed tick of the next prescaled tick -/
  nextAt : Nat := 0
  /-- a zero step forced for the next tick: hop count of its trigger and elapsed tick -/
  forced : Option (Nat × Nat) := none
  /-- starts (true) and stops that take effect on an elapsed tick, in order (R382, R387) -/
  sched : List (Bool × Nat) := []
  /-- elapsed tick of the last reload (R392) -/
  reloadT : Option Nat := none
  deriving DecidableEq, Repr

/-- A task input's flags (R383), the tick until which it is busy. -/
structure TaskIn where
  ovr : Bool := false
  merged : BitVec 8 := 0
  busyUntil : Nat := 0
  deriving DecidableEq, Repr

/-- Event routing, GPIO and timers.
(Log entry 15 DESIGN CHOICE.) -/
structure Events where
  ch : Vector EvtChan 64 := Vector.replicate 64 {}
  lut : Vector Lut 16 := Vector.replicate 16 {}
  task : Vector TaskIn 128 := Vector.replicate 128 {}
  tmr : Vector Timer 16 := Vector.replicate 16 {}
  /-- levels at the balls as driven from outside -/
  gpioExt : BitVec 16 := 0
  gpioOut : BitVec 16 := 0
  gpioOe : BitVec 16 := 0
  gpioWake : BitVec 16 := 0
  deriving DecidableEq, Repr

/-- A set of RTC shadows (R400). -/
structure RtcShadow where
  sec : Word
  time : Word
  date : Word
  deriving DecidableEq, Repr

/-- The RTC of the backup domain (R396 to R403, R418). -/
structure Rtc where
  /-- the 48-bit elapsed count -/
  count : Nat := 0
  /-- remainder, in 1/390625 of 128 ticks, of the count's advance against the datum clock -/
  acc : Nat := 0
  time : Word := 0
  date : Word := 0
  /-- fraction count at which the calendar's next second begins, modulo 65 536 -/
  phase : Nat := 0
  halt : Bool := false
  mode : Bool := false
  alarmen : Bool := false
  timeLost : Bool := true
  setIgnored : Bool := false
  setBad : Bool := false
  alarmf : Bool := false
  firstswv : Bool := false
  syncbusy : Bool := false
  /-- the RTC_CTL write that is crossing -/
  crossing : Option Word := none
  swcount : Nat := 0
  firstsw : Word := 0
  alarm : Word := 0
  /-- ALARMEN = 1 and RTC_SEC has yet to become equal to RTC_ALARM (R402) -/
  armed : Bool := false
  /-- the selector stands at VBAT -/
  onVbat : Bool := false
  powered : Bool := true
  shadows : Vector (Option RtcShadow) 15 := Vector.replicate 15 none
  /-- SWCOUNT at the previous start (R403) -/
  swPrev : Nat := 0
  /-- D_entry, E_entry of the last sleep, REM (R414) -/
  entry : Option (Nat × Nat) := none
  rem : Nat := 0
  deriving DecidableEq, Repr

/-- The power state the module is in (R406), beside its device state. -/
inductive PwrNow where
  | off | reset | on | nap | hold | standby
  deriving DecidableEq, Repr

/-- The device's phase (R12): starting with the next step of R416, up, dead with its cause (R332).
(Log entry 14 DESIGN CHOICE.) -/
inductive Phase where
  | starting (step : Nat)
  | up
  | dead (cause : Nat)
  deriving DecidableEq, Repr

/-- Power management (R404 to R413, R419).
(Log entry 15 DESIGN CHOICE.) -/
structure Power where
  now : PwrNow := .on
  phase : Phase := .starting 3
  wakeSrc : Nat := 0
  flag : BitVec 9 := 0
  wakecfg : Word := 0x1D
  /-- 0.1 V -/
  vin : Nat := 480
  temp : Int := 25
  out33 : Bool := true
  /-- V33OUT folded back -/
  overload : Bool := false
  /-- VIN stopped the converter from above -/
  overvolt : Bool := false
  runT : Word64 := 0
  /-- cause of the present start (R334) -/
  cause : Nat := 0
  /-- elapsed tick at which the cores restart after a wake from HOLD -/
  restartAt : Option Nat := none
  deriving DecidableEq, Repr

/-- An entry of the fault log (R432). -/
structure LogEntry where
  t : Word64
  kind : Nat
  utype : Nat
  unit : Nat
  cause : Nat
  count : Nat
  seq : Nat
  deriving DecidableEq, Repr

/-- The chip fault unit and the always-on log (R421, R427, R429, R432, R438). -/
structure ChipFault where
  tflag : Word := 0
  pflag : Word := 0
  ctl : Word := 0x000A0003
  cntTrans : Word := 0
  cntPerm : Word := 0
  log : List LogEntry := []
  lost : Nat := 0
  seq : Nat := 0
  track : List Track := []
  /-- the retirement list, in the order in which the resources were retired -/
  list : List (Nat × Nat) := []
  /-- chip block of the last reset by the unit and the elapsed count (RTC) of it -/
  lastReset : Option (Nat × Nat) := none
  /-- CLEARRET was written in this run -/
  clearRet : Bool := false
  /-- the RO objects of 0x8000 to 0x8FFF as they stood on entry to DEAD (R303): index, subindex, value -/
  deadVals : List (BitVec 16 × Byte × List Byte) := []
  deriving DecidableEq, Repr

/-- What the update engine does for a segment of IMAGE or for COMMIT (R446, R447). -/
structure UpdJob where
  carrier : Carrier
  /-- code words still to be programmed, with their offsets in the image -/
  words : List (Nat × List Byte)
  /-- whether the first read-back is right -/
  ok : Bool
  /-- bytes that wait for a later segment, and the bytes of this one that count once it is acknowledged -/
  rest : List Byte
  count : Nat
  /-- the transfer as it stands once the segment is acknowledged; none: the job is a COMMIT -/
  xfer : Option Xfer
  /-- the segment is the last, and whether the sum of the lengths differs from TOTAL -/
  last : Bool
  wrong : Bool
  deriving DecidableEq, Repr

/-- The update engine (R442 to R448). -/
structure Update where
  state : Nat := 0
  holder : Option Carrier := none
  flags : BitVec 8 := 0
  received : Nat := 0
  total : Nat := 0
  /-- bytes 0 to 15, kept until the commit -/
  head : List Byte := []
  /-- bytes of a code word not yet complete, with the offset of its first byte -/
  part : List Byte := []
  /-- blocks erased since the WRITE_INIT -/
  erased : Nat := 0
  /-- the work in progress -/
  job : Option UpdJob := none
  /-- elapsed datum ticks of the last progress -/
  progressAt : Nat := 0
  /-- SEQ expected next -/
  seq : Nat := 0
  deriving DecidableEq, Repr

/-- What the last start read from the image (R333, R440). -/
structure Image where
  valid : Bool := false
  version : Word := 0
  hash : List Byte := List.replicate 32 0
  deriving DecidableEq, Repr

/-- What an initiator's last access answered.
(Log entry 17 DESIGN CHOICE.) -/
inductive BusResult where
  | none
  | data (w : Word)
  | done
  | error
  | held
  deriving DecidableEq, Repr

end Sys2Proof.Machine
end

