-- ==== Sys2Proof/Machine/State.lean ====
section
/-! DEFINITION. The state of the HV2448: everything the spec gives the block, as plain data, and the queue of the
commands that wait. `Dev` is the block but for its SRAM bytes; `State` adds those and the queue. -/

namespace Sys2Proof.Machine

/-- Bytes by address, addresses strictly rising, no entry equal to what an unlisted address reads as. -/
abbrev Memory := List Host.Cell

/-- The latches that belong to one initiator: datum (R184), queue write (R352) and queue read (R355). -/
structure Latches where
  datum : Word64 := 0
  qwr : Word := 0
  qhi : Word := 0
  qeop : Bool := false
  qempty : Bool := false
  qerr : Bool := false
  deriving DecidableEq, Repr

/-- An access that is held (R16): who made it, its address, its width in bytes, what it writes, and whether the queue that
it pushes to has been disabled since (R354). -/
structure HeldAcc where
  init : Initiator
  addr : Word
  width : Nat
  value : Option Word
  failed : Bool := false
  deriving DecidableEq, Repr

/-- A join window that awaits its JOIN_ACC (R156, R175): the node, the datum of the window and the mode. -/
structure JoinWin where
  ctx : CtxId
  at_ : Int
  mode : Mode
  rate : Nat
  robust : Bool
  deriving DecidableEq, Repr

/-- Link-layer state of the chip level (R159 to R164, R178, R180): the chip-wide link registers, the install table
(most recent first), the downlink chains and the context memory, whose unlisted bytes read 0.
(Log entry 4 DESIGN CHOICE.) -/
structure ChipLink where
  anchor : Word := 0
  joindly : Word := 2000000
  bcast : Word := 0
  bcnt : Word := 0
  table : List HashEntry := []
  chains : List Chain := []
  /-- packets accepted since the start -/
  packets : Nat := 0
  ctx : Memory := []
  /-- contexts whose REMOVE waits, with the channel: a region or the dictionary -/
  removing : List (CtxId × Option RegionId) := []
  joins : List JoinWin := []
  deriving DecidableEq, Repr

/-- The arbiter of a crossbar (R27, R28): of each class, the child at which the round of grants goes on. -/
structure Xbar where
  ctl : Nat := 0
  data : Nat := 0
  deriving DecidableEq, Repr

/-- Everything but the SRAM bytes and the queue of commands. -/
structure Dev where
  /-- elapsed ticks of 5 ns since the model's time 0, whatever the datum does (log entry 1) -/
  now : Nat := 0
  /-- the model's own: the number of free values taken (log entry 12) -/
  freeCtr : Nat := 0
  ports : Vector Port 24 := Vector.replicate 24 {}
  regions : Vector Region 4 := Vector.replicate 4 {}
  datum : Datum := {}
  cl : ChipLink := {}
  latch : Vector Latches 15 := Vector.replicate 15 {}
  bus : Vector BusResult 15 := Vector.replicate 15 .none
  holds : List HeldAcc := []
  /-- the arbiters of the four region crossbars and of the chip crossbar -/
  xbar : Vector Xbar 5 := Vector.replicate 5 {}
  /-- bit errors in words of SRAM, context memory and boot ROM, by the word's address; true: two bits (R329) -/
  errs : List (Nat × Bool) := []
  keys : Keys := {}
  otp : Otp := {}
  att : Att := {}
  hash : Hash := {}
  eng : Engine := {}
  drv : Derived := {}
  dbg : Dbg := {}
  sec : Sec := {}
  trk : TrunkRegs := {}
  links : Vector Trunk 2 := Vector.replicate 2 {}
  tdp : Tdp := {}
  can : Can := {}
  cfg : Cfg := {}
  cores : Vector Core 8 := Vector.replicate 8 {}
  flash : Flash := {}
  mbx : Vector Mbx 16 := Vector.replicate 16 {}
  evt : Events := {}
  rtc : Rtc := {}
  pwr : Power := {}
  flt : ChipFault := {}
  upd : Update := {}
  img : Image := {}
  /-- the chip fault unit has called for a reset in this command; it takes place at the command's end (R427) -/
  resetDue : Bool := false
  deriving DecidableEq, Repr

/-- The machine: the commands that wait, chip and region SRAM (unlisted bytes read 0, log entry 4), the rest. -/
structure State where
  pending : List Instr := []
  ram : Memory := []
  d : Dev := {}
  deriving DecidableEq, Repr

/-- No command of this block stops with a fault: the spec answers every access (bus errors, ABORT and STATUS codes),
and the machine goes on. The type has no constructor, so nothing raises it. -/
inductive Fault where
  deriving DecidableEq, Repr

/-- Why a command is turned away.
(Log entry 79 DESIGN CHOICE.) -/
inductive Refusal where
  /-- raised by an arm of the dispatch that has no meaning yet; safe -/
  | notModelled (mnemonic : String)
  /-- raised by JTAG_INSTRUCTION for an unlocked test-mode instruction, whose effect R234 does not give; safe -/
  | testMode
  deriving DecidableEq, Repr

/-- The machine right after reset: RESETN has been released and the start stands at step 3 of R416 (log entry 14).
The main core has left reset at 0x0000_0000 in machine mode (R331); every other core is held.
(Log entries 4 DESIGN CHOICE, 5 DESIGN CHOICE, 6 DESIGN CHOICE, 14 DESIGN CHOICE, 15 DESIGN CHOICE.) -/
def State.reset : State :=
  { d := { cores := (Vector.replicate 8 ({} : Core)).set 0 { running := true } } }

end Sys2Proof.Machine
end

