-- ==== Sys2Proof/Machine/Operands.lean ====
section
/-! DEFINITION. Operand forms: bit fields of words, byte strings in the byte order of R7, the address windows of R32
and R34, signed fields. -/

namespace Sys2Proof.Machine

/-- A function over every element, in a form that the kernel evaluates. -/
def vmap {α β : Type} {n : Nat} (v : Vector α n) (f : α → β) : Vector β n := Vector.ofFn fun i => f v[i]

/-- Put an element before the first that it need not follow. -/
def insertBy {α : Type} (le : α → α → Bool) (a : α) : List α → List α
  | [] => [a]
  | b :: l => if le a b then a :: b :: l else b :: insertBy le a l

/-- Stable sorting. -/
def sortBy {α : Type} (le : α → α → Bool) (l : List α) : List α := l.foldr (insertBy le) []

/-- 1 for true. -/
def b2n (b : Bool) : Nat := if b then 1 else 0

/-- Bit i of a word. -/
def bit (w : Word) (i : Nat) : Bool := w.getLsbD i

/-- The field of `len` bits of w that begins at bit `lo`. -/
def fld (w : Word) (lo len : Nat) : Nat := (w.toNat >>> lo) % 2 ^ len

/-- The same field of a 64-bit word. -/
def fld64 (w : Word64) (lo len : Nat) : Nat := (w.toNat >>> lo) % 2 ^ len

/-- A word with bit i set. -/
def setBit (w : Word) (i : Nat) : Word := w ||| (1#32 <<< i)

/-- A word with bit i clear. -/
def clrBit (w : Word) (i : Nat) : Word := w &&& ~~~(1#32 <<< i)

/-- A word with its field [lo + len − 1 : lo] replaced. -/
def setFld (w : Word) (lo len v : Nat) : Word :=
  (w &&& ~~~(BitVec.ofNat 32 ((2 ^ len - 1) <<< lo))) ||| BitVec.ofNat 32 ((v % 2 ^ len) <<< lo)

/-- A word from fields given by their lowest bits; the fields do not overlap. -/
def pack : List (Nat × Nat) → Word
  | [] => 0
  | (lo, v) :: l => BitVec.ofNat 32 (v <<< lo) ||| pack l

/-- A 64-bit word from fields given by their lowest bits. -/
def pack64 : List (Nat × Nat) → Word64
  | [] => 0
  | (lo, v) :: l => BitVec.ofNat 64 (v <<< lo) ||| pack64 l

/-- Two's complement of an integer in n bits, as a number. -/
def sN (n : Nat) (i : Int) : Nat := (i % (2 ^ n : Nat)).toNat

/-- The integer that an n-bit two's complement number is. -/
def nS (n v : Nat) : Int := if v % 2 ^ n < 2 ^ (n - 1) then (v % 2 ^ n : Nat) else (v % 2 ^ n : Nat) - (2 ^ n : Nat)

/-- Bits [31:0] and [63:32] of a 64-bit value. -/
def lo32 (w : Word64) : Word := w.setWidth 32

/-- The upper half of a 64-bit value. -/
def hi32 (w : Word64) : Word := (w >>> 32).setWidth 32

/-- A 64-bit value from its halves. -/
def join64 (hi lo : Word) : Word64 := hi ++ lo

/-- A number from bytes, the least significant first (R7). -/
def bytesNat : List Byte → Nat
  | [] => 0
  | b :: l => b.toNat + 256 * bytesNat l

/-- The n lowest bytes of a number, the least significant first (R7). -/
def natBytes : Nat → Nat → List Byte
  | 0, _ => []
  | n + 1, v => BitVec.ofNat 8 (v % 256) :: natBytes n (v / 256)

/-- A big-endian number, as the standards of the cipher and hash engines write it. -/
def bytesNatBE (l : List Byte) : Nat := bytesNat l.reverse

/-- The n lowest bytes of a number, the most significant first. -/
def natBytesBE (n v : Nat) : List Byte := (natBytes n v).reverse

/-- Bytes a to a + n − 1 of a string. -/
def slice (l : List Byte) (a n : Nat) : List Byte := (l.drop a).take n

/-- A string of exactly n bytes: cut, or filled with zeros. -/
def padTo (n : Nat) (l : List Byte) : List Byte := (l ++ List.replicate (n - l.length) 0).take n

/-- Byte i of a string; 0 past its end. -/
def byteAt (l : List Byte) (i : Nat) : Byte := l.getD i 0

/-- The 32-bit words of a string, four bytes each, the last filled with zeros. `fuel` bounds the count. -/
def wordsOf (n : Nat) (l : List Byte) : List Word :=
  (List.range n).map fun i => BitVec.ofNat 32 (bytesNat (padTo 4 (slice l (4 * i) 4)))

/-- The payload words of R111: eight bytes each, the last filled with zeros. -/
def words64Of (l : List Byte) : List Word64 :=
  (List.range ((l.length + 7) / 8)).map fun i => BitVec.ofNat 64 (bytesNat (slice l (8 * i) 8))

/-- The bytes of 64-bit words in order. -/
def bytesOf64 (l : List Word64) : List Byte := (l.map fun w => natBytes 8 w.toNat).flatten

/-- The bytes of 32-bit words in order. -/
def bytesOf32 (l : List Word) : List Byte := (l.map fun w => natBytes 4 w.toNat).flatten

/-- A fixed number of bits, least significant first. -/
def bitsOf (n v : Nat) : List Bool := (List.range n).map fun i => v.testBit i

/-- The number that bits spell, least significant first. -/
def bitsNat : List Bool → Nat
  | [] => 0
  | b :: l => b2n b + 2 * bitsNat l

/-- The windows of R32, with the pages of R34 and the offset within the window or page. -/
inductive Win where
  | rom (o : Nat)
  | flash (o : Nat)
  | csram (o : Nat)
  | rsram (r : RegionId) (o : Nat)
  | ctx (o : Nat)
  | chip (page : Fin 12) (o : Nat)
  | region (r : RegionId) (page : Fin 4) (o : Nat)
  | port (p : PortId) (o : Nat)
  | outside
  deriving DecidableEq, Repr

/-- The window an address lies in (R32, R34, R35). -/
def winOf (a : Nat) : Win :=
  if a < 0x10000 then .rom a
  else if 0x08000000 ≤ a ∧ a < 0x08800000 then .flash (a - 0x08000000)
  else if 0x20000000 ≤ a ∧ a < 0x20080000 then .csram (a - 0x20000000)
  else if 0x21000000 ≤ a ∧ a < 0x21400000 then
    .rsram (Fin.ofNat 4 ((a - 0x21000000) / 0x100000)) ((a - 0x21000000) % 0x100000)
  else if 0x30000000 ≤ a ∧ a < 0x30040000 then .ctx (a - 0x30000000)
  else if 0x40000000 ≤ a ∧ a < 0x400C0000 then
    .chip (Fin.ofNat 12 ((a - 0x40000000) / 0x10000)) ((a - 0x40000000) % 0x10000)
  else if 0x44000000 ≤ a ∧ a < 0x44400000 ∧ (a - 0x44000000) % 0x100000 < 0x40000 then
    .region (Fin.ofNat 4 ((a - 0x44000000) / 0x100000)) (Fin.ofNat 4 ((a - 0x44000000) % 0x100000 / 0x10000))
      ((a - 0x44000000) % 0x10000)
  else if 0x48000000 ≤ a ∧ a < 0x48180000 then
    .port (Fin.ofNat 24 ((a - 0x48000000) / 0x10000)) ((a - 0x48000000) % 0x10000)
  else .outside

/-- The first address of a port's page (R32). -/
def portBase (p : PortId) : Nat := 0x48000000 + p.val * 0x10000

/-- The first address of a page of a region (R34). -/
def regionPage (r : RegionId) (page : Nat) : Nat := 0x44000000 + r.val * 0x100000 + page * 0x10000

/-- The first address of a chip page (R34). -/
def chipPage (page : Nat) : Nat := 0x40000000 + page * 0x10000

/-- The address of a queue register of a global queue (R360).
(Log entry 70 DEDUCED.) -/
def queReg (q : QueueId) (off : Nat) : Nat := regionPage (regionOfQueue q) 0 + 0x40 * (localOfQueue q).val + off

/-- The core an initiator is, if it is one. -/
def coreOf (i : Initiator) : Option CoreId := if h : i.val < 8 then some ⟨i.val, h⟩ else none

/-- The trunk link an initiator is, if it is one. -/
def linkOf (i : Initiator) : Option LinkId :=
  if i.val = 8 then some 0 else if i.val = 9 then some 1 else none

/-- The DMA block an initiator is, if it is one. -/
def isDma (i : Initiator) : Bool := 10 ≤ i.val && i.val ≤ 13

/-- The dictionary as an initiator. -/
def dictInit : Initiator := 14

/-- The initiator that a core is. -/
def initOfCore (c : CoreId) : Initiator := ⟨c.val, by omega⟩

/-- The initiator that a trunk link is. -/
def initOfLink (l : LinkId) : Initiator := ⟨8 + l.val, by omega⟩

/-- The initiator that a region's DMA block is. -/
def initOfDma (r : RegionId) : Initiator := ⟨10 + r.val, by omega⟩

end Sys2Proof.Machine
end

