-- ==== Sys2Proof/Machine/Ops.lean ====
section
/-! DEFINITION. Named operations on the state: memory in its canonical form, one part of the state at a time,
counters, free values, and the passage of time. -/

namespace Sys2Proof.Machine

/-! ### Memory -/

/-- The byte at an address; what is not listed reads as `dflt`.
(Log entry 4 DESIGN CHOICE.) -/
def memGet (dflt : Byte) : Memory → Nat → Byte
  | [], _ => dflt
  | (b, w) :: m, a => if b = a then w else memGet dflt m a

/-- Write one byte and keep the canonical form. -/
def memSet (dflt : Byte) : Memory → Nat → Byte → Memory
  | [], a, v => if v = dflt then [] else [(a, v)]
  | (b, w) :: m, a, v =>
    if a < b then (if v = dflt then (b, w) :: m else (a, v) :: (b, w) :: m)
    else if a = b then (if v = dflt then m else (a, v) :: m)
    else (b, w) :: memSet dflt m a v

/-- The canonical form from address `lo` on: addresses rise, no entry equals `dflt`. -/
def memWfFrom (dflt : Byte) : Nat → Memory → Bool
  | _, [] => true
  | lo, (a, v) :: m => decide (lo ≤ a) && decide (v ≠ dflt) && memWfFrom dflt (a + 1) m

/-- The canonical form of a memory whose unlisted bytes read 0. -/
def Memory.wf (m : Memory) : Bool := memWfFrom 0 0 m

/-- n bytes from an address. -/
def memRead (dflt : Byte) (m : Memory) (a : Nat) : Nat → List Byte
  | 0 => []
  | n + 1 => memGet dflt m a :: memRead dflt m (a + 1) n

/-- Write a string of bytes from an address on. -/
def memWrite (dflt : Byte) (m : Memory) (a : Nat) : List Byte → Memory
  | [] => m
  | v :: l => memWrite dflt (memSet dflt m a v) (a + 1) l

/-- The little-endian value of n bytes. -/
def memNat (m : Memory) (a n : Nat) : Nat := bytesNat (memRead 0 m a n)

/-! ### Parts of the state -/

/-- Change one port. -/
def Dev.modPort (d : Dev) (p : PortId) (f : Port → Port) : Dev := { d with ports := d.ports.set p (f d.ports[p]) }

/-- Change the receive side of one port. -/
def Dev.modRx (d : Dev) (p : PortId) (f : Rx → Rx) : Dev := d.modPort p fun q => { q with rx := f q.rx }

/-- Change the synthesizer of one port. -/
def Dev.modSyn (d : Dev) (p : PortId) (f : Synth → Synth) : Dev := d.modPort p fun q => { q with syn := f q.syn }

/-- Change the transmitter of one port. -/
def Dev.modTx (d : Dev) (p : PortId) (f : Tx → Tx) : Dev := d.modPort p fun q => { q with tx := f q.tx }

/-- Change the tuner of one port. -/
def Dev.modTun (d : Dev) (p : PortId) (f : Tuner → Tuner) : Dev := d.modPort p fun q => { q with tun := f q.tun }

/-- Change the calibration block of one port. -/
def Dev.modCal (d : Dev) (p : PortId) (f : Cal → Cal) : Dev := d.modPort p fun q => { q with cal := f q.cal }

/-- Change the slot book of one port. -/
def Dev.modSb (d : Dev) (p : PortId) (f : SlotBook → SlotBook) : Dev := d.modPort p fun q => { q with sb := f q.sb }

/-- Change the limit gauge of one port. -/
def Dev.modGauge (d : Dev) (p : PortId) (f : Gauge → Gauge) : Dev := d.modRx p fun x => { x with gauge := f x.gauge }

/-- Change one lane. -/
def Dev.modLane (d : Dev) (p : PortId) (i : LaneId) (f : Lane → Lane) : Dev :=
  d.modRx p fun x => { x with lanes := x.lanes.set i (f x.lanes[i]) }

/-- Change one watcher. -/
def Dev.modWatcher (d : Dev) (p : PortId) (i : WatcherId) (f : Watcher → Watcher) : Dev :=
  d.modRx p fun x => { x with watchers := x.watchers.set i (f x.watchers[i]) }

/-- Put or remove the stake of an entry. -/
def Dev.setStake (d : Dev) (p : PortId) (n : SlotId) (k : Option Stake) : Dev :=
  d.modSb p fun b => { b with stakes := b.stakes.set n k }

/-- The stake of an entry. -/
def Dev.stake (d : Dev) (p : PortId) (n : SlotId) : Option Stake := (d.ports[p]).sb.stakes[n]

/-- Change one region. -/
def Dev.modRegion (d : Dev) (r : RegionId) (f : Region → Region) : Dev :=
  { d with regions := d.regions.set r (f d.regions[r]) }

/-- Change the link engine of one region. -/
def Dev.modLink (d : Dev) (r : RegionId) (f : Link → Link) : Dev := d.modRegion r fun x => { x with link := f x.link }

/-- Change the cipher block of one region. -/
def Dev.modCiph (d : Dev) (r : RegionId) (f : Cipher → Cipher) : Dev :=
  d.modRegion r fun x => { x with cipher := f x.cipher }

/-- Change one cipher channel. -/
def Dev.modChan (d : Dev) (r : RegionId) (n : Fin 2) (f : CiphChan → CiphChan) : Dev :=
  d.modCiph r fun c => { c with chans := c.chans.set n (f c.chans[n]) }

/-- Change one queue. -/
def Dev.modQueue (d : Dev) (q : QueueId) (f : Queue → Queue) : Dev :=
  d.modRegion (regionOfQueue q) fun x =>
    { x with queues := x.queues.set (localOfQueue q) (f x.queues[localOfQueue q]) }

/-- A queue by its global number. -/
def Dev.queue (d : Dev) (q : QueueId) : Queue := (d.regions[regionOfQueue q]).queues[localOfQueue q]

/-- Change the second-look part of one region. -/
def Dev.modSecond (d : Dev) (r : RegionId) (f : Second → Second) : Dev :=
  d.modRegion r fun x => { x with second := f x.second }

/-- Change the fault unit of one region. -/
def Dev.modRegFlt (d : Dev) (r : RegionId) (f : RegFault → RegFault) : Dev :=
  d.modRegion r fun x => { x with flt := f x.flt }

/-- Change the power part of one region. -/
def Dev.modRegPwr (d : Dev) (r : RegionId) (f : RegPower → RegPower) : Dev :=
  d.modRegion r fun x => { x with pwr := f x.pwr }

/-- Change one DMA channel by its global number (channel 8r + c). -/
def Dev.modDma (d : Dev) (n : Fin 32) (f : DmaChan → DmaChan) : Dev :=
  d.modRegion (Fin.ofNat 4 (n.val / 8)) fun x =>
    { x with dma := { x.dma with chans := x.dma.chans.set (Fin.ofNat 8 n.val) (f x.dma.chans[Fin.ofNat 8 n.val]) } }

/-- A DMA channel by its global number. -/
def Dev.dma (d : Dev) (n : Fin 32) : DmaChan := (d.regions[Fin.ofNat 4 (n.val / 8)]).dma.chans[Fin.ofNat 8 n.val]

/-- Change one core. -/
def Dev.modCore (d : Dev) (c : CoreId) (f : Core → Core) : Dev := { d with cores := d.cores.set c (f d.cores[c]) }

/-- Change the CSRs of one core. -/
def Dev.modCsr (d : Dev) (c : CoreId) (f : Csrs → Csrs) : Dev := d.modCore c fun x => { x with csr := f x.csr }

/-- Change one trunk link. -/
def Dev.modTrunk (d : Dev) (l : LinkId) (f : Trunk → Trunk) : Dev := { d with links := d.links.set l (f d.links[l]) }

/-- Change one TDP carrier. -/
def Dev.modCarrier (d : Dev) (c : Carrier) (f : TdpCarrier → TdpCarrier) : Dev :=
  { d with tdp := { d.tdp with car := d.tdp.car.set c (f d.tdp.car[c]) } }

/-- Datum ticks of a prescaled tick; values of PRE above 24 act as 24 (R395). -/
def Timer.period (pre : Nat) : Nat := 2 ^ min pre 24

/-- A start or a stop takes effect on elapsed tick `at_` (R387). -/
def Timer.apply (t : Timer) (start : Bool) (at_ : Nat) : Timer :=
  if start then
    { t with cnt := t.load, preRun := t.pre, chainRun := t.chain, run := true, nextAt := at_ + Timer.period t.pre
             reloadT := some at_ }
  else { t with run := false }

/-- The timer as it stands at an elapsed tick: starts and stops whose tick has come have taken effect (R382). -/
def Timer.by_ (t : Timer) (now : Nat) : Timer :=
  (t.sched.filter fun x => x.2 ≤ now).foldl (fun t x => t.apply x.1 x.2) { t with sched := t.sched.filter fun x => now < x.2 }

/-- A timer as it stands. -/
def Dev.timer (d : Dev) (t : Fin 16) : Timer := (d.evt.tmr[t]).by_ d.now

/-- Change one timer. -/
def Dev.modTimer (d : Dev) (t : Fin 16) (f : Timer → Timer) : Dev :=
  { d with evt := { d.evt with tmr := d.evt.tmr.set t (f (d.timer t)) } }

/-- Change one event channel. -/
def Dev.modEvt (d : Dev) (n : Fin 64) (f : EvtChan → EvtChan) : Dev :=
  { d with evt := { d.evt with ch := d.evt.ch.set n (f d.evt.ch[n]) } }

/-- Change one LUT cell. -/
def Dev.modLut (d : Dev) (j : Fin 16) (f : Lut → Lut) : Dev :=
  { d with evt := { d.evt with lut := d.evt.lut.set j (f d.evt.lut[j]) } }

/-- Change one mailbox. -/
def Dev.modMbx (d : Dev) (m : Fin 16) (f : Mbx → Mbx) : Dev := { d with mbx := d.mbx.set m (f d.mbx[m]) }

/-- Change the latches of one initiator. -/
def Dev.modLatch (d : Dev) (i : Initiator) (f : Latches → Latches) : Dev := { d with latch := d.latch.set i (f d.latch[i]) }

/-- Record what an initiator's access answered.
(Log entry 17 DESIGN CHOICE.) -/
def Dev.answer (d : Dev) (i : Initiator) (b : BusResult) : Dev := { d with bus := d.bus.set i b }

/-! ### Counters -/

/-- Count one receive event of a port (R114). -/
def Dev.countRx (d : Dev) (p : PortId) (c : RxCnt) : Dev :=
  d.modRx p fun x => { x with cnt := x.cnt.set c.ix (x.cnt[c.ix] + 1) }

/-- Count one transmit event of a port (R143). -/
def Dev.countTx (d : Dev) (p : PortId) (c : TxCnt) : Dev :=
  d.modTx p fun x => { x with cnt := x.cnt.set c.ix (x.cnt[c.ix] + 1) }

/-- Count one slot-book event of a port (R208). -/
def Dev.countSb (d : Dev) (p : PortId) (c : SbCnt) : Dev :=
  d.modSb p fun x => { x with cnt := x.cnt.set c.ix (x.cnt[c.ix] + 1) }

/-- Count one link event of a region (R181). -/
def Dev.countLink (d : Dev) (r : RegionId) (c : LinkCnt) : Dev :=
  d.modLink r fun x => { x with cnt := x.cnt.set c.ix (x.cnt[c.ix] + 1) }

/-- Count one trunk event of a link (R264). -/
def Dev.countTrk (d : Dev) (l : LinkId) (c : TrkCnt) : Dev :=
  d.modTrunk l fun x => { x with cnt := x.cnt.set c.ix (x.cnt[c.ix] + 1) }

/-! ### Free values -/

/-- The next free value (log entry 12).
(Log entry 12 UNVERIFIED.) -/
def Dev.freeNow (d : Dev) : Nat := Config.freeValue d.freeCtr

/-- Take it.
(Log entry 12 UNVERIFIED.) -/
def Dev.took (d : Dev) : Dev := { d with freeCtr := d.freeCtr + 1 }

/-! ### Time -/

/-- The datum counts in RUN, DOZE and NAP and during a start (R182, R406); it stands in HOLD and STANDBY, without
power and while RESETN is held.
(Log entry 55 DESIGN CHOICE.) -/
def Dev.datumCounts (d : Dev) : Bool := d.pwr.now = .on || d.pwr.now = .nap

/-- The length of a month of the calendar of R399 (years 2000 to 2099). -/
def monthDays (year month : Nat) : Nat :=
  if month = 2 then (if year % 4 = 0 then 29 else 28)
  else if month = 4 ∨ month = 6 ∨ month = 9 ∨ month = 11 then 30 else 31

/-- Two BCD digits as a number. -/
def bcdN (v : Nat) : Nat := v % 256 / 16 * 10 + v % 16

/-- A number below 100 as two BCD digits. -/
def nBcd (v : Nat) : Nat := v % 100 / 10 * 16 + v % 10

/-- One second on (R399): the calendar in its two register words, time and date. -/
def calSecond (td : Word × Word) : Word × Word :=
  let s := bcdN (fld td.1 0 8) + 1
  let mi := bcdN (fld td.1 8 8) + s / 60
  let h := bcdN (fld td.1 16 8) + mi / 60
  let dy := bcdN (fld td.2 0 8) + h / 24
  let mo := bcdN (fld td.2 8 8)
  let y := bcdN (fld td.2 16 8)
  let dim := monthDays y mo
  let mo' := if dy > dim then mo + 1 else mo
  let dy' := if dy > dim then 1 else dy
  let y' := if mo' > 12 then y + 1 else y
  let mo'' := if mo' > 12 then 1 else mo'
  (pack [(0, nBcd (s % 60)), (8, nBcd (mi % 60)), (16, nBcd (h % 24))],
   pack [(0, nBcd dy'), (8, nBcd mo''), (16, nBcd y')])

/-- k seconds on. -/
def calSeconds : Nat → Word × Word → Word × Word
  | 0, td => td
  | k + 1, td => calSeconds k (calSecond td)

/-- The elapsed count advances 65 536 times a second on the crystal, modelled at its nominal frequency (R398, log
entry 13): n ticks of 5 ns are 128·n/390625 counts.
(Log entry 13 DESIGN CHOICE.) -/
def rtcAdvance (n : Nat) (r : Rtc) : Rtc :=
  if r.powered then
    let acc := r.acc + 128 * n
    let k := acc / 390625
    let raw := r.count + k
    let secs := (raw + 65536 - r.phase) / 65536 - (r.count + 65536 - r.phase) / 65536
    let td := if r.mode && !r.halt then calSeconds secs (r.time, r.date) else (r.time, r.date)
    { r with acc := acc % 390625, count := raw % 2 ^ 48, time := td.1, date := td.2 }
  else r

/-- mcycle counts the datum ticks during which a running core is not stalled in WFI (R319).
(Log entry 66 DESIGN CHOICE.) -/
def coreAdvance (n : Nat) (c : Core) : Core :=
  if c.running && !c.wfi && !bit c.csr.mcountinhibit 0 then
    { c with csr := { c.csr with mcycle := c.csr.mcycle + BitVec.ofNat 64 n } }
  else c

/-- The datum runs on the holdover oscillator: TRIM is not applied, REFF reads 0 (R183, R414). -/
def Datum.onHoldover (x : Datum) : Bool := x.holdover || x.seeded

/-- The clock's rate in 10^-9 of 200 MHz (R186); nominal on the holdover oscillator and while the datum stands. -/
def Dev.clockRate (d : Dev) : Nat :=
  if d.datumCounts && !d.datum.onHoldover then (1000000000 + d.datum.trim).toNat else 1000000000

/-- n ticks of the clock in ticks of exactly 5 ns, whole and left over (R186). -/
def Dev.nominal (d : Dev) (n : Nat) : Nat × Nat :=
  let x := d.datum.rem + n * 1000000000
  (x / d.clockRate, x % d.clockRate)

/-- n ticks of the clock pass: the datum counts them; the RTC, whose crystal knows no trim, advances by the time that they
take (R182, R186, R398).
(Log entries 1 DESIGN CHOICE, 13 DESIGN CHOICE, 55 DESIGN CHOICE, 80 DESIGN CHOICE.) -/
def Dev.advance (d : Dev) (n : Nat) : Dev :=
  { d with
    now := d.now + n
    datum := if d.datumCounts then { d.datum with now := d.datum.now + BitVec.ofNat 64 n, rem := (d.nominal n).2 }
             else { d.datum with rem := (d.nominal n).2 }
    rtc := rtcAdvance (d.nominal n).1 d.rtc
    cores := if d.datumCounts then vmap d.cores (coreAdvance n) else d.cores }

/-- Time passes until an elapsed tick, or none if it is past.
(Log entry 1 DESIGN CHOICE.) -/
def Dev.until_ (d : Dev) (t : Nat) : Dev := d.advance (t - d.now)

/-- Time passes until the datum has reached a value, or none if it has (R199).
(Log entry 1 DESIGN CHOICE.) -/
def Dev.untilDatum (d : Dev) (t : Int) : Dev := d.advance (t - d.datum.now.toNat).toNat

/-- Time passes until the elapsed count of the RTC has reached a value.
(Log entries 1 DESIGN CHOICE, 13 DESIGN CHOICE.) -/
def Dev.untilRtc (d : Dev) (c : Nat) : Dev :=
  let m := ((c - d.rtc.count) * 390625 - d.rtc.acc + 127) / 128
  d.advance (if d.rtc.count < c then (m * d.clockRate - d.datum.rem + 999999999) / 1000000000 else 0)

/-- One tick, which is what a step with nothing waiting does (log entry 1).
(Log entry 1 DESIGN CHOICE.) -/
def tick (s : State) : State := { s with d := s.d.advance 1 }

/-- The seconds of the elapsed count (R398). -/
def Dev.rtcSec (d : Dev) : Nat := d.rtc.count / 65536

/-- The 48-bit value that names a datum value (R185). -/
def datum48 (t : Int) : Nat := sN 48 t

/-- The datum value that a 48-bit value names at the present datum (R185). -/
def Dev.named48 (d : Dev) (r : Nat) : Int :=
  let now : Int := d.datum.now.toNat
  now + nS 48 (sN 48 ((r : Int) - now))

/-! ### Events, ATTN causes -/

/-- Set a flag of TRK_ATTNCAUSE (R260). -/
def Dev.attnCause (d : Dev) (i : Nat) : Dev := { d with trk := { d.trk with cause := setBit d.trk.cause i } }

/-- UNSYNCED takes a value; each change sets SYNCCHG and so TIME in ATTN (R193). -/
def Dev.setUnsynced (d : Dev) (b : Bool) : Dev :=
  if d.datum.unsynced = b then d
  else { d with datum := { d.datum with unsynced := b } }.attnCause 14

/-- A cause of SEC_STAT sets (R238, R239). -/
def Dev.secCause (d : Dev) (i : Nat) : Dev := { d with sec := { d.sec with stat := d.sec.stat ||| (1#7 <<< i) } }

/-- A flag of PWR_FLAG sets (R419). -/
def Dev.pwrFlag (d : Dev) (i : Nat) : Dev := { d with pwr := { d.pwr with flag := d.pwr.flag ||| (1#9 <<< i) } }

/-! ### The SEC threshold (R237) -/

/-- The present second of the datum (R192). -/
def Dev.datumSec (d : Dev) : Nat := d.datum.now.toNat / secTicks

/-- WINDOW in effect. -/
def Sec.window (s : Sec) : Nat := max 1 (fld s.authctl 16 8)

/-- The windows start anew with the present second, as after a step. -/
def Dev.authRestart (d : Dev) : Dev := { d with sec := { d.sec with winStart := d.datumSec, cnt := 0, hit := false } }

/-- The window that the present second lies in. -/
def Dev.authRoll (d : Dev) : Dev :=
  let s := d.sec
  if s.winStart ≤ d.datumSec ∧ d.datumSec < s.winStart + s.window then d
  else { d with sec := { s with winStart := s.winStart + (d.datumSec - s.winStart) / s.window * s.window, cnt := 0, hit := false } }

/-- An AUTHFAIL counts; at THRESH the AUTH cause sets, once in each window.
(Log entry 57 DEDUCED.) -/
def Dev.countAuth (d : Dev) : Dev :=
  let d := d.authRoll
  let n := d.sec.cnt + 1
  let d := { d with sec := { d.sec with cnt := min 65535 n } }
  if max 1 (fld d.sec.authctl 0 16) ≤ n ∧ !d.sec.hit then
    { d with sec := { d.sec with hit := true } }.secCause 0
  else d

end Sys2Proof.Machine
end

