-- ==== Sys2Proof/Machine/Flags.lean ====
section
/-! DEFINITION. Flag computations: the ATTN word and its SEQ (R260, R261), the causes behind each bit. -/

namespace Sys2Proof.Machine

/-- Some queue marked in the four mask words meets a condition. -/
def Dev.anyQueue (d : Dev) (mask : Vector Word 4) (f : Queue → Bool) : Bool :=
  (List.finRange 128).any fun q => bit mask[Fin.ofNat 4 (q.val / 32)] (q.val % 32) && f (d.queue q)

/-- RXQ: a marked queue holds a whole packet. -/
def Dev.rxq (d : Dev) : Bool := d.anyQueue d.trk.rxq fun q => 0 < q.pktcnt

/-- TXQ_LOW: a marked queue is at or below its low-water mark. -/
def Dev.txqLow (d : Dev) : Bool := d.anyQueue d.trk.txq fun q => q.words.length ≤ q.lowmark

/-- A flag of some region. -/
def Dev.anyRegion (d : Dev) (f : Region → Bool) : Bool := (List.finRange 4).any fun r => f d.regions[r]

/-- A flag of some port. -/
def Dev.anyPort (d : Dev) (f : Port → Bool) : Bool := (List.finRange 24).any fun p => f d.ports[p]

/-- FAULT_T: transient-fault flags of the fault units (R438, R439). -/
def Dev.faultT (d : Dev) : Bool := d.flt.tflag ≠ 0 || d.anyRegion fun r => r.flt.tflag ≠ 0

/-- FAULT_P: permanent-fault flags of the fault units. -/
def Dev.faultP (d : Dev) : Bool := d.flt.pflag ≠ 0 || d.anyRegion fun r => r.flt.pflag ≠ 0

/-- TIME: REF_LOST, PPS_LOST, STEP, SYNCCHG and TIME_LOST. -/
def Dev.attnTime (d : Dev) : Bool :=
  d.datum.refLost || d.datum.ppsLost || bit d.trk.cause 13 || bit d.trk.cause 14 || d.rtc.timeLost

/-- LIMIT: OVER and NF_OVER of every port (R110). -/
def Dev.attnLimit (d : Dev) : Bool := d.anyPort fun p => p.rx.gauge.isOver || p.rx.gauge.nfOver

/-- Bits 13 to 0 of the ATTN word (R260). -/
def Dev.attnBits (d : Dev) : BitVec 14 :=
  BitVec.ofNat 14 (bitsNat [d.rxq, d.txqLow, fld d.trk.cause 0 4 ≠ 0, d.faultT, d.faultP, d.attnTime, d.attnLimit,
    d.cfg.flags.toNat % 16 ≠ 0, d.upd.flags ≠ 0, d.sec.stat ≠ 0, d.pwr.flag ≠ 0, fld d.trk.cause 4 8 ≠ 0,
    fld d.trk.cause 16 16 ≠ 0, bit d.trk.cause 12 || bit d.trk.cause 15])

/-- The ATTN word: bit 14 reads 0, bit 15 is SEQ.
(Log entry 3 DESIGN CHOICE.) -/
def Dev.attn (d : Dev) : BitVec 16 := (BitVec.ofBool d.trk.seq ++ 0#1) ++ d.attnBits

/-- SEQ toggles once when any of bits 0 to 13 has changed value (R261). The model judges it at the end of each
command (log entry 3). -/
@[irreducible] def Dev.settle (d : Dev) : Dev :=
  if d.attnBits = d.trk.lastAttn then d
  else { d with trk := { d.trk with seq := !d.trk.seq, lastAttn := d.attnBits } }

/-- A command whose effect touches neither SRAM nor the queue of commands.
(Log entry 3 DESIGN CHOICE.) -/
def onDev (f : Dev → Dev) (s : State) : State := { s with d := (f s.d).settle }

end Sys2Proof.Machine
end

