-- ==== Sys2Proof/Machine/QueueOps.lean ====
section
/-! DEFINITION. Queues (R349 to R358): pushing and taking words, whole packets, flushing and disabling. -/

namespace Sys2Proof.Machine

/-- Words of space. -/
def Queue.size (q : Queue) : Nat := 2 ^ q.depth

/-- FREE (R351). -/
def Queue.free (q : Queue) : Nat := q.size - q.words.length

/-- Full (R351). -/
def Queue.full (q : Queue) : Bool := q.size ≤ q.words.length

/-- A pointer DEPTH + 1 bits wide, n words on. -/
def Queue.bump (q : Queue) (p n : Nat) : Nat := (p + n) % 2 ^ (q.depth + 1)

/-- One word enters a queue that is not full; under DISCARD it is thrown away (R352, R357). -/
def Queue.push (q : Queue) (w : Word64) (eop : Bool) : Queue :=
  if q.discard then { q with discard := !eop, lastEop := eop }
  else { q with words := q.words ++ [{ data := w, eop }], wptr := q.bump q.wptr 1,
                pktcnt := q.pktcnt + b2n eop, lastEop := eop }

/-- Several words enter as one held write (R353). -/
def Queue.pushAll (q : Queue) : List (Word64 × Bool) → Queue
  | [] => q
  | w :: l => (q.push w.1 w.2).pushAll l

/-- The head word leaves. Under DISCARD nothing else changes (R355). -/
def Queue.pop (q : Queue) : Queue :=
  match q.words with
  | [] => q
  | w :: l => { q with words := l, rptr := q.bump q.rptr 1, pktcnt := q.pktcnt - b2n w.eop }

/-- n words leave, in order. -/
def Queue.popN : Nat → Queue → Queue
  | 0, q => q
  | n + 1, q => q.pop.popN n

/-- A flush (R357): RPTR becomes WPTR and PKTCNT 0; FLUSHED sets, and DISCARD when a packet was cut. -/
def Queue.flush (q : Queue) : Queue :=
  { q with words := [], rptr := q.wptr, pktcnt := 0, flushed := true, discard := q.discard || !q.lastEop,
           lastEop := true }

/-- EN ← 0: flush and clear DISCARD (R357).
(Log entry 70 DEDUCED.) -/
def Queue.disable (q : Queue) : Queue := { q.flush with en := false, discard := false, lastEop := true }

/-- The banks that the words of a queue lie in. -/
def Queue.inBank (q : Queue) (b : Nat) : Bool := q.base < 8192 * (b + 1) && 8192 * b < q.base + q.size

/-- Two queues share words. -/
def Queue.overlaps (a b : Queue) : Bool := a.base < b.base + b.size && b.base < a.base + a.size

/-- The conditions under which a write of EN = 1 is refused (R350). -/
def Region.enableRefused (x : Region) (i : Fin 32) : Bool :=
  let q := x.queues[i]
  q.depth < 6 || 14 < q.depth || q.base % q.size ≠ 0 || 65536 < q.base + q.size ||
  (List.finRange 32).any (fun j => j ≠ i && x.queues[j].en && q.overlaps x.queues[j]) ||
  (List.range 8).any (fun b => x.banks.getLsbD b && q.inBank b)

/-- A bank is retired: every queue with a word in it is disabled (R350). -/
def Region.dropBank (x : Region) (b : Fin 8) : Region :=
  { x with banks := x.banks ||| (1#8 <<< b.val)
           queues := vmap x.queues fun q => if q.en && q.inBank b.val then q.disable else q }

/-- The address is a push register of a queue. -/
def pushReg (q : QueueId) (a : Nat) : Bool := queReg q 0x20 ≤ a && a < queReg q 0x2C

/-- The write that a DMA channel has issued, if there is one, pushes to a queue of local number k (R363). -/
def DmaChan.pushes (c : DmaChan) (q : QueueId) (k : Nat) : Bool :=
  (c.issued || (c.buf.isEmpty && c.readEnd ≠ .open_)) &&
    (match c.active with
     | some x => if fld x.cfg 2 2 = 2 then fld x.dst 0 5 = k else pushReg q (x.dst.toNat + if fld x.cfg 2 2 = 0 then 4 * c.written else 0)
     | none => false)

/-- The access that a link's request stands at pushes to a queue. -/
def Trunk.pushes (t : Trunk) (q : QueueId) : Bool :=
  match t.run with
  | some (r, k, _) => r.opc = 2 && pushReg q (r.addr.toNat + 4 * k)
  | none => false

/-- The pushes of some DMA channels of a region fail. -/
def Region.failChans (x : Region) (f : DmaChan → Bool) : Region :=
  { x with dma := { x.dma with chans := vmap x.dma.chans fun c => if f c then { c with pushFail := true } else c } }

/-- Pushes that are held for a queue fail, because it is disabled (R354). -/
def Dev.failPushes (d : Dev) (q : QueueId) : Dev :=
  let d := { d with holds := d.holds.map fun (h : HeldAcc) => if pushReg q h.addr.toNat then { h with failed := true } else h }
  let d := { d with links := vmap d.links fun (t : Trunk) => if t.pushes q then { t with pushFail := true } else t }
  { d with regions := Vector.ofFn fun r =>
      let k := if r = regionOfQueue q then (localOfQueue q).val else 32
      d.regions[r].failChans fun c => c.pushes q k }

/-- A bank of region r is retired: its queues are disabled, and pushes held for them fail (R350, R354). -/
def Dev.dropBank (d : Dev) (r : RegionId) (b : Fin 8) : Dev :=
  let hit := (List.finRange 32).filter fun i => ((d.regions[r]).queues[i]).en && ((d.regions[r]).queues[i]).inBank b.val
  hit.foldl (fun d i => d.failPushes (queueOf r i)) (d.modRegion r fun x => x.dropBank b)

/-- A domain of a region wakes (R410): bit 0 to 5 its ports, 6 core pair, 7 cipher block, 8 queues, 9 DMA. -/
def Dev.wakeDomain (d : Dev) (r : RegionId) (dom : Nat) : Dev :=
  if (d.regions[r]).pwr.domsleep.getLsbD dom then
    { d.modRegPwr r (fun p => { p with domsleep := p.domsleep &&& ~~~(1#10 <<< dom) }) with
        pwr := { d.pwr with wakeSrc := 7 } }
  else d

/-- A queue that a hardware writer can use: its region in service and its block not asleep is not asked (the writer
wakes it, R410); it must be enabled. -/
def Dev.queueUsable (d : Dev) (q : QueueId) : Bool :=
  !(d.regions[regionOfQueue q]).retired && (d.queue q).en

/-- A hardware producer writes a packet of words when FREE holds it all (R353, R434); `none` when it does not. The
last word carries the end mark. -/
def Dev.producePacket (d : Dev) (q : QueueId) (ws : List Word64) : Option Dev :=
  if d.queueUsable q && ws.length ≤ (d.queue q).free then
    some ((d.wakeDomain (regionOfQueue q) 8).modQueue q fun x => x.pushAll (ws.dropLast.map (·, false) ++ (ws.getLast?.toList.map (·, true))))
  else none

/-- The words of the first whole packet, if one waits (R356). -/
def Queue.packet (q : Queue) : Option (List QWord) :=
  if q.pktcnt = 0 then none
  else
    let n := (q.words.takeWhile fun w => !w.eop).length
    some (q.words.take (n + 1))

/-- The idle word (R355). -/
def idleWord : Word64 := 0x1D1E1D1E1D1E1D1E

end Sys2Proof.Machine
end

