-- ==== Sys2Proof/Machine/EventOps.lean ====
section
/-! DEFINITION. Event routing (R376 to R385) and timers (R386 to R389): producers, channels, LUT cells, forks, tasks
and the counting step. What happens in one handshake is one round of `runEvents`; the hop count bounds the rounds. -/

namespace Sys2Proof.Machine

/-- An event on its way to the channels: producer code (R376) and hop count. -/
structure Ev where
  code : Nat
  hop : Nat
  deriving DecidableEq, Repr

/-- A trigger on its way to a task: task code (R382) and hop count. -/
structure Trig where
  task : Nat
  hop : Nat
  deriving DecidableEq, Repr

/-- The level at a GPIO ball: what it drives, or what is driven from outside (R385). -/
def Dev.gpioLevel (d : Dev) : BitVec 16 := (d.evt.gpioOut &&& d.evt.gpioOe) ||| (d.evt.gpioExt &&& ~~~d.evt.gpioOe)

/-- The edge events between two sets of levels (R385), with hop count h. -/
def edgeEvents (a b : BitVec 16) (h : Nat) : List Ev :=
  (List.range 16).flatMap fun i =>
    if a.getLsbD i = b.getLsbD i then [] else [⟨(if b.getLsbD i then 0x20 else 0x30) + i, h⟩]

/-- The level that a LUT input selects (R380). -/
def Dev.level (d : Dev) (c : Nat) : Bool :=
  if c = 1 then true
  else if 0x10 ≤ c ∧ c < 0x20 then d.gpioLevel.getLsbD (c - 0x10)
  else if 0x20 ≤ c ∧ c < 0x30 then (d.evt.tmr[Fin.ofNat 16 (c - 0x20)]).out
  else if 0x30 ≤ c ∧ c < 0x40 then (d.evt.lut[Fin.ofNat 16 (c - 0x30)]).q
  else if c = 0x40 then d.datum.ppslock
  else if c = 0x41 then d.datum.unsynced
  else if 0x48 ≤ c ∧ c < 0x60 then (d.ports[Fin.ofNat 24 (c - 0x48)]).tx.interval.isSome
  else false

/-- F of a LUT cell from the levels at this moment (R380). -/
def Dev.lutF (d : Dev) (j : Fin 16) : Bool :=
  let c := d.evt.lut[j]
  bit c.cfg (b2n (d.level (fld c.inp 0 7)) + 2 * b2n (d.level (fld c.inp 8 7)) + 4 * b2n (d.level (fld c.inp 16 7)))

/-- An event that has passed the filter is evaluated (R380): whether it is forwarded. -/
def Dev.lutEval (d : Dev) (j : Fin 16) : Dev × Bool :=
  let f := d.lutF j
  let c := d.evt.lut[j]
  let fwd := if bit c.cfg 8 then f && !c.q else f
  (d.modLut j fun x => { x with q := if bit x.cfg 8 then f else x.q, drops := if fwd then x.drops else x.drops + 1 },
   fwd)

/-- The filter window of a cell in datum ticks; 0 where it has no filter (R381). -/
def Lut.window (c : Lut) : Nat := fld c.cfg 12 4 * 2 ^ min (fld c.cfg 16 5) 23

/-- The tasks of a channel's fork: the codes that are tasks, in order (R382). -/
def EvtChan.fork (c : EvtChan) : List Nat :=
  ((List.range 4).map (fun i => fld c.taska (8 * i) 8) ++ (List.range 4).map (fun i => fld c.taskb (8 * i) 8)).filter
    fun t => 1 ≤ t && t ≤ 0x80

/-- Step 3 of R378: the channel forwards an event of hop count h (already raised). Its triggers and its producer. -/
def Dev.forward (d : Dev) (n : Fin 64) (h : Nat) : Dev × List Trig × List Ev :=
  ({ d.modEvt n (fun c => { c with t := d.datum.now, fwd := c.fwd + 1 }) with
      cores := vmap d.cores fun c => { c with csr := { c.csr with latch := c.csr.latch ||| (1#64 <<< n.val) } } },
   (d.evt.ch[n]).fork.map fun t => ⟨t, h⟩, [⟨0x80 + n.val, h⟩])

/-- An event of hop count h at a channel's input (R378, R379, R381). -/
def Dev.channelEvent (d : Dev) (n : Fin 64) (h : Nat) : Dev × List Trig × List Ev :=
  if h = 7 then (d.modEvt n fun c => { c with loop := true }, [], [])
  else
    let c := d.evt.ch[n]
    if bit c.cfg 0 then
      let j : Fin 16 := Fin.ofNat 16 (fld c.cfg 4 4)
      let w := (d.evt.lut[j]).window
      if w = 0 then
        let r := d.lutEval j
        if r.2 then r.1.forward n (h + 1) else (r.1, [], [])
      else
        (d.modLut j fun x => { x with heldEvt := some (n, h + 1, d.now + w)
                                      drops := if x.heldEvt.isSome then x.drops + 1 else x.drops }, [], [])
    else d.forward n (h + 1)

/-- The hop count with which the events of one handshake reach channel n: none, or the largest, with whether two
or more became one (R377).
(Log entry 73 DEDUCED.) -/
def arrivals (src : Word) (evs : List Ev) : Option (Nat × Bool) :=
  let hs := (evs.filter fun e => e.code ≠ 0 && (List.range 4).any fun i => fld src (8 * i) 8 = e.code).map (·.hop)
  if hs = [] then none else some (hs.foldl max 0, 1 < hs.length)

/-- All events of one handshake reach the channels, channel 0 first (R377, R378).
(Log entry 73 DEDUCED.) -/
def Dev.reachChannels (evs : List Ev) : List (Fin 64) → Dev → Dev × List Trig × List Ev
  | [], d => (d, [], [])
  | n :: l, d =>
    match arrivals (d.evt.ch[n]).src evs with
    | none => Dev.reachChannels evs l d
    | some (h, merged) =>
      let d := if merged then d.modEvt n fun c => { c with merged := c.merged + 1 } else d
      let r := d.channelEvent n h
      let s := Dev.reachChannels evs l r.1
      (s.1, r.2.1 ++ s.2.1, r.2.2 ++ s.2.2)

/-- A start (R387): on the first tick after the handshake. -/
def Timer.start (t : Timer) (now : Nat) : Timer := { t with sched := t.sched ++ [(true, now + 1)] }

/-- A stop (R387), on that tick too. -/
def Timer.stop (t : Timer) (now : Nat) : Timer := { t with sched := t.sched ++ [(false, now + 1)] }

/-- A capture (R389). -/
def Timer.capture (t : Timer) : Timer :=
  { t with capt := t.cnt, captNew := true, captOvr := t.captOvr || t.captNew }

/-- The zero step of R386. -/
def Timer.zeroStep (t : Timer) (now : Nat) : Timer :=
  { t with cnt := t.load, zero := true, out := !t.out, run := t.run && !t.oneshot, reloadT := some now }

/-- A task that keeps its input busy until its datum tick (R382). -/
def taskBusy (t : Nat) : Bool := (1 ≤ t && t ≤ 0x20) || (0x31 ≤ t && t ≤ 0x40)

/-- One trigger takes effect (R382). -/
def Dev.runTask (d : Dev) (g : Trig) : Dev :=
  let t := g.task
  if t ≤ 0x10 then d.modTimer (Fin.ofNat 16 (t - 1)) fun x => x.start d.now
  else if t ≤ 0x20 then d.modTimer (Fin.ofNat 16 (t - 0x11)) fun x => x.stop d.now
  else if t ≤ 0x30 then d.modTimer (Fin.ofNat 16 (t - 0x21)) Timer.capture
  else if t ≤ 0x40 then d.modTimer (Fin.ofNat 16 (t - 0x31)) fun x => { x with forced := some (g.hop, d.now + 1) }
  else if t ≤ 0x50 then { d with evt := { d.evt with gpioOut := d.evt.gpioOut ||| (1#16 <<< (t - 0x41)) } }
  else if t ≤ 0x60 then { d with evt := { d.evt with gpioOut := d.evt.gpioOut &&& ~~~(1#16 <<< (t - 0x51)) } }
  else if t ≤ 0x70 then { d with evt := { d.evt with gpioOut := d.evt.gpioOut ^^^ (1#16 <<< (t - 0x61)) } }
  else d.attnCause (16 + (t - 0x71))

/-- The triggers of one handshake, merged to one per task input, with the largest hop count (R383).
(Log entry 73 DEDUCED.) -/
def mergeTrigs : List Trig → List (Trig × Nat)
  | [] => []
  | g :: l =>
    let r := mergeTrigs l
    if r.any fun x => x.1.task = g.task then
      r.map fun x => if x.1.task = g.task then (⟨g.task, max g.hop x.1.hop⟩, x.2 + 1) else x
    else (g, 0) :: r

/-- Change one task input. -/
def Dev.modTask (d : Dev) (t : Nat) (f : TaskIn → TaskIn) : Dev :=
  { d with evt := { d.evt with task := d.evt.task.set (Fin.ofNat 128 (t - 1)) (f d.evt.task[Fin.ofNat 128 (t - 1)]) } }

/-- A task input takes its trigger, or drops it while busy (R383). Then the edges that it caused (R376). -/
def Dev.taskInput (d : Dev) (g : Trig × Nat) : Dev × List Ev :=
  let d := if 0 < g.2 then d.modTask g.1.task fun x => { x with merged := x.merged + 1 } else d
  if taskBusy g.1.task && d.now < (d.evt.task[Fin.ofNat 128 (g.1.task - 1)]).busyUntil then
    (d.modTask g.1.task fun x => { x with ovr := true }, [])
  else
    let e := d.runTask g.1
    let e := if taskBusy g.1.task then e.modTask g.1.task fun x => { x with busyUntil := d.now + 1 } else e
    (e, edgeEvents d.gpioLevel e.gpioLevel g.1.hop)

/-- All task inputs of one handshake. -/
def Dev.taskInputs : List (Trig × Nat) → Dev → Dev × List Ev
  | [], d => (d, [])
  | g :: l, d =>
    let r := d.taskInput g
    let s := Dev.taskInputs l r.1
    (s.1, r.2 ++ s.2)

/-- Events and the triggers that follow, round by round. Each round raises the hop count of what it forwards, and an
event of hop count 7 is dropped (R379), so nine rounds end every chain. -/
def Dev.runEvents : Nat → List Ev → Dev → Dev
  | 0, _, d => d
  | k + 1, evs, d =>
    if evs = [] then d
    else
      let r := Dev.reachChannels evs (List.finRange 64) d
      let s := Dev.taskInputs (mergeTrigs r.2.1) r.1
      Dev.runEvents k (r.2.2 ++ s.2) s.1

/-- Producers fire in one handshake (R376). Without power, or in HOLD and STANDBY, nothing fires. -/
def Dev.fire (d : Dev) (evs : List Ev) : Dev := if d.datumCounts then Dev.runEvents 9 evs d else d

/-- What channels forward outside a round of producers (firing by software, the end of a filter window). -/
def Dev.afterForward (r : Dev × List Trig × List Ev) : Dev :=
  let s := Dev.taskInputs (mergeTrigs r.2.1) r.1
  s.1.fire (r.2.2 ++ s.2)

/-- Software fires channels as primary events (R383): each handles its own event. -/
def Dev.fireChannels : List (Fin 64) → Dev → Dev × List Trig × List Ev
  | [], d => (d, [], [])
  | n :: l, d =>
    let r := d.channelEvent n 0
    let s := Dev.fireChannels l r.1
    (s.1, r.2.1 ++ s.2.1, r.2.2 ++ s.2.2)

/-- A write of EVT_FIRE0 (channels 0 to 31) or EVT_FIRE1 (R383). -/
def Dev.evtFire (d : Dev) (base : Nat) (v : Word) : Dev :=
  Dev.afterForward
    (d.fireChannels (((List.range 32).filter fun i => bit v i).map fun i => Fin.ofNat 64 (base + i)))

/-- The filter window of cell j ends (R381). -/
def Dev.filterEnd (d : Dev) (j : Fin 16) : Dev :=
  match (d.evt.lut[j]).heldEvt with
  | none => d
  | some (n, h, at_) =>
    let d := d.until_ at_
    let d := d.modLut j fun x => { x with heldEvt := none }
    let r := d.lutEval j
    if r.2 then Dev.afterForward (r.1.forward n h) else r.1

/-- Producer code of ZERO of timer i. -/
def zeroCode (t : Fin 16) : Nat := t.val + 1

/-- One counting step of a chained timer, caused by its partner's ZERO in the same handshake (R388). -/
def Dev.chainStep (d : Dev) (t : Fin 16) : Dev × List Ev :=
  let x := d.timer t
  if t.val % 2 = 1 ∧ x.chainRun ∧ x.run then
    if x.cnt = 0 then (d.modTimer t fun y => y.zeroStep d.now, [⟨zeroCode t, 0⟩])
    else (d.modTimer t fun y => { y with cnt := y.cnt - 1 }, [])
  else (d, [])

/-- The zero step of timer t with hop count h, with the chained step it causes (R386, R388). -/
def Dev.timerZero (d : Dev) (t : Fin 16) (h : Nat) : Dev :=
  let d := d.modTimer t fun y => y.zeroStep d.now
  let r := if t.val % 2 = 0 then d.chainStep (Fin.ofNat 16 (t.val + 1)) else (d, [])
  r.1.fire (⟨zeroCode t, h⟩ :: r.2)

/-- Starts and stops that come before a timer's next prescaled tick take effect. -/
def Dev.timerSettle (d : Dev) (t : Fin 16) : Dev :=
  let x := d.timer t
  match x.sched.getLast? with
  | some (_, a) => if x.run && !x.chainRun && x.nextAt < a then d else d.until_ a
  | none => d

/-- The next step of a timer falls due: a forced zero step on its tick (R387), else a prescaled tick (R386). A
prescaled tick on the forced tick is that same step.
(Log entry 66 DESIGN CHOICE.) -/
def Dev.timerStep (d : Dev) (t : Fin 16) : Dev :=
  let d := d.timerSettle t
  let x := d.timer t
  let own := x.run && !x.chainRun
  match x.forced with
  | some (h, at_) =>
    if own && x.nextAt < at_ then
      let d := (d.until_ x.nextAt).modTimer t fun y => { y with nextAt := y.nextAt + Timer.period y.preRun }
      if x.cnt = 0 then d.timerZero t 0 else d.modTimer t fun y => { y with cnt := y.cnt - 1 }
    else
      let d := (d.until_ at_).modTimer t fun y =>
        { y with forced := none
                 nextAt := if own && x.nextAt = at_ then y.nextAt + Timer.period y.preRun else y.nextAt }
      d.timerZero t h
  | none =>
    if own then
      let d := (d.until_ x.nextAt).modTimer t fun y => { y with nextAt := y.nextAt + Timer.period y.preRun }
      if x.cnt = 0 then d.timerZero t 0 else d.modTimer t fun y => { y with cnt := y.cnt - 1 }
    else d

/-- A write of TMRi_CTL (R387, R395): the fields first, then STOP, FORCE, START. -/
def Dev.timerCtl (d : Dev) (t : Fin 16) (v : Word) : Dev :=
  let d := d.modTimer t fun x =>
    { x with oneshot := bit v 4, chain := bit v 5 && t.val % 2 = 1, pre := fld v 8 5, out := bit v 16 }
  let d := if bit v 1 then d.modTimer t fun x => x.stop d.now else d
  let d := if bit v 2 then d.modTimer t fun x => { x with forced := some (0, d.now + 1) } else d
  if bit v 0 then d.modTimer t fun x => x.start d.now else d

/-- A write of TMR_GO: the masked timers start on one datum tick (R387). -/
def Dev.timerGo (d : Dev) (v : Word) : Dev :=
  { d with evt := { d.evt with tmr := Vector.ofFn fun i => if bit v i.val then (d.timer i).start d.now else d.evt.tmr[i] } }

/-- A change of what the GPIO block drives fires edges (R385), with hop count h. -/
def Dev.gpioChange (d : Dev) (f : Events → Events) (h : Nat) : Dev :=
  let e := { d with evt := f d.evt }
  e.fire (edgeEvents d.gpioLevel e.gpioLevel h)

/-- EVT_CTL.CLR (R394). -/
def Dev.evtClear (d : Dev) : Dev :=
  { d with evt := { d.evt with
      ch := vmap d.evt.ch fun c => { c with merged := 0, fwd := 0 }
      lut := vmap d.evt.lut fun c => { c with drops := 0 }
      task := vmap d.evt.task fun c => { c with merged := 0 } } }

/-- Status word of a timer (R395). -/
def Timer.stat (t : Timer) : Word :=
  pack [(0, b2n t.run), (1, b2n t.zero), (2, b2n t.captNew), (3, b2n t.captOvr), (4, b2n t.late)]

/-- Timer registers: the word at an offset below 0x0408 of the timer page (R395), with the read of CAPT apart. -/
def Dev.timerRead (d : Dev) (o : Nat) : Option Word :=
  if o < 0x200 then
    let t := d.timer (Fin.ofNat 16 (o / 0x20))
    match o % 0x20 with
    | 0x00 => some t.cnt
    | 0x04 => some t.load
    | 0x08 => some (pack [(4, b2n t.oneshot), (5, b2n t.chain), (8, t.pre), (16, b2n t.out)])
    | 0x0C => some t.stat
    | 0x10 => some t.capt
    | _ => none
  else if o = 0x400 then some 0
  else if o = 0x404 then
    some (BitVec.ofNat 32 (bitsNat ((List.finRange 16).map fun i => (d.timer i).run)))
  else none

/-- A read of TMRi_CAPT clears CAPT_NEW (R389). -/
def Dev.timerReadEffect (d : Dev) (o : Nat) : Dev :=
  if o < 0x200 ∧ o % 0x20 = 0x10 then d.modTimer (Fin.ofNat 16 (o / 0x20)) fun t => { t with captNew := false } else d

/-- A write of TMRi_LOAD (R392). One that comes on the tick of a reload may have shared its handshake; which of the two
went first the spec does not fix, so a free value says whether SHADOW_LATE sets.
(Log entry 72 DEDUCED.) -/
def Dev.timerLoad (d : Dev) (t : Fin 16) (v : Word) : Dev :=
  if (d.timer t).reloadT = some d.now then
    (d.modTimer t fun x => { x with load := v, late := x.late || d.freeNow % 2 = 1 }).took
  else d.modTimer t fun x => { x with load := v }

/-- Writes of the timer registers; `none` where the offset is not a register (R9). -/
def Dev.timerWrite (d : Dev) (o : Nat) (v : Word) : Option Dev :=
  if o < 0x200 then
    let t : Fin 16 := Fin.ofNat 16 (o / 0x20)
    match o % 0x20 with
    | 0x00 => some d
    | 0x04 => some (d.timerLoad t v)
    | 0x08 => some (d.timerCtl t v)
    | 0x0C => some (d.modTimer t fun x =>
        { x with zero := x.zero && !bit v 1, captOvr := x.captOvr && !bit v 3, late := x.late && !bit v 4 })
    | 0x10 => some d
    | _ => none
  else if o = 0x400 then some (d.timerGo v)
  else if o = 0x404 then some d
  else none

/-- The event page (R394). -/
def Dev.eventRead (d : Dev) (o : Nat) : Option Word :=
  if o < 0x800 then
    let c := d.evt.ch[Fin.ofNat 64 (o / 0x20)]
    match o % 0x20 with
    | 0x00 => some c.src
    | 0x04 => some c.taska
    | 0x08 => some c.taskb
    | 0x0C => some c.cfg
    | 0x10 => some (pack [(0, b2n c.loop), (8, c.merged.toNat), (16, c.fwd.toNat)])
    | 0x14 => some (lo32 c.t)
    | 0x18 => some (hi32 c.t)
    | _ => none
  else if o < 0x900 then
    let c := d.evt.lut[Fin.ofNat 16 ((o - 0x800) / 0x10)]
    match o % 0x10 with
    | 0x0 => some c.cfg
    | 0x4 => some c.inp
    | 0x8 => some (pack [(0, b2n c.q), (16, c.drops.toNat)])
    | _ => none
  else if o = 0x900 ∨ o = 0x904 ∨ o = 0x908 then some 0
  else if 0xA04 ≤ o ∧ o ≤ 0xC00 ∧ o % 4 = 0 then
    let t := d.evt.task[Fin.ofNat 128 ((o - 0xA04) / 4)]
    some (pack [(0, b2n t.ovr), (8, t.merged.toNat)])
  else if o = 0x1000 then some (d.gpioLevel.setWidth 32)
  else if o = 0x1004 then some (d.evt.gpioOut.setWidth 32)
  else if o = 0x1008 then some (d.evt.gpioOe.setWidth 32)
  else if o = 0x100C then some (d.evt.gpioWake.setWidth 32)
  else none

/-- Writes of the event page (R384, R394). -/
def Dev.eventWrite (d : Dev) (o : Nat) (v : Word) : Option Dev :=
  if o < 0x800 then
    let n : Fin 64 := Fin.ofNat 64 (o / 0x20)
    match o % 0x20 with
    | 0x00 => some (d.modEvt n fun c => { c with src := v })
    | 0x04 => some (d.modEvt n fun c => { c with taska := v })
    | 0x08 => some (d.modEvt n fun c => { c with taskb := v })
    | 0x0C => some (d.modEvt n fun c => { c with cfg := v &&& 0xF1 })
    | 0x10 => some (d.modEvt n fun c => { c with loop := c.loop && !bit v 0 })
    | 0x14 => some d
    | 0x18 => some d
    | _ => none
  else if o < 0x900 then
    let j : Fin 16 := Fin.ofNat 16 ((o - 0x800) / 0x10)
    match o % 0x10 with
    | 0x0 => some (d.modLut j fun c => { c with cfg := v &&& 0x1FF1FF })
    | 0x4 => some (d.modLut j fun c => { c with inp := v &&& 0x7F7F7F })
    | 0x8 => some (d.modLut j fun c => { c with q := bit v 0 })
    | _ => none
  else if o = 0x900 then some (d.evtFire 0 v)
  else if o = 0x904 then some (d.evtFire 32 v)
  else if o = 0x908 then some (if bit v 0 then d.evtClear else d)
  else if 0xA04 ≤ o ∧ o ≤ 0xC00 ∧ o % 4 = 0 then
    some (d.modTask ((o - 0xA00) / 4) fun t => { t with ovr := t.ovr && !bit v 0 })
  else if o = 0x1000 then some d
  else if o = 0x1004 then some (d.gpioChange (fun e => { e with gpioOut := v.setWidth 16 }) 0)
  else if o = 0x1008 then some (d.gpioChange (fun e => { e with gpioOe := v.setWidth 16 }) 0)
  else if o = 0x100C then some { d with evt := { d.evt with gpioWake := v.setWidth 16 } }
  else none

/-- The producers of a region's or port's parts fire only while they are in service and awake (R376). -/
def Dev.portAwake (d : Dev) (p : PortId) : Bool :=
  let r := regionOfPort p
  !(d.regions[r]).retired && !(d.ports[p]).rx.retired && !(d.regions[r]).pwr.domsleep.getLsbD (localOfPort p).val
    && d.pwr.now = .on

end Sys2Proof.Machine
end

