-- ==== Sys2Proof/Machine/Crypto.lean ====
section
/-! DEFINITION. The cipher, hash and check functions: AES-128 and AES-256, CMAC (NIST SP 800-38B), CCM (SP 800-38C,
R152), the KDF of SP 800-108 (R158, R210), KW (SP 800-38F, R218), SHA-256, LMS verification (RFC 8554 Algorithm 6a,
R224), CRC-32 (R247). Tables stand as one number each, element 0 lowest. -/

namespace Sys2Proof.Machine

/-- The S-box of AES, byte i at bits [8i + 7 : 8i]. -/
def sboxTable : Nat :=
  0x16bb54b00f2d99416842e6bf0d89a18cdf2855cee9871e9b948ed9691198f8e19e1dc186b95735610ef6034866b53e708a8bbd4b1f74dde8c6b4a61c2e2578ba08ae7a65eaf4566ca94ed58d6d37c8e779e4959162acd3c25c2406490a3a32e0db0b5ede14b8ee4688902a22dc4f816073195d643d7ea7c41744975fec130ccdd2f3ff1021dab6bcf5389d928f40a351a89f3c507f02f94585334d43fbaaefd0cf584c4a39becb6a5bb1fc20ed00d153842fe329b3d63b52a05a6e1b1a2c830975b227ebe28012079a059618c323c7041531d871f1e5a534ccf73f362693fdb7c072a49cafa2d4adf04759fa7dc982ca76abd7fe2b670130c56f6bf27b777c63

/-- The inverse S-box of AES. -/
def isboxTable : Nat :=
  0x7d0c2155631469e126d677ba7e042b17619953833cbbebc8b0f52aae4d3be0a0ef9cc9939f7ae52d0d4ab519a97f51605fec8027591012b131c7078833a8dd1ff45acd78fec0db9a2079d2c64b3e56fc1bbe18aa0e62b76f89c5291d711af1476edf751ce837f9e28535ade72274ac9673e6b4f0cecff297eadc674f4111913a6b8a130103bdafc1020f3fca8f1e2cd00645b3b80558e4f70ad3bc8c00abd890849d8da75746155edab9edfd5048706c92b6655dcc5ca4d41698688664f6f87225d18b6d49a25b76b224d92866a12e084ec3fa420b954cee3d23c2a632947b54cbe9dec444438e3487ff2f9b8239e37cfbd7f3819ea340bf38a53630d56a0952

/-- One byte through the S-box. -/
def sbox (b : Byte) : Byte := BitVec.ofNat 8 (sboxTable >>> (8 * b.toNat))

/-- One byte through the inverse S-box. -/
def isbox (b : Byte) : Byte := BitVec.ofNat 8 (isboxTable >>> (8 * b.toNat))

/-- Exclusive or of two strings, as long as the shorter. -/
def xorBytes (a b : List Byte) : List Byte := List.zipWith (· ^^^ ·) a b

/-- Multiplication by x in the field of AES. -/
def xtime (b : Byte) : Byte := (b <<< 1) ^^^ (if b.getLsbD 7 then 0x1B#8 else 0#8)

/-- The round constant i (from 1) of the key expansion. -/
def rcon : Nat → Byte
  | 0 => 0
  | 1 => 1
  | n + 2 => xtime (rcon (n + 1))

/-- The words of the key schedule, newest first: `fuel` more words, for a key of nk words (FIPS 197). -/
def expandKey (nk : Nat) : Nat → Nat → List (List Byte) → List (List Byte)
  | 0, _, ws => ws
  | fuel + 1, i, ws =>
    let prev := ws.headD []
    let back := ws.getD (nk - 1) []
    let t := if i % nk = 0 then xorBytes ((prev.drop 1 ++ prev.take 1).map sbox) [rcon (i / nk), 0, 0, 0]
      else if nk > 6 ∧ i % nk = 4 then prev.map sbox else prev
    expandKey nk fuel (i + 1) (xorBytes back t :: ws)

/-- The words of a key, newest first. -/
def keyWords : List Byte → List (List Byte) → List (List Byte)
  | a :: b :: c :: e :: l, ws => keyWords l ([a, b, c, e] :: ws)
  | _, ws => ws

/-- Four words as the 16 bytes of a round key. -/
def roundKeys : List (List Byte) → List (List Byte)
  | a :: b :: c :: e :: l => (a ++ b ++ c ++ e) :: roundKeys l
  | _ => []

/-- The round keys of a 16- or 32-byte key. -/
def schedule (key : List Byte) : List (List Byte) :=
  let nk := key.length / 4
  roundKeys (expandKey nk (4 * (nk + 7) - nk) nk (keyWords key [])).reverse

/-- ShiftRows: byte i of the result is byte 5i mod 16. -/
def shiftRows (s : List Byte) : List Byte := (List.range 16).map fun i => byteAt s (5 * i % 16)

/-- Inverse ShiftRows. -/
def unshiftRows (s : List Byte) : List Byte := (List.range 16).map fun i => byteAt s (13 * i % 16)

/-- MixColumns, column by column. -/
def mixCols : List Byte → List Byte
  | a :: b :: c :: e :: l =>
    (xtime a ^^^ (xtime b ^^^ b) ^^^ c ^^^ e) :: (a ^^^ xtime b ^^^ (xtime c ^^^ c) ^^^ e) ::
    (a ^^^ b ^^^ xtime c ^^^ (xtime e ^^^ e)) :: ((xtime a ^^^ a) ^^^ b ^^^ c ^^^ xtime e) :: mixCols l
  | _ => []

/-- Multiplications by 9, 11, 13 and 14 in the field of AES. -/
def mul9 (a : Byte) : Byte := xtime (xtime (xtime a)) ^^^ a
/-- by 11 -/
def mul11 (a : Byte) : Byte := xtime (xtime (xtime a)) ^^^ xtime a ^^^ a
/-- by 13 -/
def mul13 (a : Byte) : Byte := xtime (xtime (xtime a)) ^^^ xtime (xtime a) ^^^ a
/-- by 14 -/
def mul14 (a : Byte) : Byte := xtime (xtime (xtime a)) ^^^ xtime (xtime a) ^^^ xtime a

/-- Inverse MixColumns. -/
def unmixCols : List Byte → List Byte
  | a :: b :: c :: e :: l =>
    (mul14 a ^^^ mul11 b ^^^ mul13 c ^^^ mul9 e) :: (mul9 a ^^^ mul14 b ^^^ mul11 c ^^^ mul13 e) ::
    (mul13 a ^^^ mul9 b ^^^ mul14 c ^^^ mul11 e) :: (mul11 a ^^^ mul13 b ^^^ mul9 c ^^^ mul14 e) :: unmixCols l
  | _ => []

/-- The rounds after the first key addition. -/
def encRounds : List (List Byte) → List Byte → List Byte
  | [], s => s
  | [k], s => xorBytes (shiftRows (s.map sbox)) k
  | k :: ks, s => encRounds ks (xorBytes (mixCols (shiftRows (s.map sbox))) k)

/-- The AES block function (FIPS 197). -/
def aes (key block : List Byte) : List Byte :=
  match schedule key with
  | [] => block
  | k :: ks => encRounds ks (xorBytes block k)

/-- The inverse rounds; the round keys come last key first. -/
def decRounds : List (List Byte) → List Byte → List Byte
  | [], s => s
  | [k], s => xorBytes ((unshiftRows s).map isbox) k
  | k :: ks, s => decRounds ks (unmixCols (xorBytes ((unshiftRows s).map isbox) k))

/-- The inverse AES block function. -/
def aesInv (key block : List Byte) : List Byte :=
  match (schedule key).reverse with
  | [] => block
  | k :: ks => decRounds ks (xorBytes block k)

/-- The 16-byte blocks of a string; the last may be short. `fuel` is at least their number. -/
def blocks16 : Nat → List Byte → List (List Byte)
  | 0, _ => []
  | _, [] => []
  | fuel + 1, l => l.take 16 :: blocks16 fuel (l.drop 16)

/-- Doubling of a subkey in CMAC. -/
def dbl (l : List Byte) : List Byte :=
  let n := bytesNatBE l
  natBytesBE 16 ((n <<< 1) % 2 ^ 128 ^^^ (if n.testBit 127 then 0x87 else 0))

/-- CBC chaining of whole blocks. -/
def cbc (key : List Byte) : List Byte → List (List Byte) → List Byte
  | x, [] => x
  | x, b :: bs => cbc key (aes key (xorBytes x b)) bs

/-- AES-CMAC (NIST SP 800-38B), 16 bytes. -/
def cmac (key msg : List Byte) : List Byte :=
  let k1 := dbl (aes key (List.replicate 16 0))
  let bs := blocks16 (msg.length / 16 + 1) msg
  let last := bs.getLastD []
  let fin := if last.length = 16 then xorBytes last k1
    else xorBytes (padTo 16 (last ++ [0x80#8])) (dbl k1)
  cbc key (List.replicate 16 0) (bs.dropLast ++ [fin])

/-- The truncated tag of R153. -/
def cmacTag (key msg : List Byte) : List Byte := (cmac key msg).take 8

/-- Counter block i of CCM (q = 2). -/
def ctrBlock (nonce : List Byte) (i : Nat) : List Byte := [0x01#8] ++ nonce ++ natBytesBE 2 i

/-- The key stream of CCM over n blocks from counter i. -/
def keyStream (key nonce : List Byte) : Nat → Nat → List Byte
  | 0, _ => []
  | n + 1, i => aes key (ctrBlock nonce i) ++ keyStream key nonce n (i + 1)

/-- A string filled with zeros to whole blocks. -/
def padBlocks (l : List Byte) : List Byte := l ++ List.replicate ((16 - l.length % 16) % 16) 0

/-- The 8-byte tag of CCM (R152): additional data a, plaintext p. -/
def ccmTag (key nonce a p : List Byte) : List Byte :=
  let b := [0x59#8] ++ nonce ++ natBytesBE 2 p.length ++ padBlocks (natBytesBE 2 a.length ++ a) ++ padBlocks p
  (xorBytes (cbc key (List.replicate 16 0) (blocks16 (b.length / 16) b)) (aes key (ctrBlock nonce 0))).take 8

/-- The counter-mode part of CCM, which is its own inverse. -/
def ccmCrypt (key nonce p : List Byte) : List Byte := xorBytes p (keyStream key nonce ((p.length + 15) / 16) 1)

/-- CCM encryption: ciphertext, then tag. -/
def ccmEnc (key nonce a p : List Byte) : List Byte := ccmCrypt key nonce p ++ ccmTag key nonce a p

/-- CCM decryption: the plaintext if the tag verifies. -/
def ccmDec (key nonce a c tag : List Byte) : Option (List Byte) :=
  let p := ccmCrypt key nonce c
  if ccmTag key nonce a p = tag then some p else none

/-- The session key S of R158 from J and the 14-byte context X. -/
def deriveS (j x : List Byte) : List Byte :=
  let blk (i : Nat) := cmac j (natBytesBE 1 i ++ [0x48#8, 0x56#8, 0x53#8, 0x4B#8] ++ [0x00#8] ++ x ++ natBytesBE 2 (8 * j.length))
  if j.length = 32 then blk 1 ++ blk 2 else blk 1

/-- A key derived from DUS (R210): 256 bits, no context. -/
def deriveDus (label : List Byte) : List Byte :=
  let k := natBytesBE 32 Config.dus.toNat
  let blk (i : Nat) := cmac k (natBytesBE 1 i ++ label ++ [0x00#8] ++ natBytesBE 2 256)
  blk 1 ++ blk 2

/-- KSEAL, the key that seals the key store and the attestation counter (R209, R210). -/
def kseal : List Byte := deriveDus [0x53#8, 0x45#8, 0x41#8, 0x4C#8]

/-- The attestation seed (R209, R210). -/
def attSeed : List Byte := deriveDus [0x41#8, 0x54#8, 0x54#8]

/-- KCFG, the key of config-record tags (R209, R210, R231). -/
def kcfg : List Byte := deriveDus [0x43#8, 0x46#8, 0x47#8]

/-- The pass over the halves of KW: A and R1 … Rn, step counter t. -/
def kwPass (key : List Byte) : Nat → List Byte → List (List Byte) → List (List Byte) → List Byte × List (List Byte)
  | _, a, [], out => (a, out.reverse)
  | t, a, r :: rs, out =>
    let b := aes key (a ++ r)
    kwPass key (t + 1) (xorBytes (b.take 8) (natBytesBE 8 t)) rs (b.drop 8 :: out)

/-- The six passes of KW. -/
def kwRounds (key : List Byte) : Nat → Nat → List Byte → List (List Byte) → List Byte × List (List Byte)
  | 0, _, a, rs => (a, rs)
  | j + 1, t, a, rs =>
    let x := kwPass key t a rs []
    kwRounds key j (t + rs.length) x.1 x.2

/-- 8-byte pieces of a string. -/
def pieces8 : Nat → List Byte → List (List Byte)
  | 0, _ => []
  | n + 1, l => l.take 8 :: pieces8 n (l.drop 8)

/-- AES key wrap KW of NIST SP 800-38F. -/
def kwWrap (key plain : List Byte) : List Byte :=
  let x := kwRounds key 6 1 (List.replicate 8 0xA6#8) (pieces8 (plain.length / 8) plain)
  x.1 ++ x.2.flatten

/-- One pass of the inverse, from Rn to R1. -/
def kwUnpass (key : List Byte) : Nat → List Byte → List (List Byte) → List (List Byte) → List Byte × List (List Byte)
  | _, a, [], out => (a, out)
  | t, a, r :: rs, out =>
    let b := aesInv key (xorBytes a (natBytesBE 8 t) ++ r)
    kwUnpass key (t - 1) (b.take 8) rs (b.drop 8 :: out)

/-- The six passes of the inverse. -/
def kwUnrounds (key : List Byte) : Nat → Nat → List Byte → List (List Byte) → List Byte × List (List Byte)
  | 0, _, a, rs => (a, rs)
  | j + 1, t, a, rs =>
    let x := kwUnpass key t a rs.reverse []
    kwUnrounds key j (t - rs.length) x.1 x.2

/-- The inverse of KW: the plain string if the integrity check passes. -/
def kwUnwrap (key c : List Byte) : Option (List Byte) :=
  let n := c.length / 8 - 1
  let x := kwUnrounds key 6 (6 * n) (c.take 8) (pieces8 n (c.drop 8))
  if x.1 = List.replicate 8 0xA6#8 then some x.2.flatten else none

/-- The round constants of SHA-256, constant i at bits [32i + 31 : 32i]. -/
def shaTable : Nat :=
  0xc67178f2bef9a3f7a4506ceb90befffa8cc7020884c8781478a5636f748f82ee682e6ff35b9cca4f4ed8aa4a391c0cb334b0bcb52748774c1e376c0819a4c116106aa070f40e3585d6990624d192e819c76c51a3c24b8b70a81a664ba2bfe8a192722c8581c2c92e766a0abb650a735453380d134d2c6dfc2e1b213827b70a851429296706ca6351d5a79147c6e00bf3bf597fc7b00327c8a831c66d983e515276f988da5cb0a9dc4a7484aa2de92c6f240ca1cc0fc19dc6efbe4786e49b69c1c19bf1749bdc06a780deb1fe72be5d74550c7dc3243185be12835b01d807aa98ab1c5ed5923f82a459f111f13956c25be9b5dba5b5c0fbcf71374491428a2f98

/-- Round constant i. -/
def shaK (i : Nat) : Word := BitVec.ofNat 32 (shaTable >>> (32 * i))

/-- The initial hash value of SHA-256. -/
def shaInit : List Word := [0x6A09E667#32, 0xBB67AE85#32, 0x3C6EF372#32, 0xA54FF53A#32, 0x510E527F#32, 0x9B05688C#32, 0x1F83D9AB#32, 0x5BE0CD19#32]

/-- The message schedule, newest first. -/
def shaExpand : Nat → List Word → List Word
  | 0, w => w
  | n + 1, w =>
    let a := w.getD 14 0
    let b := w.getD 1 0
    let s0 := a.rotateRight 7 ^^^ a.rotateRight 18 ^^^ (a >>> 3)
    let s1 := b.rotateRight 17 ^^^ b.rotateRight 19 ^^^ (b >>> 10)
    shaExpand n ((w.getD 15 0 + s0 + w.getD 6 0 + s1) :: w)

/-- One round on the eight working words. -/
def shaRound (i : Nat) (w : Word) : List Word → List Word
  | [a, b, c, e, f, g, h, k] =>
    let s1 := f.rotateRight 6 ^^^ f.rotateRight 11 ^^^ f.rotateRight 25
    let ch := (f &&& g) ^^^ (~~~f &&& h)
    let t1 := k + s1 + ch + shaK i + w
    let s0 := a.rotateRight 2 ^^^ a.rotateRight 13 ^^^ a.rotateRight 22
    let mj := (a &&& b) ^^^ (a &&& c) ^^^ (b &&& c)
    [t1 + (s0 + mj), a, b, c, e + t1, f, g, h]
  | l => l

/-- The rounds over a schedule. -/
def shaRounds : Nat → List Word → List Word → List Word
  | _, [], s => s
  | i, w :: ws, s => shaRounds (i + 1) ws (shaRound i w s)

/-- One block into the hash value. -/
def shaBlock (h : List Word) (blk : List Byte) : List Word :=
  let w := (List.range 16).map fun i => BitVec.ofNat 32 (bytesNatBE (slice blk (4 * i) 4))
  List.zipWith (· + ·) h (shaRounds 0 (shaExpand 48 w.reverse).reverse h)

/-- Blocks of 64 bytes into the hash value. `fuel` is their number. -/
def shaBlocks : Nat → List Byte → List Word → List Word
  | 0, _, h => h
  | n + 1, l, h => shaBlocks n (l.drop 64) (shaBlock h (l.take 64))

/-- SHA-256, 32 bytes. -/
def sha256 (m : List Byte) : List Byte :=
  let z := (119 - m.length % 64) % 64
  let p := m ++ [0x80#8] ++ List.replicate z 0 ++ natBytesBE 8 (8 * m.length)
  ((shaBlocks (p.length / 64) p shaInit).map fun w => natBytesBE 4 w.toNat).flatten

/-- The chain of an LMOTS signature element from step j, `n` steps (RFC 8554 Algorithm 4b). -/
def otsChain (pre : List Byte) : Nat → Nat → List Byte → List Byte
  | 0, _, t => t
  | n + 1, j, t => otsChain pre n (j + 1) (sha256 (pre ++ natBytesBE 1 j ++ t))

/-- The 67 nibbles of Q and its checksum (w = 4). -/
def otsCoefs (q : List Byte) : List Nat :=
  let nib (l : List Byte) : List Nat := (l.map fun b => [b.toNat / 16, b.toNat % 16]).flatten
  let a := nib q
  let sum := (a.map fun x => 15 - x).sum
  a ++ (nib (natBytesBE 2 (sum * 16))).take 3

/-- The elements of the LMOTS public key candidate. -/
def otsElems (iq : List Byte) : Nat → List Nat → List Byte → List Byte
  | _, [], _ => []
  | i, a :: as, y => otsChain (iq ++ natBytesBE 2 i) (15 - a) a (y.take 32) ++ otsElems iq (i + 1) as (y.drop 32)

/-- The walk up an LMS tree; `fuel` is its height. -/
def lmsPath (id : List Byte) : Nat → Nat → List Byte → List Byte → List Byte
  | 0, _, t, _ => t
  | n + 1, node, t, path =>
    let pre := id ++ natBytesBE 4 (node / 2) ++ [0x83#8, 0x83#8]
    let t' := if node % 2 = 1 then sha256 (pre ++ path.take 32 ++ t) else sha256 (pre ++ t ++ path.take 32)
    lmsPath id n (node / 2) t' (path.drop 32)

/-- LMS verification (RFC 8554 Algorithm 6a) for LMS_SHA256_M32_H15 with LMOTS_SHA256_N32_W4 (R224): a 56-byte
public key, a 2668-byte signature, a message. -/
def lmsVerify (pub sig msg : List Byte) : Bool :=
  let id := slice pub 8 16
  let q := bytesNatBE (sig.take 4)
  let iq := id ++ sig.take 4
  let hq := sha256 (iq ++ [0x81#8, 0x81#8] ++ slice sig 8 32 ++ msg)
  let kc := sha256 (iq ++ [0x80#8, 0x80#8] ++ otsElems iq 0 (otsCoefs hq) (slice sig 40 2144))
  let leaf := sha256 (id ++ natBytesBE 4 (2 ^ 15 + q) ++ [0x82#8, 0x82#8] ++ kc)
  pub.length = 56 && sig.length = 2668 && bytesNatBE (pub.take 4) = 7 && bytesNatBE (slice pub 4 4) = 3 &&
  bytesNatBE (slice sig 4 4) = 3 && bytesNatBE (slice sig 2184 4) = 7 && decide (q < 2 ^ 15) &&
  lmsPath id 15 (2 ^ 15 + q) leaf (slice sig 2188 480) = slice pub 24 32

/-- Eight shifts of the reflected CRC-32 register. -/
def crcShift : Nat → Nat → Nat
  | 0, r => r
  | n + 1, r => crcShift n (if r % 2 = 1 then (r / 2) ^^^ 0xEDB88320 else r / 2)

/-- The CRC-32 register after a string. -/
def crcBytes : List Byte → Nat → Nat
  | [], r => r
  | b :: l, r => crcBytes l (crcShift 8 (r ^^^ b.toNat))

/-- CRC-32 of R247. -/
def crc32 (l : List Byte) : Word := BitVec.ofNat 32 (crcBytes l 0xFFFFFFFF ^^^ 0xFFFFFFFF)

end Sys2Proof.Machine
end

