-- ==== Sys2Proof/Machine/Air.lean ====
section
/-! DEFINITION. The air interface (R36 to R62): symbol times, sync symbols, header and payload coding and their
inverses. Received bits that are no code word are decoded by `Config.decoderGuess` (log entry 8). -/

namespace Sys2Proof.Machine

/-- Ticks of one chip at a bandwidth code (R129). -/
def chipTicks (bw : Nat) : Nat := 3200 / 2 ^ bw

/-- Ticks of one symbol, T = M / B (R36). -/
def symTicks (k bw : Nat) : Nat := 2 ^ k * chipTicks bw

/-- The Gray function (R53). -/
def gray (x : Nat) : Nat := x ^^^ (x >>> 1)

/-- Its inverse over m bits: bit i is the exclusive or of the bits from i up (R53). -/
def ungray : Nat → Nat → Nat
  | 0, _ => 0
  | m + 1, w => w ^^^ ungray m (w >>> 1)

/-- The symbol of a sync nibble (R44). -/
def syncSymbol (k v : Nat) : Nat := 2 ^ k / 32 + gray (v % 16) * (2 ^ k / 16)

/-- The nibble that a demodulated sync symbol carries (R44). -/
def syncNibble (k s : Nat) : Nat := ungray 4 (s / (2 ^ k / 16) % 16)

/-- The two sync symbols of a sync value, low nibble first. -/
def syncSymbols (k : Nat) (v : Byte) : List Nat := [syncSymbol k v.toNat, syncSymbol k (v.toNat / 16)]

/-- The sync value of two demodulated symbols. -/
def syncValue (k s0 s1 : Nat) : Byte := BitVec.ofNat 8 (syncNibble k s0 + 16 * syncNibble k s1)

/-- The values of the two frequency-sync downchirps (R42, R45). -/
def fsyncSymbols (k : Nat) : List Nat := [0, 2 ^ k / 2]

/-- The bins of the two dechirped downchirps lie M/2 apart within one bin (R45). -/
def fsyncHolds (k a b : Nat) : Bool :=
  let m := 2 ^ k
  let x := (b % m + m - a % m) % m
  m / 2 ≤ x + 1 && x ≤ m / 2 + 1

/-- Fields of the header (R48). -/
structure Header where
  len : Nat
  rate : Nat
  robust : Bool
  crcp : Bool
  deriving DecidableEq, Repr

/-- Bits h0 to h11 (R48). -/
def Header.data (h : Header) : List Bool := bitsOf 8 h.len ++ bitsOf 2 h.rate ++ [h.robust, h.crcp]

/-- One bit into the header CRC (R49). -/
def hcrcBit (r : Nat) (b : Bool) : Nat :=
  let sh := r * 2 % 256
  if xor b (r.testBit 7) then sh ^^^ 0x07 else sh

/-- HCRC over bits h0 to h11 (R49). -/
def hcrc (bits : List Bool) : Nat := bits.foldl hcrcBit 0xFF

/-- The 20 header bits. -/
def Header.bits (h : Header) : List Bool := h.data ++ bitsOf 8 (hcrc h.data)

/-- The header that 20 bits spell, if HCRC holds (R52). -/
def Header.ofBits (l : List Bool) : Option Header :=
  if bitsNat (l.drop 12) = hcrc (l.take 12) then
    some { len := bitsNat (l.take 8), rate := bitsNat ((l.drop 8).take 2), robust := l.getD 10 false,
           crcp := l.getD 11 false }
  else none

/-- The two coded bits A and B of an input bit; the history lists u at delays 1 to 6 (R57). -/
def convPair (u : Bool) (h : List Bool) : Bool × Bool :=
  let at_ := fun i => h.getD (i - 1) false
  (xor u (xor (at_ 2) (xor (at_ 3) (xor (at_ 5) (at_ 6)))),
   xor u (xor (at_ 1) (xor (at_ 2) (xor (at_ 3) (at_ 6)))))

/-- The convolutional encoder from a history. -/
def convEncode : List Bool → List Bool → List (Bool × Bool)
  | _, [] => []
  | h, u :: l => convPair u h :: convEncode ((u :: h).take 6) l

/-- Pairs in output order. -/
def flatPairs (l : List (Bool × Bool)) : List Bool := l.flatMap fun p => [p.1, p.2]

/-- The 40 coded header bits, tail-biting (R50). -/
def headerCode (l : List Bool) : List Bool := flatPairs (convEncode (l.reverse.take 6) l)

/-- The inverse of the encoder at rate 1/2 from a history: A gives each input bit. -/
def convInvert : List Bool → List Bool → List Bool
  | h, a :: _ :: l =>
    let u := xor a (convPair false h).1
    u :: convInvert ((u :: h).take 6) l
  | _, _ => []

/-- The header bits whose code word this is, if it is one: the 64 possible preloads are tried.
(Log entry 8 UNVERIFIED.) -/
def headerDecode (e : List Bool) : Option (List Bool) :=
  (List.range 64).findSome? fun s =>
    let u := convInvert (bitsOf 6 s) e
    if headerCode u = e then some u else none

/-- Number of header symbols N_H (R51). -/
def headerLen (k : Nat) : Nat :=
  match k with
  | 6 => 10 | 7 => 8 | 8 => 7 | 9 => 6 | 10 => 5 | 11 => 5 | _ => 4

/-- The symbol value of a word of m bits (R53). -/
def symbolOf (robust : Bool) (m w : Nat) : Nat := if robust then 4 * ungray m w else ungray m w

/-- The word of a demodulated symbol; a robust value is taken to the nearest multiple of four (R53, log entry 18).
(Log entry 18 DESIGN CHOICE.) -/
def wordOf (robust : Bool) (m s : Nat) : Nat := if robust then gray ((s + 1) / 4 % 2 ^ m) else gray (s % 2 ^ m)

/-- The header symbols (R51). -/
def headerSymbols (k : Nat) (h : Header) : List Nat :=
  let e := headerCode h.bits
  let n := headerLen k
  let m := k - 2
  (List.range n).map fun t => symbolOf true m (bitsNat ((List.range m).map fun i => e.getD (n * i + t) false))

/-- The coded header bits of received symbols. -/
def headerReceived (k : Nat) (sym : List Nat) : List Bool :=
  let n := headerLen k
  let m := k - 2
  (List.range 40).map fun j => (wordOf true m (sym.getD (j % n) 0)).testBit (j / n)

/-- What a lane makes of the header symbols (R51, R52).
(Log entry 8 UNVERIFIED.) -/
def headerOf (k : Nat) (sym : List Nat) : Option Header :=
  let e := headerReceived k sym
  Header.ofBits ((headerDecode e).getD (Config.decoderGuess 20 (e.map some)))

/-- One byte into CRC-16, most significant bit first (R54). -/
def crc16Byte (c : Nat) (b : Byte) : Nat :=
  (List.range 8).foldl (fun r _ => if r.testBit 15 then (r * 2 ^^^ 0x1021) % 65536 else r * 2 % 65536)
    (c ^^^ (b.toNat * 256))

/-- CRC-16 of R54. -/
def crc16 (l : List Byte) : Nat := l.foldl crc16Byte 0xFFFF

/-- n bits of the PN9 sequence from its nine last bits, the newest first (R55). -/
def pn9 : Nat → List Bool → List Bool
  | 0, _ => []
  | n + 1, h => let b := xor (h.getD 3 true) (h.getD 8 true); b :: pn9 n ((b :: h).take 9)

/-- The first n whitening bytes (R55). -/
def whiteBytes (n : Nat) : List Byte :=
  let bits := List.replicate 9 true ++ pn9 (8 * n) (List.replicate 9 true)
  (List.range n).map fun j => BitVec.ofNat 8 (bitsNat ((bits.drop (8 * j)).take 8))

/-- Whitening, which is its own inverse (R55). -/
def whiten (l : List Byte) : List Byte := List.zipWith (· ^^^ ·) l (whiteBytes l.length)

/-- The puncturing patterns (R58): for each position, whether A and B are kept. -/
def puncture (rate : Nat) : List (Bool × Bool) :=
  match rate with
  | 0 => [(true, true)]
  | 1 => [(true, true), (true, false)]
  | 2 => [(true, true), (true, false), (false, true)]
  | _ => [(true, true), (true, false), (false, true), (true, false), (false, true)]

/-- What puncturing keeps of a pair at position n. -/
def kept (rate n : Nat) (p : Bool × Bool) : List Bool :=
  let q := (puncture rate).getD (n % (puncture rate).length) (true, true)
  (if q.1 then [p.1] else []) ++ (if q.2 then [p.2] else [])

/-- The punctured bits of coded pairs from position n on (R58). -/
def punctureAll (rate : Nat) : Nat → List (Bool × Bool) → List Bool
  | _, [] => []
  | n, p :: l => kept rate n p ++ punctureAll rate (n + 1) l

/-- The number of kept bits at positions 0 to n − 1 (R59). -/
def keptCount (rate n : Nat) : Nat := (punctureAll rate 0 (List.replicate n (false, false))).length

/-- N_in (R56). -/
def inBits (len : Nat) (crcp : Bool) : Nat := 8 * (len + 2 * b2n crcp) + 6

/-- Bits per payload symbol (R36). -/
def symBits (k : Nat) (robust : Bool) : Nat := if robust then k - 2 else k

/-- N_B (R59): the interleaver blocks of a payload. -/
def payloadBlocks (k : Nat) (h : Header) : Nat :=
  let m := symBits k h.robust
  (keptCount h.rate (inBits h.len h.crcp) + 8 * m - 1) / (8 * m)

/-- The symbols of one block of 8·m coded bits (R60). -/
def blockWords (m : Nat) (c : List Bool) : List Nat :=
  (List.range 8).map fun t => bitsNat ((List.range m).map fun i => c.getD (8 * ((i + 8 * m - t) % m) + t) false)

/-- The coded bits of the words of one block, the inverse of `blockWords`. -/
def blockBits (m : Nat) (w : List Nat) : List (Option Bool) :=
  (List.range (8 * m)).map fun j => (w[j % 8]?).map fun x => x.testBit ((j / 8 + j % 8) % m)

/-- The bits that enter the encoder: payload, CRC, whitening, flush (R54 to R56). -/
def payloadBits (h : Header) (bytes : List Byte) : List Bool :=
  let b := if h.crcp then bytes ++ natBytes 2 (crc16 bytes) else bytes
  (whiten b).flatMap (fun x => bitsOf 8 x.toNat) ++ List.replicate 6 false

/-- The payload symbols (R57 to R60). -/
def payloadSymbols (k : Nat) (h : Header) (bytes : List Byte) : List Nat :=
  let m := symBits k h.robust
  let c := punctureAll h.rate 0 (convEncode [] (payloadBits h bytes))
  (List.range (payloadBlocks k h)).flatMap fun b =>
    (blockWords m (c.drop (8 * m * b))).map (symbolOf h.robust m)

/-- The inverse of encoding and puncturing from position n, history hs: every position keeps A or B, and each gives
its input bit. -/
def depuncture (rate : Nat) : Nat → Nat → List Bool → List Bool → List Bool
  | 0, _, _, _ => []
  | k + 1, n, hs, c =>
    let q := (puncture rate).getD (n % (puncture rate).length) (true, true)
    let p := convPair false hs
    let u := xor (c.getD 0 false) (if q.1 then p.1 else p.2)
    u :: depuncture rate k (n + 1) ((u :: hs).take 6) (c.drop (b2n q.1 + b2n q.2))

/-- The input bits whose code word this is, if it is one.
(Log entry 8 UNVERIFIED.) -/
def payloadDecode (rate nin : Nat) (c : List Bool) : Option (List Bool) :=
  let u := depuncture rate nin 0 [] c
  if punctureAll rate 0 (convEncode [] u) = c ∧ u.drop (nin - 6) = List.replicate 6 false then some u else none

/-- The coded bits of received payload symbols, a missing symbol as erasures; padding is left out (R59). -/
def payloadReceived (k : Nat) (h : Header) (sym : List Nat) : List (Option Bool) :=
  let m := symBits k h.robust
  let nc := keptCount h.rate (inBits h.len h.crcp)
  ((List.range (payloadBlocks k h)).flatMap fun b =>
    blockBits m (((sym.drop (8 * b)).take 8).map (wordOf h.robust m))).take nc

/-- The bytes that a lane makes of the payload symbols: payload and CRC as received, de-whitened.
(Log entry 8 UNVERIFIED.) -/
def payloadOf (k : Nat) (h : Header) (sym : List Nat) : List Byte :=
  let nin := inBits h.len h.crcp
  let c := payloadReceived k h sym
  let u :=
    match (if c.all Option.isSome then payloadDecode h.rate nin (c.filterMap id) else none) with
    | some u => u
    | none => Config.decoderGuess nin c
  whiten ((List.range (h.len + 2 * b2n h.crcp)).map fun j => BitVec.ofNat 8 (bitsNat ((u.drop (8 * j)).take 8)))

/-- Whether CRCP = 1 and the received CRC holds, over the bytes of `payloadOf`. -/
def crcHolds (h : Header) (b : List Byte) : Bool :=
  h.crcp && bytesNat (b.drop h.len) = crc16 (b.take h.len)

/-- The symbols of a frame after the sync instant: sync, frequency sync, header, payload (R47). -/
def symbolsAfterSync (k : Nat) (h : Header) : Nat := 4 + headerLen k + 8 * payloadBlocks k h

/-- Air time of a frame of N preamble symbols in ticks (R47). -/
def airTicks (k bw n : Nat) (h : Header) : Nat := (n + symbolsAfterSync k h) * symTicks k bw

/-- Centre frequency of a channel (R70). -/
def channelCentre (f chan bw : Nat) : Int :=
  if bw ≤ 1 then (f : Int) + (2 * (chan : Int) - 63) * 62500
  else if bw = 2 then (f : Int) + ((chan : Int) - 31) * 125000
  else (f : Int) + ((chan : Int) - 30) * 125000

/-- A span of n ticks of nominal time as a node with carrier offset FOFF sends it (R64, R91): its chip rate has the
same relative error as its carrier. Rounded to the nearest tick (log entry 18).
(Log entry 18 DESIGN CHOICE.) -/
def nodeTicks (centre foff : Int) (n : Nat) : Nat :=
  let den := 16 * centre + foff
  if den ≤ 0 then n else ((2 * (n : Int) * 16 * centre + den) / (2 * den)).toNat

/-- A measured level kept in its range (R88, R89).
(Log entry 18 DESIGN CHOICE.) -/
def clampInt (lo hi x : Int) : Int := max lo (min hi x)

/-- The linear mean, as a fraction, of (P_pk − P_n) / (M·P_n) over header symbols (R89): of each, the power of the decided
bin and the sum of the other M − 1 bins; none where a noise power is 0. -/
def snrMean (k : Nat) (l : List (Nat × Nat)) : Option (Int × Nat) :=
  let m := 2 ^ k
  if l.any (fun p => p.2 = 0) ∨ l = [] then none
  else
    let f := l.foldl (fun (a : Int × Nat) p =>
      (a.1 * (m * p.2 : Nat) + ((p.1 * (m - 1) : Nat) - (p.2 : Int)) * a.2, a.2 * (m * p.2))) ((0, 1) : Int × Nat)
    some (f.1, f.2 * l.length)

/-- SNR in 0.1 dB (R89): the index x of −320 to 400 nearest to 100·log10 of the mean, found by comparing 200th powers;
a mean that is not positive gives the lowest value, one without noise the highest.
(Log entry 18 DESIGN CHOICE.) -/
def snrTenths (k : Nat) (l : List (Nat × Nat)) : Int :=
  match snrMean k l with
  | none => 400
  | some (n, e) =>
    if n ≤ 0 then -320
    else (((List.range 720).find? fun y => n.toNat ^ 200 * 10 ^ 639 < e ^ 200 * 10 ^ (2 * y)).getD 720 : Int) - 320

end Sys2Proof.Machine
end

