-- ==== Sys2Proof/Machine/RxOps.lean ====
section
/-! DEFINITION. The lane pool of a region and what concerns frames in it (R69, R82 to R103): whether a port receives,
granting and lending lanes, aborting frames, second-look slices, delivery records. -/

namespace Sys2Proof.Machine

/-! ### Whether a port receives -/

/-- A stake of the port is ACTIVE. -/
def Port.stakeActive (p : Port) : Bool := (List.finRange 256).any fun n =>
  match p.sb.stakes[n] with | some k => k.state = .active | none => false

/-- The port block sleeps: it was asked to, and no stake of it is ACTIVE (R204, R409).
(Log entry 34 DEDUCED.) -/
def Dev.portAsleep (d : Dev) (p : PortId) : Bool :=
  (d.regions[regionOfPort p]).pwr.domsleep.getLsbD (localOfPort p).val && !(d.ports[p]).stakeActive

/-- Port blocks have power: in RUN and DOZE and during a start, not in DEAD (R405, R406, R417). -/
def Dev.rfPowered (d : Dev) : Bool := d.pwr.now = .on && (match d.pwr.phase with | .dead _ => false | _ => true)

/-- The port is in service: not retired, its region neither, powered and awake. -/
def Dev.portUp (d : Dev) (p : PortId) : Bool :=
  !(d.ports[p]).rx.retired && !(d.regions[regionOfPort p]).retired && d.rfPowered && !d.portAsleep p

/-- A calibration suspends receive (R136). -/
def Cal.busy (c : Cal) : Bool := c.step.isSome

/-- TXBLOCK: receive suspended by a transmission interval or a calibration (R69). -/
def Port.txBlock (p : Port) : Bool := p.tx.interval.isSome || p.cal.busy

/-- RXON (R69). -/
def Dev.rxOn (d : Dev) (p : PortId) : Bool :=
  let q := d.ports[p]
  bit q.rx.rxctl 0 && !q.txBlock && q.syn.hop.isNone && d.portUp p

/-! ### Lanes -/

/-- Global lane number (R5). -/
def globalLane (p : PortId) (i : LaneId) : Nat := 48 * p.val + i.val

/-- The frame a lane decodes. -/
def Lane.job (l : Lane) : Option LaneJob := match l.work with | .frame j => some j | _ => none

/-- The lane decodes a frame (BUSY). -/
def Lane.busy (l : Lane) : Bool := l.job.isSome

/-- A lane is free when it is not busy, not withheld and not retired; one that runs a plumb check is free (R82). -/
def Lane.free (l : Lane) : Bool := !l.busy && !l.withheld && !l.retired

/-- All lane numbers of a port, rising. -/
def allLanes : List LaneId := List.finRange 48

/-- Free lanes of a port (PORT_RXSTAT.LFREE). -/
def Port.freeLanes (p : Port) : List LaneId := allLanes.filter fun i => (p.rx.lanes[i]).free

/-- Every lane of a region with the frame it decodes. -/
def Dev.regionJobs (d : Dev) (r : RegionId) : List (PortId × LaneId × LaneJob) :=
  (portsOf r).flatMap fun p => allLanes.filterMap fun i => ((d.ports[p]).rx.lanes[i]).job.map fun j => (p, i, j)

/-- Lane cap of a pace entry (R411). -/
def laneCapOf (pace : Nat) : Nat :=
  match pace with
  | 0 => 72 | 1 => 100 | 2 => 129 | 3 => 158 | 4 => 187 | 5 => 216 | 6 => 253 | _ => 288

/-- Lane cap of a region in effect (R84, R411). -/
def Dev.laneCap (d : Dev) (r : RegionId) : Nat := laneCapOf (d.regions[r]).pwr.paceNow

/-- KEEP of a port; values above 48 act as 48 (R116). -/
def Rx.keep (x : Rx) : Nat := min (fld x.rxctl 16 6) 48

/-- The lane that the region lends to port p (R83): the lender with the most free lanes in excess of its KEEP, then
the lowest port, and its lowest-numbered free lane. -/
def Dev.lender (d : Dev) (p : PortId) : Option (PortId × LaneId) :=
  if bit (d.ports[p]).rx.rxctl 25 then
    let c := (portsOf (regionOfPort p)).filterMap fun q =>
      let x := d.ports[q]
      if q ≠ p ∧ bit x.rx.rxctl 24 ∧ d.portUp q ∧ x.rx.keep < x.freeLanes.length then
        some (q, x.freeLanes.length - x.rx.keep)
      else none
    let best := c.foldl (fun m y => max m y.2) 0
    (c.find? fun y => y.2 = best).bind fun y => (d.ports[y.1]).freeLanes.head?.map fun i => (y.1, i)
  else none

/-- The lane that a request of port p would get now (R82, R83). -/
def Dev.laneFor (d : Dev) (p : PortId) : Option (PortId × LaneId) :=
  match (d.ports[p]).freeLanes.head? with
  | some i => some (p, i)
  | none => d.lender p

/-! ### Second-look slices -/

/-- Modes that second look can serve (R98). -/
def slEligible (m : Mode) : Bool :=
  match m.bw with
  | 0 => m.k ≤ 8 | 1 => m.k ≤ 9 | _ => m.k ≤ 10

/-- Slices that a channel occupies (R97). -/
def slicesFor (bw : Nat) : Nat := if bw ≤ 1 then 1 else if bw = 2 then 2 else 4

/-- Slices in use. -/
def Second.used (s : Second) : Nat := (s.slices.map fun x => slicesFor x.bw).sum

/-- A slice records this channel of this port. -/
def Slice.is (x : Slice) (p : PortId) (m : Mode) : Bool := x.port = p && x.chan = m.chan && x.bw = m.bw

/-- A frame of an eligible mode is to be granted a lane, and no slice records its channel (R99). -/
def Dev.wantsSlice (d : Dev) (p : PortId) (m : Mode) : Bool :=
  slEligible m && bit (d.ports[p]).rx.rxctl 2 && !((d.regions[regionOfPort p]).second.slices.any fun x => x.is p m)

/-- Enough slices are free for a channel (R97). -/
def Dev.sliceRoom (d : Dev) (p : PortId) (m : Mode) : Bool :=
  (d.regions[regionOfPort p]).second.used + slicesFor m.bw ≤ 16

/-- At a grant, a channel of an eligible mode gets its slices if it has none and enough are free (R99). -/
def Dev.allocSlice (d : Dev) (p : PortId) (m : Mode) : Dev :=
  if d.wantsSlice p m && d.sliceRoom p m then
    d.modSecond (regionOfPort p) fun s => { s with slices := s.slices ++ [{ port := p, chan := m.chan, bw := m.bw, since := d.now }] }
  else d

/-- Slices that no lane works on and no request or unit refers to are freed; ended frames that nothing can overlap
any more are forgotten (R99, R100).
(Log entry 39 DEDUCED.) -/
def Dev.gcSlices (d : Dev) (r : RegionId) : Dev :=
  let jobs := d.regionJobs r
  let s := (d.regions[r]).second
  let refs := s.reqs ++ (List.finRange 4).filterMap fun u => (s.units[u]).job
  let keepS := fun (x : Slice) =>
    jobs.any (fun j => x.is j.2.2.rxPort j.2.2.req.mode) || refs.any (fun q => x.is q.port q.mode)
  let keepH := fun (f : SlFrame) =>
    jobs.any (fun j => j.2.2.rxPort = f.port && j.2.2.req.mode = f.mode) ||
    (d.ports[f.port]).rx.reqs.any fun q => q.mode = f.mode
  let keepR := fun (x : SlReport) =>
    jobs.any (fun j => j.2.2.rxPort = x.port && j.2.2.req.mode.chan = x.chan && j.2.2.req.mode.bw = x.bw) ||
    (d.ports[x.port]).rx.reqs.any fun q => q.mode.chan = x.chan && q.mode.bw = x.bw
  d.modSecond r fun s =>
    { s with slices := s.slices.filter keepS, hist := s.hist.filter keepH, reports := s.reports.filter keepR }

/-! ### Granting -/

/-- The 125 kHz channels that a channel covers (R70). -/
def channelSpan (chan bw : Nat) : List Nat :=
  if bw ≤ 1 then [chan] else if bw = 2 then [chan, chan + 1] else [chan, chan + 1, chan + 2, chan + 3]

/-- Candidate or lane work on a channel, for the gauge's choice (R107). -/
def Dev.markActive (d : Dev) (p : PortId) (chan bw : Nat) : Dev :=
  let cs := channelSpan chan bw
  d.modRx p fun x =>
    { x with activity := cs.map (·, d.now) ++ x.activity.filter fun a => !cs.contains a.1 && d.now < a.2 + secTicks }

/-- Ports of the combining group of p: TRAVEN = 1 and the same PORT_RXFREQ, in its region (R92). -/
def Dev.combineGroup (d : Dev) (p : PortId) : List PortId :=
  if bit (d.ports[p]).rx.rxctl 1 then
    (portsOf (regionOfPort p)).filter fun q =>
      bit (d.ports[q]).rx.rxctl 1 && (d.ports[q]).rx.rxfreq = (d.ports[p]).rx.rxfreq && d.portUp q
  else [p]

/-- A watcher searches this mode: enabled, not retired, same bandwidth, order in KMASK (R77). -/
def Watcher.searches (w : Watcher) (bw k : Nat) : Bool :=
  bit w.cfg 0 && !w.retired && fld w.cfg 1 2 = bw && 6 ≤ k && k ≤ 12 && bit w.cfg (4 + (k - 6))

/-- The contributors of a frame of port p (R94): strongest first, as many as combining streams are free. -/
def Dev.contributors (d : Dev) (p : PortId) (m : Mode) (heard : List Heard) : List Heard :=
  let g := d.combineGroup p
  let ok := fun (h : Heard) =>
    h.port ≠ p && g.contains h.port &&
    ((d.ports[h.port]).rx.watchers[Fin.ofNat 64 m.chan]).searches m.bw m.k &&
    -2 ≤ h.chipOff && h.chipOff ≤ 2 && !(d.ports[h.port]).txBlock
  let used := ((d.regionJobs (regionOfPort p)).map fun j => j.2.2.contrib.length).sum
  (sortBy (fun a b => decide (b.rssi ≤ a.rssi)) (heard.filter ok)).take (288 - used)

/-- A request is granted lane i of port q (R82, R83): an abandoned plumb check leaves its lane due and does not advance
the cycle of orders. The contributors are fixed here: later only a port that transmits, calibrates or ends RXEN leaves.
(Log entry 83 DESIGN CHOICE.) -/
def Dev.grant (d : Dev) (p q : PortId) (i : LaneId) (req : LaneReq) : Dev :=
  let j : LaneJob := { rxPort := p, req, contrib := d.contributors p req.mode req.info.heard, since := d.now
                       noSlice := d.wantsSlice p req.mode && !d.sliceRoom p req.mode }
  let d := d.modRx q fun x => { x with plumbLane := if x.plumbLane = some i then none else x.plumbLane }
  let d := d.modLane q i fun l => { l with work := .frame j }
  let d := if p = q then d else (d.countRx p .borrowin).countRx q .lendout
  (d.markActive p req.mode.chan req.mode.bw).allocSlice p req.mode

/-- Requests of a region that have been made, in the order of service: by stamp, then lower port, then lower watcher
(R82, log entry 19).
(Log entry 19 DEDUCED.) -/
def Dev.pendingReqs (d : Dev) (r : RegionId) : List (PortId × LaneReq) :=
  sortBy (fun a b => decide (a.2.info.syncT < b.2.info.syncT) ||
      (a.2.info.syncT = b.2.info.syncT && (a.1 < b.1 || (a.1 = b.1 && a.2.watcher ≤ b.2.watcher))))
    ((portsOf r).flatMap fun p => ((d.ports[p]).rx.reqs.filter (·.asked)).map fun q => (p, q))

/-- One pass over waiting requests (R82 to R84).
(Log entry 19 DEDUCED.) -/
def Dev.serveList (r : RegionId) : List (PortId × LaneReq) → Dev → Dev
  | [], d => d
  | (p, q) :: l, d =>
    match d.laneFor p with
    | none => Dev.serveList r l (d.modRx p fun x =>
        { x with reqs := x.reqs.map fun y => if y = q then { y with capOnly := false } else y })
    | some (o, i) =>
      if d.laneCap r ≤ (d.regionJobs r).length then Dev.serveList r l d
      else Dev.serveList r l ((d.modRx p fun x => { x with reqs := x.reqs.erase q }).grant p o i q)

/-- Waiting requests of a region are served.
(Log entry 19 DEDUCED.) -/
def Dev.serveLanes (d : Dev) (r : RegionId) : Dev := Dev.serveList r (d.pendingReqs r) d

/-- A lane is free again. -/
def Dev.freeLane (d : Dev) (p : PortId) (i : LaneId) : Dev := d.modLane p i fun l => { l with work := .idle }

/-- One frame is aborted (R87): its lane is freed, the abort counted at its receiving port. -/
def Dev.abortJob (d : Dev) (p : PortId) (i : LaneId) (j : LaneJob) : Dev :=
  ((d.freeLane p i).markActive j.rxPort j.req.mode.chan j.req.mode.bw).countRx j.rxPort .rxabort

/-- Several frames are aborted. -/
def Dev.abortJobs : List (PortId × LaneId × LaneJob) → Dev → Dev
  | [], d => d
  | (p, i, j) :: l, d => Dev.abortJobs l (d.abortJob p i j)

/-- Count n aborts. -/
def Dev.countAborts : Nat → PortId → Dev → Dev
  | 0, _, d => d
  | n + 1, p, d => Dev.countAborts n p (d.countRx p .rxabort)

/-- Port p stops receiving (R81, R87): frames whose receiving port it is are aborted, requests without a lane are
withdrawn and counted with them, candidates are discarded, a floor measurement in progress is abandoned.
(Log entry 40 DEDUCED.) -/
def Dev.stopFrames (d : Dev) (p : PortId) : Dev :=
  let d := Dev.abortJobs ((d.regionJobs (regionOfPort p)).filter fun x => x.2.2.rxPort = p) d
  let d := Dev.countAborts ((d.ports[p]).rx.reqs.filter (·.asked)).length p d
  d.modRx p fun x => { x with reqs := [], watchers := vmap x.watchers fun w => { w with cands := [] } }

/-- The plumb check of a port ends without a verdict: its lane stays due (R82). -/
def Dev.endPlumb (d : Dev) (p : PortId) : Dev :=
  d.modRx p fun x =>
    { x with plumbLane := none, lanes := vmap x.lanes fun l => if l.work = .plumb then { l with work := .idle } else l }

/-- Port p leaves the combinations it only contributes to (R87). -/
def Dev.leaveCombines (d : Dev) (p : PortId) : Dev :=
  (portsOf (regionOfPort p)).foldl (fun d q => d.modRx q fun x =>
    { x with lanes := vmap x.lanes fun l =>
        match l.work with
        | .frame j => { l with work := .frame { j with contrib := j.contrib.filter fun h => h.port ≠ p } }
        | _ => l }) d

/-- A floor measurement in progress is abandoned, and repeated 1 s later (R107). -/
def Dev.abandonGauge (d : Dev) (p : PortId) : Dev :=
  d.modGauge p fun g => if g.run.isSome then { g with run := none, dueAt := d.now + secTicks } else g

/-- Receive on p stops for a transmission interval or a calibration. -/
def Dev.suspendRx (d : Dev) (p : PortId) : Dev :=
  ((((d.stopFrames p).leaveCombines p).abandonGauge p).serveLanes (regionOfPort p)).gcSlices (regionOfPort p)

/-- Receive on p stops for a hop (R69, R73, R87).
(Log entry 20 DEDUCED.) -/
def Dev.hopRx (d : Dev) (p : PortId) : Dev :=
  ((d.stopFrames p).serveLanes (regionOfPort p)).gcSlices (regionOfPort p)

/-- A retune frees the port's slices; requests that need them can never start and are dropped (R73, log entry 20). A
second look that a unit has begun goes on.
(Log entries 20 DEDUCED, 83 DESIGN CHOICE.) -/
def Dev.retuneRx (d : Dev) (p : PortId) : Dev :=
  let r := regionOfPort p
  let d := d.stopFrames p
  let lost := ((d.regions[r]).second.reqs.filter fun q => q.port = p).length
  let d := (List.range lost).foldl (fun d _ => d.countRx p .slexpired) d
  let d := d.modSecond r fun s =>
    { s with slices := s.slices.filter fun x => x.port ≠ p, reqs := s.reqs.filter fun q => q.port ≠ p
             hist := s.hist.filter fun f => f.port ≠ p, reports := s.reports.filter fun x => x.port ≠ p }
  (d.serveLanes r).gcSlices r

/-- Frames on the lanes of port p that it lent, or holds itself, are aborted (R409, R423). -/
def Dev.abortOwnLanes (d : Dev) (p : PortId) : Dev :=
  Dev.abortJobs ((d.regionJobs (regionOfPort p)).filter fun x => x.1 = p) d

/-! ### Delivery records -/

/-- Global second-look unit number (R5). -/
def globalUnit (r : RegionId) (u : Fin 4) : Nat := 4 * r.val + u.val

/-- TRAV: combined over two or more ports (R113). -/
def AirFrame.trav (f : AirFrame) : Bool := 2 ≤ ((List.range 6).filter fun i => f.travmask.getLsbD i).length

/-- The receive words 0 to 5 of R113. -/
def recvWords (f : AirFrame) (lwords : Nat) : List Word64 :=
  [ pack64 [(0, f.bytes.length), (8, f.rate), (10, b2n f.robust), (11, b2n f.crcp), (12, b2n f.crcOk), (13, b2n f.sl),
      (14, b2n f.trav), (16, f.mode.k), (20, f.mode.bw), (22, f.mode.chan),
      (28, f.port.val), (33, f.unit), (44, f.sync.toNat), (52, f.npre), (58, lwords)],
    f.syncT, f.endT,
    pack64 [(0, sN 16 f.rssi), (16, sN 16 f.snr), (32, sN 24 f.foff), (56, f.rxgain)],
    pack64 [(0, f.gains.toNat), (24, f.travmask.toNat)],
    f.phases.setWidth 64 ]

/-- The RX queue of a port (R111). -/
def Dev.rxQueue (d : Dev) (p : PortId) : QueueId :=
  queueOf (regionOfPort p) (Fin.ofNat 32 (fld (d.ports[p]).rx.rxctl 8 5))

/-- FREE of the RX queue holds a record of n words (R434). -/
def Dev.rxRoom (d : Dev) (p : PortId) (n : Nat) : Bool :=
  d.queueUsable (d.rxQueue p) && n ≤ (d.queue (d.rxQueue p)).free

/-- A record is written to the RX queue of the receiving port (R86, R111), if it has room. -/
def Dev.tryDeliver (d : Dev) (f : AirFrame) (lw : List Word64) (payload : List Byte) : Option Dev :=
  (d.producePacket (d.rxQueue f.port) (recvWords f lw.length ++ lw ++ words64Of payload)).map fun d =>
    let d := d.countRx f.port .delivered
    if f.trav then d.countRx f.port .trav else d

/-- A record is written, or dropped and counted (R434). -/
def Dev.deliver (d : Dev) (f : AirFrame) (lw : List Word64) (payload : List Byte) : Dev :=
  (d.tryDeliver f lw payload).getD (d.countRx f.port .dropqfull)

/-- A record of the link engine: a frame that is delivered counts as ACCEPTED in region r (R181). -/
def Dev.deliverLink (d : Dev) (r : RegionId) (f : AirFrame) (lw : List Word64) (payload : List Byte) : Dev :=
  match d.tryDeliver f lw payload with
  | some d => d.countLink r .accepted
  | none => d.countRx f.port .dropqfull

end Sys2Proof.Machine
end

