-- ==== Sys2Proof/Machine/LinkOps.lean ====
section
/-! DEFINITION. Node contexts, the install table, downlink chains and their status words (R144 to R149, R159 to R164,
R176 to R179, R424). -/

namespace Sys2Proof.Machine

/-! ### Context fields (R159) -/

/-- Field of context n at an offset, as a number. -/
def Dev.ctxN (d : Dev) (n : CtxId) (off size : Nat) : Nat := bytesNat (memRead 0 d.cl.ctx (64 * n.val + off) size)

/-- Write a field of context n. -/
def Dev.ctxPut (d : Dev) (n : CtxId) (off size v : Nat) : Dev :=
  { d with cl := { d.cl with ctx := memWrite 0 d.cl.ctx (64 * n.val + off) (natBytes size v) } }

/-- LADDR. -/
def Dev.laddr (d : Dev) (n : CtxId) : Nat := d.ctxN n 0x00 4
/-- SADDR. -/
def Dev.saddr (d : Dev) (n : CtxId) : Nat := d.ctxN n 0x04 2
/-- STATE. -/
def Dev.cstate (d : Dev) (n : CtxId) : Nat := d.ctxN n 0x06 1
/-- STATE.LIFE: 0 FREE, 1 JOINING, 2 ACTIVE, 3 BLOCKED. -/
def Dev.life (d : Dev) (n : CtxId) : Nat := d.cstate n % 4
/-- STATE.DNACKWAIT. -/
def Dev.dnackwait (d : Dev) (n : CtxId) : Bool := (d.cstate n).testBit 3
/-- FCNTUP. -/
def Dev.fcntup (d : Dev) (n : CtxId) : Nat := d.ctxN n 0x08 4
/-- FCNTDN. -/
def Dev.fcntdn (d : Dev) (n : CtxId) : Nat := d.ctxN n 0x0C 4
/-- Key pair p of KEYPTR. -/
def Dev.keyPair (d : Dev) (n : CtxId) : Nat := d.ctxN n 0x10 2 % 4096
/-- RXD in µs. -/
def Dev.rxd (d : Dev) (n : CtxId) : Nat := d.ctxN n 0x12 3
/-- HOMEPORT; a value of 24 to 31, which only the host can write, is taken modulo 24. (Log entry 85 DESIGN CHOICE.) -/
def Dev.homeport (d : Dev) (n : CtxId) : PortId := Fin.ofNat 24 (d.ctxN n 0x22 1 % 32)

/-- Change bits of STATE: clear those of the mask, then set. -/
def Dev.putState (d : Dev) (n : CtxId) (mask set_ : Nat) : Dev :=
  d.ctxPut n 0x06 1 ((d.cstate n &&& (255 ^^^ mask)) ||| set_)

/-- Increment a field, saturating. -/
def Dev.ctxSat (d : Dev) (n : CtxId) (off size by_ : Nat) : Dev :=
  d.ctxPut n off size (min (256 ^ size - 1) (d.ctxN n off size + by_))

/-! ### The install table (R160 to R162) -/

/-- Bucket of a key (R160). -/
def hashBucket (x : Nat) : Nat := x * 0x9E3779B1 % 2 ^ 32 / 2 ^ 19

/-- The key of an address (R160). -/
def hashKey (short : Bool) (a : Nat) : Nat := if short then 0x53480000 + a else a

/-- The chain of a bucket, head first. -/
def Dev.bucket (d : Dev) (b : Nat) : List HashEntry :=
  d.cl.table.filter fun e => hashBucket (hashKey e.short e.addr.toNat) = b

/-- A walk of the chain of an address: the context of the first match, and the entries examined (R160, R162). -/
def walk (short : Bool) (a : Nat) : List HashEntry → Option CtxId × Nat
  | [] => (none, 0)
  | e :: l =>
    if e.short = short ∧ e.addr.toNat = a then (some e.ctx, 1)
    else let r := walk short a l; (r.1, r.2 + 1)

/-- The lookup of R160. -/
def Dev.lookup (d : Dev) (short : Bool) (a : Nat) : Option CtxId × Nat :=
  walk short a (d.bucket (hashBucket (hashKey short a)))

/-- The context that a key finds. -/
def Dev.find (d : Dev) (short : Bool) (a : Nat) : Option CtxId := (d.lookup short a).1

/-- Context n is installed. -/
def Dev.installed (d : Dev) (n : CtxId) : Bool := d.cl.table.any fun e => e.ctx = n

/-- The length of a walk is noted (R162), in LONGEST of the region whose engine makes it; a walk of the dictionary's channel
is no region's, and enters that of each. LONGEST has 8 bits and keeps at 255.
(Log entry 57 DEDUCED.) -/
def Dev.noteWalk (d : Dev) (r : Option RegionId) (k : Nat) : Dev :=
  let note := fun (d : Dev) (r : RegionId) => d.modLink r fun l => { l with longest := max l.longest (min k 255) }
  match r with
  | some r => note d r
  | none => (List.finRange 4).foldl note d

/-! ### Chains (R177 to R179) -/

/-- The chain of a context. -/
def Dev.chain (d : Dev) (n : CtxId) : Option Chain := d.cl.chains.find? fun c => c.ctx = n

/-- The packets of a context's chain. -/
def Dev.packets (d : Dev) (n : CtxId) : List DnPacket := match d.chain n with | some c => c.packets | none => []

/-- Put a chain: DNCOUNT follows, and DNHEAD and DNTAIL take values that the spec does not fix (R469, log entry 12). -/
def Dev.putChain (d : Dev) (c : Chain) : Dev :=
  let d := { d with cl := { d.cl with chains :=
    (if c.packets = [] ∧ c.moveEnd = none then [] else [c]) ++ d.cl.chains.filter fun (x : Chain) => x.ctx ≠ c.ctx } }
  let d := d.ctxPut c.ctx 0x07 1 (min 255 c.packets.length)
  (d.ctxPut c.ctx 0x3C 4 d.freeNow).took

/-- The region whose queue memory holds a context's chain: where it is, else that of HOMEPORT (R178). -/
def Dev.chainRegion (d : Dev) (n : CtxId) : RegionId :=
  match d.chain n with | some c => c.region | none => regionOfPort (d.homeport n)

/-- A downlink status word (R179); dropped and counted when its queue has no room (R434). -/
def Dev.dnStatus (d : Dev) (r : RegionId) (tag ctx result fcnt : Nat) : Dev :=
  let q := queueOf r (Fin.ofNat 32 (fld (d.regions[r]).link.qsel 16 5))
  match d.producePacket q [pack64 [(0, tag % 2 ^ 24), (24, ctx % 4096), (36, result), (40, fcnt % 2 ^ 24)]] with
  | some d => d
  | none => d.modRegFlt r fun f => { f with statdrop := f.statdrop + 1 }

/-- The FCNT that a status word gives for a packet: the last one used, or 0. -/
def DnPacket.fcntUsed (p : DnPacket) : Nat := match p.fcnt with | some f => f.toNat | none => 0

/-- Remove a packet of a chain. -/
def dropPacket (id : Nat) : List DnPacket → List DnPacket
  | [] => []
  | p :: l => if p.id = id then l else p :: dropPacket id l

/-- A packet leaves its chain with a result (R178, R179). -/
def Dev.endPacket (d : Dev) (n : CtxId) (p : DnPacket) (result : Nat) : Dev :=
  match d.chain n with
  | none => d
  | some c =>
    let d := d.putChain { c with packets := dropPacket p.id c.packets }
    d.dnStatus c.region p.tag.toNat n.val result p.fcntUsed

/-- Change a packet of a context's chain. -/
def Dev.modPacket (d : Dev) (n : CtxId) (id : Nat) (f : DnPacket → DnPacket) : Dev :=
  { d with cl := { d.cl with chains := d.cl.chains.map fun c =>
      if c.ctx = n then { c with packets := c.packets.map fun p => if p.id = id then f p else p } else c } }

/-- Chain head for a reply or scheduled window: the first packet that is no JOIN_ACC (R175). -/
def Dev.chainHead (d : Dev) (n : CtxId) : Option DnPacket := (d.packets n).find? fun p => p.kind ≠ 2

/-- The JOIN_ACC that waits for a node.
(Log entry 47 DEDUCED.) -/
def Dev.joinAcc (d : Dev) (n : CtxId) : Option DnPacket := (d.packets n).find? fun p => p.kind = 2

/-- The chain of a node moves between regions (R178). -/
def Dev.chainMoving (d : Dev) (n : CtxId) : Bool := match d.chain n with | some c => c.moveEnd.isSome | none => false

/-- A context's chain becomes empty without status words; DNACKWAIT clears (R161 for INSTALL, R424). -/
def Dev.emptyChain (d : Dev) (n : CtxId) : Dev :=
  (d.putChain { ctx := n, region := d.chainRegion n, packets := [], moveEnd := none }).putState n 8 0

/-- Contexts that the table holds, once each. -/
def Dev.installedCtxs (d : Dev) : List CtxId := (d.cl.table.map (·.ctx)).eraseDups

/-- Region r is retired: every chain in its queue memory is lost (R424). -/
def Dev.loseChains (d : Dev) (r : RegionId) : Dev :=
  ((d.cl.chains.filter fun c => c.region = r).map (·.ctx)).foldl (fun d n => d.emptyChain n) d

/-! ### Link headers (R145 to R149) -/

/-- A parsed link header. -/
structure LinkHdr where
  type : Nat
  ackreq : Bool
  pending : Bool
  relay : Bool
  short : Bool
  addr : Nat
  fcnt : Nat
  parent : Nat
  hops : Nat
  size : Nat
  deriving DecidableEq, Repr

/-- Length H of the link header (R145). -/
def linkHeaderSize (short relay : Bool) : Nat := (if short then 6 else 8) + (if relay then 3 else 0)

/-- Step 1 of R165: parse FCTL, address and lengths; `none` is MALFORMED. -/
def parseUplink (b : List Byte) (crcp nocrcok : Bool) : Option LinkHdr :=
  let fc := (byteAt b 0).toNat
  let short := fc.testBit 6
  let relay := fc.testBit 5
  let h := linkHeaderSize short relay
  let type := fc % 8
  let a := if short then 2 else 4
  let addr := bytesNat (slice b 1 a)
  let rb := 1 + a + 3
  if b.length < h + 8 ∨ fc.testBit 7 ∨ !(type = 0 ∨ type = 2 ∨ type = 4 ∨ type = 6) ∨
     (short ∧ (addr = 0 ∨ addr = 0xFFFF)) ∨ (!short ∧ (addr = 0 ∨ addr = 0xFFFFFFFF)) ∨ (type = 4 ∧ short) ∨
     (relay ∧ (bytesNat (slice b rb 2) = 0 ∨ bytesNat (slice b rb 2) = 0xFFFF)) ∨ (type = 2 ∧ b.length < h + 11) ∨ (!crcp ∧ !nocrcok) then none
  else some { type, ackreq := fc.testBit 3, pending := fc.testBit 4, relay, short, addr,
              fcnt := bytesNat (slice b (1 + a) 3)
              parent := if relay then bytesNat (slice b rb 2) else 0
              hops := if relay then (byteAt b (rb + 2)).toNat / 16 else 0
              size := h }

/-- The additional data of R150: the header with HOPTTL as 0. -/
def additional (b : List Byte) (h : LinkHdr) : List Byte :=
  if h.relay then b.take (h.size - 1) ++ [0] else b.take h.size

/-- The CCM nonce of R151. -/
def nonceOf (laddr fcnt : Nat) (down : Bool) (anchor : Word) : List Byte :=
  natBytes 4 laddr ++ natBytes 4 fcnt ++ [BitVec.ofNat 8 (b2n down)] ++ natBytes 4 anchor.toNat

end Sys2Proof.Machine
end

