-- ==== Sys2Proof/Machine/SynthOps.lean ====
section
/-! DEFINITION. The synthesizer (R117 to R124, R127, R468): usable entries, settle times, hops, locks, failures, the
phase epoch and what it does to CALVALID (R122, R137); the front-end lines (R131). -/

namespace Sys2Proof.Machine

/-- Ticks of n microseconds. -/
def us (n : Nat) : Nat := n * usTicks

/-- CALSEL in effect; 3 acts as 0 (R118). -/
def Synth.calsel (s : Synth) : Nat := if fld s.ctl 0 2 = 3 then 0 else fld s.ctl 0 2

/-- TEMPWIN in effect; 0 acts as 1 (R142). -/
def Synth.tempwin (s : Synth) : Int := max 1 (fld s.ctl 8 5)

/-- A frequency that R72 allows. -/
def freqOk (f : Nat) : Bool := 400000000 ≤ f && f ≤ 960000000

/-- An entry is usable when it is valid and calibrated near the present temperature. -/
def Port.usable (p : Port) (e : Fin 64) : Bool :=
  let b := p.syn.bm[e]
  b.valid && b.temp - p.syn.tempwin ≤ p.cal.tnow && p.cal.tnow ≤ b.temp + p.syn.tempwin

/-- The lowest-numbered entry that a test picks. -/
def Synth.findEntry (s : Synth) (f : BmEntry → Bool) : Option (Fin 64) := (List.finRange 64).find? fun e => f s.bm[e]

/-- The usable entry that holds F, if one does. -/
def Port.entryFor (p : Port) (f : Nat) : Option (Fin 64) :=
  (List.finRange 64).find? fun e => (p.syn.bm[e]).freq = f && p.usable e

/-- The hop that R118 makes to F: its kind and the table entry; none where CALSEL = 2 refuses it. A relock under
CALSEL = 2 is made as under 0 (R468). -/
def Port.hopTo (p : Port) (f : Nat) (relock : Bool) : Option (HopKind × Option (Fin 64)) :=
  let sel := if relock ∧ p.syn.calsel = 2 then 0 else p.syn.calsel
  match p.entryFor f with
  | some e => if sel = 1 then some (.full, none) else some (.table, some e)
  | none => if sel = 2 then none else some (.full, none)

/-- Settle time of a kind of hop in µs (R118). -/
def HopKind.settle : HopKind → Nat
  | .table => 18
  | .full => 140

/-- Settle in µs of the hop to F; 0 where it would be refused (R196).
(Log entry 42 DEDUCED.) -/
def Port.hopSettle (p : Port) (f : Nat) : Nat := match p.hopTo f false with | some k => k.1.settle | none => 0

/-- The settle term of a stake that names a window (R124), in µs. The remaining time of a hop that has passed its settle
time without LOCK is unknown.
(Log entry 44 DEDUCED.) -/
def Port.settleTerm (p : Port) (winsel : Bool) (e : Fin 64) (now : Nat) : Nat :=
  if winsel then (if p.usable e ∧ p.syn.calsel ≠ 1 then 18 else 140)
  else if p.syn.lock then 0
  else match p.syn.hop with
    | some h => if h.endAt < now then Config.unknownSettle else (h.endAt - now + usTicks - 1) / usTicks
    | none => Config.unknownSettle

/-- The return settle of a stake (R196), in µs. -/
def Port.returnSettle (p : Port) (winsel : Bool) : Nat := if winsel then p.hopSettle p.rx.rxfreq else 0

/-- CALVALID clears: under AUTO a calibration is asked for (R137).
(Log entry 43 DEDUCED.) -/
def Dev.clearCal (d : Dev) (p : PortId) : Dev :=
  if (d.ports[p]).cal.calvalid then
    d.modCal p fun c => { c with calvalid := false, blocked := false, wanted := c.wanted || c.auto }
  else d

/-- The phase epoch advances (R122); for any reason but a tuner change CALVALID clears (R137). -/
def Dev.advanceEpoch (d : Dev) (p : PortId) (tuner : Bool) : Dev :=
  let d := d.modSyn p fun s => { s with epoch := s.epoch + 1, epochT := d.datum.now }
  if tuner then d else d.clearCal p

/-- The field of PORT_FEMCTL whose level the lines take in a state (R131). -/
def FemState.level (s : FemState) (femctl : Word) : BitVec 2 :=
  match s with
  | .low => 0
  | .rx => BitVec.ofNat 2 (fld femctl 0 2)
  | .tx => BitVec.ofNat 2 (fld femctl 2 2)
  | .cal => BitVec.ofNat 2 (fld femctl 4 2)
  | .off => BitVec.ofNat 2 (fld femctl 6 2)

/-- The port enters a state: the lines take its level, and hold while the state stays (R131).
(Log entry 21 DEDUCED.) -/
def Dev.femTo (d : Dev) (p : PortId) (s : FemState) : Dev :=
  d.modTx p fun t => if t.fem = s then t else { t with fem := s, femLevel := s.level t.femctl }

/-- The lines after a transmission or calibration: RXLVL, or OFFLVL while RXEN = 0 (R131, log entry 21).
(Log entry 21 DEDUCED.) -/
def Dev.femIdle (d : Dev) (p : PortId) : Dev :=
  d.femTo p (if bit (d.ports[p]).rx.rxctl 0 then .rx else .off)

/-- PORT_RXFREQ has moved to an F at which the port was not calibrated (R137). -/
def Dev.calMoved (d : Dev) (p : PortId) (f : Nat) : Dev :=
  if f = (d.ports[p]).rx.rxfreq ∧ f ≠ (d.ports[p]).cal.freq then d.clearCal p else d

/-- A hop begins, now (R118): receive stops, and F is the target from then on (R468); a hop that changes PORT_RXFREQ ends
CALVALID (R137).
(Log entry 42 DEDUCED.) -/
def Dev.beginHop (d : Dev) (p : PortId) (f : Nat) (k : HopKind × Option (Fin 64)) (wake : Bool) : Dev :=
  ((d.calMoved p f).modSyn p fun s =>
    { s with lock := false, freq := f
             hop := some { target := f, kind := k.1, entry := k.2, wake, startAt := d.now
                           endAt := d.now + us k.1.settle } }).hopRx p

/-- The synthesizer is sent to F: nothing at an F where it stands locked; after the hop in progress (R123); refused
with NOENTRY under CALSEL = 2 (R118).
(Log entry 42 DEDUCED.) -/
def Dev.hop (d : Dev) (p : PortId) (f : Nat) : Dev :=
  let q := d.ports[p]
  if q.syn.hop.isSome then d.modSyn p fun s => { s with queued := some f }
  else if q.syn.lock ∧ q.syn.freq = f then d.calMoved p f
  else match q.hopTo f false with
    | some k => (d.modSyn p fun s => { s with queued := none }).beginHop p f k false
    | none => d.modSyn p fun s => { s with noentry := true }

/-- TXTIME at an elapsed tick: the burst that is on counts (R143). -/
def Tx.airtime (t : Tx) (now : Nat) : Word64 := t.txtime + BitVec.ofNat 64 (now - t.onSince.getD now)

/-- The transmitter goes off, or is off: TXTIME takes its ticks. -/
def Tx.stopClock (t : Tx) (now : Nat) : Tx := { t with txtime := t.airtime now, onSince := none }

/-- A relock: a hop to the present F, made by the synthesizer itself (R468).
(Log entry 43 DEDUCED.) -/
def Dev.relock (d : Dev) (p : PortId) (wake : Bool) : Dev :=
  let q := d.ports[p]
  match q.hopTo q.syn.freq true with
  | some k => d.beginHop p q.syn.freq k wake
  | none => d

/-- Where a full calibration at F is stored (R119): the entry that holds F, else the lowest with FREQ = 0, else the
least recently used one with PIN = 0. -/
def Synth.storeAt (s : Synth) (f : Nat) : Option (Fin 64) :=
  match s.findEntry (fun b => b.freq = f) with
  | some e => some e
  | none =>
    match s.findEntry (fun b => b.freq = 0) with
    | some e => some e
    | none =>
      let free := (List.finRange 64).filter fun e => !(s.bm[e]).pin
      match free with
      | [] => none
      | e :: l => some (l.foldl (fun m x => if (s.bm[x]).used < (s.bm[m]).used then x else m) e)

/-- The result of a full calibration at F is stored, in the entry that a FILL names while that holds F, else where R119
says, or BMFULL sets; an F outside R72 is never stored (R142).
(Log entry 42 DEDUCED.) -/
def Dev.storeCalibration (d : Dev) (p : PortId) (f : Nat) (entry : Option (Fin 64)) : Dev :=
  let t := (d.ports[p]).cal.tnow
  if !freqOk f then d
  else d.modSyn p fun s =>
    match (match entry with | some e => if (s.bm[e]).freq = f then some e else s.storeAt f | none => s.storeAt f) with
    | some e => { s with bm := s.bm.set e { freq := f, valid := true, pin := (s.bm[e]).pin, temp := t, used := s.useCtr + 1 }
                         useCtr := s.useCtr + 1 }
    | none => { s with bmfull := true }

/-- A table entry was used: R119's order of use. -/
def Synth.touch (s : Synth) (e : Option (Fin 64)) : Synth :=
  match e with
  | some e => { s with bm := s.bm.set e { s.bm[e] with used := s.useCtr + 1 }, useCtr := s.useCtr + 1 }
  | none => s

/-- LASTHOP after a hop (R142, R468). -/
def Hop.last (h : Hop) : Nat := if h.wake then 3 else match h.kind with | .table => 1 | .full => 2

/-- The hop in progress sets LOCK (R118): a full calibration advances the phase epoch and is stored; then the
synthesizer hops to a value written meanwhile (R123). -/
def Dev.lockNow (d : Dev) (p : PortId) (h : Hop) : Dev :=
  let q := (d.ports[p]).syn.queued
  let d := d.modSyn p fun s => { s.touch h.entry with lock := true, hop := none, lasthop := h.last, queued := none }
  let d := match h.kind with
    | .full => (d.advanceEpoch p false).storeCalibration p h.target h.entry
    | .table => if h.wake then d.advanceEpoch p false else d
  match q with
  | some f => d.hop p f
  | none => d

/-- Lock is lost (R127): UNLOCK sets and the phase epoch advances (R122).
(Log entry 43 DEDUCED.) -/
def Dev.loseLock (d : Dev) (p : PortId) : Dev :=
  (d.modSyn p fun s => { s with lock := false, unlock := true, hop := none }).advanceEpoch p false

end Sys2Proof.Machine
end

