-- ==== Sys2Proof/Machine/SlotOps.lean ====
section
/-! DEFINITION. The slot book (R195 to R206): intervals, the checks of a booking, late ends and their records, the
earliest release, cancelling, the requests of the port itself, and what a datum step does (R190, R191). -/

namespace Sys2Proof.Machine

/-- What is to be booked. -/
structure BookReq where
  release : Int
  action : Nat
  winsel : Bool := false
  entry : Fin 64 := 0
  w2 : Word := 0
  param : Word := 0
  tag : Word := 0
  origin : Nat
  link : Option LinkTx := none
  phase : BitVec 8 := 0
  power : Option Int := none
  fill : List (Fin 64) := []
  deriving DecidableEq, Repr

/-- Priority of an origin: 1 is the highest (R195). -/
def originPrio (o : Nat) : Nat := match o with | 0 => 3 | 1 => 1 | 2 => 1 | 6 => 4 | _ => 2

/-- Grid class (R195). -/
def originGrid (o : Nat) : Bool := o = 3 || o = 4

/-- Relative class (R195). -/
def originRelative (o : Nat) : Bool := o = 1 || o = 2

/-- The mode that word 2 of a stake names. -/
def w2Mode (w : Word) : Mode := { k := fld w 8 3 + 6, bw := fld w 6 2, chan := fld w 0 6 }

/-- The header of the frame of a TX stake: LEN bytes, CRCP = 1 (R62, R125). -/
def stakeHeader (w2 param : Word) : Header :=
  { len := fld param 0 8, rate := fld w2 11 2, robust := bit w2 13, crcp := true }

/-- PRE of word 2. -/
def w2Pre (w : Word) : Nat := fld w 16 6

/-- Preparation time of a stake in µs (R196). -/
def Stake.prep (k : Stake) : Nat :=
  match k.action with
  | 1 => k.settle + k.ramp + 20
  | 2 => k.settle + 20
  | _ => 20

/-- The arming deadline (R196). -/
def Stake.deadline (k : Stake) : Int := k.release - us k.prep

/-- Ticks from the release to the end of the interval (R196). -/
def Stake.span (k : Stake) : Nat :=
  match k.action with
  | 1 => k.air + us (k.ramp + k.ret + 2)
  | 2 => us (fld k.param 0 22 + k.ret)
  | 3 => us k.settle
  | 4 => us 1
  | _ => if bit k.param 0 then us (fld k.param 1 7 * 140 + k.ret) else us 5060

/-- The occupied interval, half-open (R196); that of an ACTIVE stake moves with a step of the datum (R191). -/
def Stake.interval (k : Stake) : Int × Int := (k.deadline + k.shift, k.release + k.span + k.shift)

/-- Two half-open intervals share a tick. -/
def overlap (a b : Int × Int) : Bool := a.1 < b.2 && b.1 < a.2

/-- RAMP as R130 applies it. -/
def Tx.ramp (t : Tx) : Nat := max 2 (min 32 (fld t.ctl 8 6))

/-- The stake that a request makes at a release, with the settle terms, RAMP and FEMLEAD of this moment (R124, R126). A
port of a group has settle term 0 (R141). -/
def Port.mkStake (p : Port) (q : BookReq) (release : Int) (now : Nat) : Stake :=
  let txrx := q.action = 1 ∨ q.action = 2
  let air := if q.action = 1 then airTicks (fld q.w2 8 3 + 6) (fld q.w2 6 2) (w2Pre q.w2) (stakeHeader q.w2 q.param) else 0
  { release, action := q.action, winsel := q.winsel, entry := q.entry, w2 := q.w2, param := q.param, tag := q.tag
    state := if q.action = 1 then .booked else .ready
    origin := q.origin
    settle := if q.action = 1 ∧ bit q.param 8 then 0
              else if txrx then p.settleTerm q.winsel q.entry now else if q.action = 3 then p.hopSettle (fld q.param 0 30) else 0
    ramp := p.tx.ramp
    femlead := fld p.tx.ctl 16 4
    ret := if txrx then p.returnSettle q.winsel else if q.action = 5 then p.hopSettle p.rx.rxfreq else 0
    air, onAir := air
    winF := 0, link := q.link, firedAt := 0, phase := q.phase, power := q.power, fill := q.fill }

/-- A channel number that R70 allows at a bandwidth. -/
def chanOk (chan bw : Nat) : Bool := chan % (if bw = 2 then 2 else if bw = 3 then 4 else 1) = 0

/-- Check 1 of R197.
(Log entry 44 DEDUCED.) -/
def Port.paramOk (p : Port) (q : BookReq) : Bool :=
  1 ≤ q.action && q.action ≤ 5 &&
  (match q.action with
   | 1 => fld q.w2 8 3 ≤ 6 && chanOk (fld q.w2 0 6) (fld q.w2 6 2) && 8 ≤ w2Pre q.w2 && w2Pre q.w2 ≤ 32 &&
          (q.origin ≠ 0 || !bit q.param 8)
   | 2 => 1 ≤ fld q.param 0 22 && fld q.param 0 22 ≤ 4000000
   | 3 => freqOk (fld q.param 0 30)
   | 4 => true
   | _ => q.origin ≠ 0 || fld q.param 0 8 = 0) &&
  (q.origin ≠ 0 || !bit q.w2 29) &&
  !((q.action = 1 || q.action = 2) && q.winsel && p.syn.calsel = 2 && !p.usable q.entry)

/-- The entries in use, with their stakes. -/
def SlotBook.used (b : SlotBook) : List (SlotId × Stake) :=
  (List.finRange 256).filterMap fun n => (b.stakes[n]).map fun k => (n, k)

/-- The lowest free entry. -/
def SlotBook.freeSlot (b : SlotBook) : Option SlotId := (List.finRange 256).find? fun n => (b.stakes[n]).isNone

/-- A late record of two words goes to LATEQ, or is counted LATELOST (R202). -/
def Dev.lateRecord (d : Dev) (p : PortId) (k : Stake) (slot cause : Nat) (refused : Bool) : Dev :=
  let q := queueOf (regionOfPort p) (Fin.ofNat 32 (fld (d.ports[p]).sb.ctl 0 5))
  let w0 := pack64 [(0, datum48 k.release), (48, k.action), (52, cause), (56, p.val), (61, k.origin)]
  let w1 := pack64 [(0, k.tag.toNat), (32, if refused then 0 else slot), (40, b2n refused)]
  match d.producePacket q [w0, w1] with
  | some d => d
  | none => d.countSb p .latelost

/-- The frames of an entry leave the transmit buffer. -/
def Dev.dropPrepared (d : Dev) (p : PortId) (n : SlotId) : Dev :=
  d.modTx p fun t => { t with buffer := t.buffer.filter fun b => b.slot ≠ n }

/-- The frame of a transmission leaves the buffer (R125), unless its entry has been booked anew. -/
def Dev.releaseBuffer (d : Dev) (p : PortId) (n : SlotId) : Dev :=
  match d.stake p n with
  | some k => if k.state = .booked ∨ k.state = .ready then d else d.dropPrepared p n
  | none => d.dropPrepared p n

/-- The transmitter is off again: the return hop starts if one is due, and the interval ends with it, or 2 µs from now if
none is made (R126, R127). -/
def Dev.returnHop (d : Dev) (p : PortId) : Dev :=
  let d := if (d.ports[p]).tx.retHop then d.hop p (d.ports[p]).rx.rxfreq else d
  let due := (d.ports[p]).tx.retHop && (d.ports[p]).syn.hop.isSome
  d.modTx p fun t => { t with retHop := due, endAt := some (d.now + if due then 0 else us 2) }

/-- A TX stake that holds the transmission interval and does not go on: ramp-down starts if the transmitter is on;
otherwise the port returns to receive as after a transmission (R127). -/
def Dev.abandonTx (d : Dev) (p : PortId) : Dev :=
  let t := (d.ports[p]).tx
  if t.onSince.isSome then d.modTx p fun t => { t with rampDown := some (t.rampDown.getD d.now) }
  else
    let d := match t.interval with | some n => d.releaseBuffer p n | none => d
    let d := d.modTx p fun t => { t with toTx := false }
    (if t.fem = .tx then d.femIdle p else d).returnHop p

/-- A TX stake that the link engine stands down ends without acting: it is late (R202). -/
def Dev.standDown (d : Dev) (p : PortId) (n : SlotId) (k : Stake) (cause : Nat) : Dev :=
  let d := (d.setStake p n none).dropPrepared p n
  let d := (d.modSb p fun b => { b with txLate := true }).countSb p .txlate
  let d := if bit (d.ports[p]).sb.ctl 5 then d.lateRecord p k n.val cause false else d
  if (d.ports[p]).tx.interval = some n then d.abandonTx p else d

/-- The link engine learns that its stake is late (R141, R179): the home port's reports LATE and stands down the
group's other ports with its own cause; a member's is counted MARIOUT.
(Log entry 49 DEDUCED.) -/
def Dev.linkLate (d : Dev) (p : PortId) (k : Stake) (lt : LinkTx) (cause : Nat) : Dev :=
  if lt.home = p then
    let r := match lt.ctx with | some n => d.chainRegion n | none => lt.region
    let here := match lt.ctx with
      | some n => (d.packets n).any fun x => x.id = lt.pid
      | none => true
    let d := match lt.packet with
      | some tag =>
        if here then
          d.dnStatus r tag.toNat (match lt.ctx with | some n => n.val | none => 0) 10
            (match lt.ctx, lt.used with | some _, some f => f.toNat | _, _ => 0)
        else d
      | none => d
    (portsOf (regionOfPort p)).foldl (fun d q =>
      if q = p then d
      else (d.ports[q]).sb.used.foldl (fun d x =>
        if x.2.state ≠ .active ∧ x.2.release = k.release ∧ (x.2.link.any fun l => l.home = p) then
          (d.standDown q x.1 x.2 cause).countTx q .mariout
        else d) d) d
  else d.countTx p .mariout

/-- The flags, the counter and the record of a late stake (R202). -/
def Dev.reportLate (d : Dev) (p : PortId) (k : Stake) (slot cause : Nat) (refused : Bool) : Dev :=
  let d :=
    if k.action = 1 then (d.modSb p fun b => { b with txLate := true }).countSb p .txlate
    else (d.modSb p fun b => { b with late := true }).countSb p .late
  match k.link with
  | some lt =>
    let d := d.linkLate p k lt cause
    if bit (d.ports[p]).sb.ctl 5 then d.lateRecord p k slot cause refused else d
  | none =>
    if k.origin = 0 ∧ refused then d else d.lateRecord p k slot cause refused

/-- What a late HWCAL stake leads to (R137, R197): a cancelled one is not asked for again; a displaced one is, and any
other while AUTO = 1 and CALVALID = 0. One that ends PORTDOWN waits until the port is awake (`serveCal`). -/
def Dev.calLate (d : Dev) (p : PortId) (k : Stake) (cause : Nat) : Dev :=
  if k.origin = 6 ∧ k.action = 5 ∧ !bit k.param 0 then
    d.modCal p fun c =>
      if cause = 10 then { c with wanted := false, blocked := true }
      else { c with wanted := c.wanted || cause = 9 || (c.auto && !c.calvalid && !c.blocked) }
  else d

/-- The transmission interval of port p ends (R126): receive can resume; a held retune starts (R123). -/
def Dev.endTxInterval (d : Dev) (p : PortId) : Dev :=
  let held := (d.ports[p]).syn.heldHop
  let d := (d.modTx p fun t => { t with interval := none, endAt := none, rampDown := none, retHop := false }).modSyn p
    fun s => { s with heldHop := false }
  if held then (d.retuneRx p).hop p (d.ports[p]).rx.rxfreq else d

/-- A stake that is not ACTIVE ends late with a cause (R202): its entry is FREE.
(Log entry 44 DEDUCED.) -/
def Dev.endLate (d : Dev) (p : PortId) (n : SlotId) (k : Stake) (cause : Nat) : Dev :=
  let d := (d.setStake p n none).dropPrepared p n
  let d := d.reportLate p k n.val cause false
  let d := d.calLate p k cause
  if (d.ports[p]).tx.interval = some n ∧ k.action = 1 ∧ k.state = .armed then d.abandonTx p
  else if k.action = 2 ∧ k.winsel ∧ k.state = .armed then d.hop p (d.ports[p]).rx.rxfreq
  else d

/-- Every stake of a port that is not ACTIVE ends with a cause (R204). -/
def Dev.endStakes (d : Dev) (p : PortId) (cause : Nat) : Dev :=
  (d.ports[p]).sb.used.foldl (fun d x => if x.2.state = .active then d else d.endLate p x.1 x.2 cause) d

/-- Intervals that nothing may overlap.
(Log entry 44 DEDUCED.) -/
def SlotBook.blocked (b : SlotBook) (now : Int) : List (Int × Int) := b.reserved.filter fun i => now < i.2

/-- The earliest release that R198 permits, at or after `lo`. -/
def Port.earliest (p : Port) (q : BookReq) (lo : Int) (datum : Int) (now : Nat) : Int :=
  let k0 := p.mkStake q 0 now
  let base := max (max lo (datum + us (fld p.sb.ctl 16 16))) (datum + usTicks + us k0.prep)
  let busy := p.sb.used.map (fun x => x.2.interval) ++ p.sb.blocked datum
  let cands := base :: (busy.map fun i => i.2 + (us k0.prep : Int)).filter fun t => base ≤ t
  let fits := fun (t : Int) => !(busy.any fun i => overlap i (t - us k0.prep, t + k0.span))
  (cands.filter fits).foldl (fun (m : Option Int) t => match m with | none => some t | some x => some (min x t)) none |>.getD
    base

/-- Stakes end DISPLACED (R197). -/
def Dev.displace (d : Dev) (p : PortId) : List (SlotId × Stake) → Dev
  | [] => d
  | (n, k) :: l => ((d.endLate p n k 9).countSb p .displaced).displace p l

/-- The booking of R197: the entry taken, or the cause of the refusal; and the stakes displaced. -/
def Dev.bookCore (d : Dev) (p : PortId) (q : BookReq) (release : Int) :
    Dev × Except Nat SlotId × List (SlotId × Stake) :=
  let x := d.ports[p]
  let now : Int := d.datum.now.toNat
  let k := x.mkStake q release d.now
  let refuse := fun (d : Dev) (c : Nat) => ((d.reportLate p k 0 c true).calLate p k c, Except.error c, [])
  if !x.paramOk q then refuse d 12
  else if !d.portUp p then refuse d 11
  else if originGrid q.origin ∧ d.datum.unsynced then refuse d 7
  else if k.deadline < now + usTicks then refuse d 6
  else
    let hit := x.sb.used.filter fun y => overlap y.2.interval k.interval
    let weak := fun (y : SlotId × Stake) =>
      originPrio q.origin < originPrio y.2.origin && (y.2.state = .booked || y.2.state = .ready)
    if !hit.all weak || (x.sb.blocked now).any (fun i => overlap i k.interval) then refuse d 4
    else
      let d := d.displace p hit
      match (d.ports[p]).sb.freeSlot with
      | none => refuse d 5
      | some n => ((d.setStake p n (some k)).countSb p .booked, .ok n, hit)

/-- A FILL form for entries of port p, at the earliest release (R120, R198). -/
def fillReq (es : List (Fin 64)) : BookReq :=
  { release := 0, action := 5, origin := 6, param := BitVec.ofNat 32 (1 + 2 * es.length), fill := es }

/-- Book at the earliest release; a HWCAL stake overlaps nothing there, so it displaces nothing. -/
def Dev.bookEarliest (d : Dev) (p : PortId) (q : BookReq) : Dev × Except Nat SlotId × List (SlotId × Stake) :=
  d.bookCore p q ((d.ports[p]).earliest q 0 d.datum.now.toNat d.now)

/-- The calibration that a region's ports ask for (R137): one at a time, in rising port order. -/
def Dev.serveCal (d : Dev) (r : RegionId) : Dev :=
  let busy := (portsOf r).any fun p => (d.ports[p]).cal.busy ||
    ((d.ports[p]).sb.used.any fun x => x.2.action = 5 && x.2.origin = 6 && !bit x.2.param 0)
  if busy then d
  else
    match (portsOf r).find? fun p => (d.ports[p]).cal.wanted && d.portUp p with
    | none => d
    | some p =>
      let d := d.modCal p fun c => { c with wanted := false }
      (d.bookEarliest p { release := 0, action := 5, origin := 6 }).1

/-- Calibrations of all regions that wait for a booking. -/
def Dev.serveCals (d : Dev) : Dev := (List.finRange 4).foldl (fun d r => d.serveCal r) d

/-- FILL of the benchmark table (R120): the invalid entries with a frequency that R72 allows. -/
def Dev.bmFill (d : Dev) (p : PortId) : Dev :=
  let s := (d.ports[p]).syn
  let es := (List.finRange 64).filter fun e => !(s.bm[e]).valid && freqOk (s.bm[e]).freq
  if es = [] then d else (d.bookEarliest p (fillReq es)).1

/-- A booking, then the HWCAL requests that it displaced (R197): a FILL for the entries that are invalid now (R120). -/
def Dev.book (d : Dev) (p : PortId) (q : BookReq) (release : Int) : Dev × Except Nat SlotId :=
  let r := d.bookCore p q release
  let d := r.2.2.foldl (fun d x => if x.2.origin = 6 ∧ bit x.2.param 0 then d.bmFill p else d) r.1
  (d.serveCal (regionOfPort p), r.2.1)

/-- RESULT of PORT_SB_CMD for a refusal (R202, R208). -/
def resultOf (cause : Nat) : Nat :=
  match cause with
  | 4 => 3 | 5 => 4 | 6 => 5 | 7 => 6 | 11 => 9 | _ => 7

/-- The booking that the NEW words spell (R208). -/
def SlotBook.newReq (b : SlotBook) (release : Int) : BookReq :=
  { release, action := fld b.new[1] 16 3, winsel := bit b.new[1] 20, entry := Fin.ofNat 64 (fld b.new[1] 21 6)
    w2 := b.new[2], param := b.new[3], tag := b.new[4], origin := 0 }

/-- BOOK through PORT_SB_CMD (R197, R208).
(Log entry 45 DEDUCED.) -/
def Dev.sbBook (d : Dev) (p : PortId) : Dev :=
  let b := (d.ports[p]).sb
  let t := d.named48 (b.new[0].toNat + fld b.new[1] 0 16 * 2 ^ 32)
  let q := b.newReq t
  let t := if b.earliest then (d.ports[p]).earliest q t d.datum.now.toNat d.now else t
  match d.book p q t with
  | (d, .ok n) => d.modSb p fun b => { b with result := 2, cmdSlot := n.val }
  | (d, .error c) => d.modSb p fun b => { b with result := resultOf c }

/-- CANCEL through PORT_SB_CMD (R203). -/
def Dev.sbCancel (d : Dev) (p : PortId) : Dev :=
  let n : SlotId := Fin.ofNat 256 (d.ports[p]).sb.cmdSlot
  match d.stake p n with
  | some k =>
    if k.state = .booked ∨ k.state = .ready then
      ((d.endLate p n k 10).modSb p fun b => { b with result := 2 }).serveCal (regionOfPort p)
    else d.modSb p fun b => { b with result := 8 }
  | none => d.modSb p fun b => { b with result := 8 }

/-- A write of PORT_SB_CMD (R208). -/
def Dev.sbCmd (d : Dev) (p : PortId) (v : Word) : Dev :=
  let d := d.modSb p fun b => { b with cmdSlot := fld v 0 8, cmdOp := fld v 8 2, earliest := bit v 11 }
  if bit v 10 then
    if fld v 8 2 = 1 then d.sbBook p
    else if fld v 8 2 = 2 then d.sbCancel p
    else d
  else d

/-- RUNNOW of PORT_CAL (R137). -/
def Dev.calRunNow (d : Dev) (p : PortId) : Dev :=
  (d.modCal p fun c => { c with wanted := true, blocked := false }).serveCal (regionOfPort p)

/-! ### A datum step (R190, R191) -/

/-- A 64-bit datum value moved by a step. -/
def shiftT (st : Word64) (t : Word64) : Word64 := t + st

/-- Frames that hold stamps not yet written to a queue move with the scale.
(Log entry 53 DEDUCED.) -/
def shiftFrame (st : Word64) (f : AirFrame) : AirFrame := { f with syncT := f.syncT + st, endT := f.endT + st }

/-- A frame that waits in the link engine, with the datum of the INSTALL that released it. -/
def shiftWork (st : Word64) (w : UpWork) : UpWork :=
  { frame := shiftFrame st w.frame, resumed := w.resumed.map fun x => (x.1, x.2 + st.toInt) }

/-- A request's stamp.
(Log entry 53 DEDUCED.) -/
def shiftReq (st : Word64) (q : LaneReq) : LaneReq := { q with info := { q.info with syncT := q.info.syncT + st } }

/-- One port's stamps and relative stakes after a step. -/
def Port.shift (st : Word64) (p : Port) : Port :=
  let i := st.toInt
  { p with
    rx := { p.rx with
      reqs := p.rx.reqs.map (shiftReq st)
      watchers := vmap p.rx.watchers fun w =>
        { w with cands := w.cands.map fun c => { c with info := { c.info with syncT := c.info.syncT + st } } }
      lanes := vmap p.rx.lanes fun l =>
        match l.work with
        | .frame j => { l with work := .frame { j with req := shiftReq st j.req } }
        | _ => l }
    sb := { p.sb with
      stakes := vmap p.sb.stakes fun k =>
        match k with
        | some k =>
          if k.state = .active then some { k with shift := k.shift + i }
          else if originRelative k.origin then some { k with release := k.release + i } else some k
        | none => none
      reserved := p.sb.reserved.map fun x => (x.1 + i, x.2 + i) } }

/-- Stakes of a port whose release a forward step passed end with cause STEP. -/
def Dev.skipStakes (d : Dev) (p : PortId) : Dev :=
  (d.ports[p]).sb.used.foldl (fun d x =>
    if x.2.state ≠ .active ∧ x.2.release < (d.datum.now.toNat : Int) then d.endLate p x.1 x.2 8 else d) d

/-- The step is applied (R190, R191): X goes to DATUM_STEPT, the next tick carries X + 1 + STEP.
(Log entry 53 DEDUCED.) -/
def Dev.applyStep (d : Dev) (st : Word64) : Dev :=
  let x := d.datum.now
  let d := d.advance 1
  let dt : Datum := { d.datum with now := x + 1 + st, stepT := x, steps := d.datum.steps + 1, pend := none }
  let holdShift : Option Held → Option Held := fun h => h.map fun y => { y with frame := shiftFrame st y.frame }
  let regShift : Region → Region := fun r =>
    { r with link := { r.link with hold := vmap r.link.hold holdShift, work := r.link.work.map (shiftWork st) } }
  let clShift : ChipLink → ChipLink := fun c =>
    { c with joins := c.joins.map fun j => { j with at_ := j.at_ + st.toInt } }
  let d : Dev := { d with datum := dt, ports := vmap d.ports (Port.shift st), regions := vmap d.regions regShift
                          cl := clShift d.cl }
  let d := (d.attnCause 13).authRestart
  ((List.finRange 24).foldl (fun d p => d.skipStakes p) d).serveCals

end Sys2Proof.Machine
end

