-- ==== Sys2Proof/Machine/CfgOps.lean ====
section
/-! DEFINITION. Config memory (R288 to R295) and its records (R290, R231, R429): areas, the scan, appending,
compaction. A missing device reads as all ones and takes no write. -/

namespace Sys2Proof.Machine

/-- A byte of config memory; what the device does not have reads as ones (R288).
(Log entry 16 DESIGN CHOICE.) -/
def Cfg.byte (c : Cfg) (a : Nat) : Byte := if a < c.size then memGet 0xFF c.mem a else 0xFF

/-- n bytes. -/
def Cfg.bytes (c : Cfg) (a n : Nat) : List Byte := (List.range n).map fun i => c.byte (a + i)

/-- Bytes written; none outside the device. -/
def Cfg.write (c : Cfg) (a : Nat) (l : List Byte) : Cfg := { c with mem := memWrite 0xFF c.mem a (l.take (c.size - a)) }

/-- Size of an area (R289); a device of less than 8 KiB is not used (R288). -/
def Cfg.areaSize (c : Cfg) : Nat := if c.size < 8192 then 0 else min (c.size / 2) 262144

/-- The first 12 bytes of an area header (R289). -/
def areaHead (gen : Nat) : List Byte := [0x48#8, 0x56#8, 0x43#8, 0x46#8, 0x02#8, 0#8, 0#8, 0#8] ++ natBytes 4 gen

/-- MAGIC and CRC of an area are right. -/
def Cfg.areaOk (c : Cfg) (k : Nat) : Bool :=
  let b := c.bytes (k * c.areaSize) 16
  0 < c.areaSize && b.take 4 = [0x48#8, 0x56#8, 0x43#8, 0x46#8] && bytesNat (b.drop 12) = (crc32 (b.take 12)).toNat

/-- GEN of an area. -/
def Cfg.areaGen (c : Cfg) (k : Nat) : Nat := bytesNat (c.bytes (k * c.areaSize + 8) 4)

/-- The current area, if there is one (R289). -/
def Cfg.current (c : Cfg) : Option Nat :=
  if c.areaOk 0 ∧ (!c.areaOk 1 ∨ c.areaGen 1 ≤ c.areaGen 0) then some 0
  else if c.areaOk 1 then some 1
  else none

/-- A record before its tag (R290). -/
def CfgRec.head (r : CfgRec) : List Byte :=
  [0x02#8] ++ natBytes 2 r.index.toNat ++ [r.sub, BitVec.ofNat 8 r.value.length] ++ r.value

/-- The tag of R231. -/
def CfgRec.tag (r : CfgRec) : List Byte := (cmac kcfg r.head).take 8

/-- A whole bound record. -/
def CfgRec.bytes (r : CfgRec) : List Byte := r.head ++ r.tag

/-- Length of a record. -/
def CfgRec.size (r : CfgRec) : Nat := 13 + r.value.length

/-- A record found by the scan, with its tag field. -/
structure Found where
  rec_ : CfgRec
  tag : List Byte
  deriving DecidableEq, Repr

/-- The scan from an offset of area k (R290): the records and the offset at which it stops. -/
def Cfg.scanFrom (c : Cfg) (k : Nat) : Nat → Nat → List Found × Nat
  | 0, o => ([], o)
  | n + 1, o =>
    let a := k * c.areaSize + o
    let len := (c.byte (a + 4)).toNat
    if c.areaSize < o + 14 ∨ c.byte a ≠ 2 ∨ len < 1 ∨ 60 < len ∨ c.areaSize < o + 13 + len then ([], o)
    else
      let r : CfgRec := { index := BitVec.ofNat 16 (bytesNat (c.bytes (a + 1) 2)), sub := c.byte (a + 3), value := c.bytes (a + 5) len }
      let s := Cfg.scanFrom c k n (o + r.size)
      ({ rec_ := r, tag := c.bytes (a + 5 + len) 8 } :: s.1, s.2)

/-- The whole scan of area k. -/
def Cfg.scan (c : Cfg) (k : Nat) : List Found × Nat := c.scanFrom k c.areaSize 16

/-- The record is a retirement record (R429). -/
def CfgRec.isRetire (r : CfgRec) : Bool := r.index = 0x8002

/-- The retirement record of an entry of the list. -/
def retireRec (e : Nat × Nat) : CfgRec :=
  { index := 0x8002, sub := BitVec.ofNat 8 e.1, value := natBytes 2 e.2 }

/-- The records that fit from an offset on, with those left out (R293). -/
def fitRecs (room : Nat) : List CfgRec → List CfgRec × Bool
  | [] => ([], false)
  | r :: l =>
    if r.size ≤ room then let s := fitRecs (room - r.size) l; (r :: s.1, s.2)
    else ((fitRecs room l).1, true)

/-- The area from `base` on is invalidated (R293): on NOR its sectors are erased, on EEPROM 0xFF goes over its header. -/
def Cfg.invalidate (c : Cfg) (base : Nat) : Cfg :=
  if c.sfdp then { c with mem := c.mem.filter fun x => x.1 < base || base + c.areaSize ≤ x.1 }
  else c.write base (List.replicate 16 0xFF)

/-- Compaction (R293): the other area is invalidated, filled with records and 0xFF behind them, given its header, and
becomes current. With no current area the new one is area 0 with GEN 1.
(Log entries 23 DEDUCED, 27 DEDUCED, 38 DEDUCED.) -/
def Cfg.compact (c : Cfg) (rs : List CfgRec) : Cfg :=
  if c.areaSize = 0 then c
  else
    let k := match c.current with | some 0 => 1 | _ => 0
    let gen := (match c.current with | some j => c.areaGen j | none => 0) + 1
    let base := k * c.areaSize
    let fit := fitRecs (c.areaSize - 16) rs
    let body := (fit.1.map CfgRec.bytes).flatten
    let c := (c.invalidate base).write (base + 16) ((body ++ [0xFF#8]).take (c.areaSize - 16))
    let h := areaHead (gen % 2 ^ 32)
    let c := c.write base (h ++ natBytes 4 (crc32 h).toNat)
    { c with area := k, gen := BitVec.ofNat 32 gen, mustCompact := false
             flags := if fit.2 then c.flags ||| 0x10 else c.flags }

/-- Records that a compaction writes: every RWP value that differs from its default, and the retirement list
(R293, R429).
(Log entry 27 DEDUCED.) -/
def Dev.compactRecs (d : Dev) : List CfgRec :=
  (d.tdp.rwp.map fun x => ({ index := x.1, sub := x.2.1, value := x.2.2 } : CfgRec)) ++ d.flt.list.map retireRec

/-- A record reaches config memory: appended at the end of the scan, or by compaction where R293 requires it. -/
def Dev.persist (d : Dev) (r : CfgRec) : Dev :=
  let c := d.cfg
  match c.current with
  | some k =>
    let o := (c.scan k).2
    if c.mustCompact ∨ c.areaSize < o + r.size then { d with cfg := c.compact d.compactRecs }
    else
      let a := k * c.areaSize + o
      let c := c.write a r.bytes
      { d with cfg := if o + r.size < c.areaSize then c.write (a + r.size) [0xFF#8] else c }
  | none => { d with cfg := c.compact d.compactRecs }

/-- A record is queued; a waiting record of the same object takes the new value (R292). A retirement record names its
unit in its value, so it replaces nothing. -/
def Dev.queueRec (d : Dev) (r : CfgRec) : Dev :=
  let q := d.cfg.queue
  let same := fun (x : CfgRec) => x.index = r.index && x.sub = r.sub && !r.isRetire
  let q := if q.any same then q.map fun x => if same x then r else x else q ++ [r]
  { d with cfg := { d.cfg with queue := q } }

/-- A flag of CFG_STAT sets. -/
def Dev.cfgFlag (d : Dev) (i : Nat) : Dev := { d with cfg := { d.cfg with flags := d.cfg.flags ||| (1#5 <<< i) } }

end Sys2Proof.Machine
end

