-- ==== Sys2Proof/Machine/FaultOps.lean ====
section
/-! DEFINITION. The fault units (R420 to R432): charging a failure, permanent faults, fencing, retirement and what it
aborts, the retirement list, the fault log; and the beginning of a start (R12, R331, R416), which a reset by the chip
fault unit is. -/

namespace Sys2Proof.Machine

/-! ### The log and names of children -/

/-- UTYPE and UNIT of R432. The numbers of DMA engines and memories are the model's (log entry 22).
(Log entry 22 DESIGN CHOICE.) -/
def Charged.name : Charged → Nat × Nat
  | .unit (.lane p i) => (1, 48 * p.val + i.val)
  | .unit (.watcher p i) => (2, 64 * p.val + i.val)
  | .unit (.port p) => (3, p.val)
  | .unit (.core c) => (4, c.val)
  | .unit (.queueBank r b) => (5, 8 * r.val + b.val)
  | .unit (.region r) => (6, r.val)
  | .unit (.pipe r i) => (7, 4 * r.val + i.val)
  | .unit (.lookUnit r i) => (8, 4 * r.val + i.val)
  | .unit (.dmaEngine r w) => (9, 2 * r.val + b2n w)
  | .unit (.chipBlock g) => (0, g.val)
  | .chipSram => (10, 0)
  | .regionSram r => (10, 1 + r.val)
  | .ctxMem => (10, 5)
  | .flash => (10, 6)

/-- The region whose fault unit serves a child; `none` for the chip fault unit (R23).
(Log entry 37 DEDUCED.) -/
def Charged.unitOf : Charged → Option RegionId
  | .unit (.lane p _) => some (regionOfPort p)
  | .unit (.watcher p _) => some (regionOfPort p)
  | .unit (.port p) => some (regionOfPort p)
  | .unit (.core c) => some (regionOfCore c)
  | .unit (.queueBank r _) => some r
  | .unit (.region _) => none
  | .unit (.pipe r _) => some r
  | .unit (.lookUnit r _) => some r
  | .unit (.dmaEngine r _) => some r
  | .unit (.chipBlock _) => none
  | .chipSram => none
  | .regionSram r => some r
  | .ctxMem => none
  | .flash => none

/-- A flag of FLT_TFLAG sets. -/
def Dev.chipTflag (d : Dev) (i : Nat) : Dev := { d with flt := { d.flt with tflag := setBit d.flt.tflag i } }

/-- A flag of FLT_PFLAG sets. -/
def Dev.chipPflag (d : Dev) (i : Nat) : Dev := { d with flt := { d.flt with pflag := setBit d.flt.pflag i } }

/-- A flag of REGF_TFLAG sets. -/
def Dev.regTflag (d : Dev) (r : RegionId) (i : Nat) : Dev := d.modRegFlt r fun f => { f with tflag := setBit f.tflag i }

/-- A flag of REGF_PFLAG sets. -/
def Dev.regPflag (d : Dev) (r : RegionId) (i : Nat) : Dev := d.modRegFlt r fun f => { f with pflag := setBit f.pflag i }

/-- An entry of the fault log; the oldest is overwritten when 256 stand (R432).
(Log entries 22 DESIGN CHOICE, 36 DEDUCED.) -/
def Dev.logFault (d : Dev) (kind : Nat) (c : Charged) (cause count : Nat) : Dev :=
  let n := c.name
  let e : LogEntry := { t := d.datum.now &&& 0xFFFFFFFFFFFF, kind, utype := n.1, unit := n.2, cause, count := min count 255
                        seq := d.flt.seq }
  let full := 256 ≤ d.flt.log.length
  { d with flt := { d.flt with
      log := (if full then d.flt.log.drop 1 else d.flt.log) ++ [e]
      lost := if full then min 65535 (d.flt.lost + 1) else d.flt.lost
      seq := (d.flt.seq + 1) % 2 ^ 32 } }

/-! ### What the fault units keep of recent failures (R421) -/

/-- PERMCOUNT in effect.
(Log entry 36 DEDUCED.) -/
def Dev.permCount (d : Dev) : Nat := max 2 (fld d.flt.ctl 0 4)

/-- PERMWINDOW in effect, in ticks. -/
def Dev.permWindow (d : Dev) : Nat := max 1 (min 3600 (fld d.flt.ctl 16 12)) * secTicks

/-- The latest failure of an entry. -/
def Track.last (t : Track) : Nat := t.times.headD 0

/-- A failure at `now` enters a table of `cap` entries: the table, whether an entry was lost, the count in the
window. -/
def trackFail (tab : List Track) (cap : Nat) (c : Charged) (now window : Nat) : List Track × Bool × Nat :=
  match tab.find? fun t => t.child = c with
  | some t =>
    let times := now :: t.times.filter fun x => now < x + window
    ({ child := c, times } :: tab.filter (fun t => t.child ≠ c), false, times.length)
  | none =>
    if tab.length < cap then ({ child := c, times := [now] } :: tab, false, 1)
    else
      let oldest := tab.foldl (fun m t => min m t.last) now
      ({ child := c, times := [now] } :: tab.eraseP (fun t => t.last = oldest), true, 1)

/-- A failure is entered where its unit tracks it; TRACKFULL sets when an entry is lost.
(Log entry 36 DEDUCED.) -/
def Dev.track (d : Dev) (c : Charged) : Dev × Nat :=
  match c.unitOf with
  | some r =>
    let x := trackFail (d.regions[r]).flt.track 64 c d.now d.permWindow
    let d := d.modRegFlt r fun f => { f with track := x.1 }
    (if x.2.1 then d.chipPflag 10 else d, x.2.2)
  | none =>
    let x := trackFail d.flt.track 32 c d.now d.permWindow
    let d := { d with flt := { d.flt with track := x.1 } }
    (if x.2.1 then d.chipPflag 10 else d, x.2.2)

/-- The flag that a transient fault sets (R438, R439). Causes: 1 TIMEOUT, 2 ECC1, 3 ECC2, 4 PLUMB, 5 MISMATCH,
7 CFGWRITE, 10 NOLOCK.
(Log entry 37 DEDUCED.) -/
def Dev.transientFlag (d : Dev) (c : Charged) (cause : Nat) : Dev :=
  let d := match c with | .unit (.core _) => d.chipTflag 5 | _ => d
  match c, c.unitOf, cause with
  | .flash, _, _ => d.chipTflag 3
  | .regionSram r, _, 2 => d.regTflag r 5
  | .regionSram r, _, _ => d.regTflag r 6
  | _, some r, 1 => d.regTflag r 0
  | _, some r, 2 => d.regTflag r 3
  | _, some r, 3 => d.regTflag r 4
  | _, some r, 4 => d.regTflag r 1
  | _, some r, 5 => d.regTflag r 2
  | _, some r, 10 => d.regTflag r 7
  | _, none, 1 => d.chipTflag 0
  | _, none, 2 => d.chipTflag 1
  | _, none, 3 => d.chipTflag 2
  | _, none, 7 => d.chipTflag 4
  | _, _, _ => d

/-! ### Cores and the main core -/

/-- The main core (R330). -/
def Dev.mainCore (d : Dev) : CoreId := ((List.finRange 8).find? fun c => !(d.cores[c]).retired).getD 0

/-- A core is held in reset: its outstanding access ends with it, and its locks are freed (R336, R372).
(Log entry 65 DEDUCED.) -/
def Dev.holdCore (d : Dev) (c : CoreId) : Dev :=
  { d.modCore c (fun x => { x with running := false, wfi := false, held := false, stopping := false, halted := false, resv := none }) with
    holds := d.holds.filter fun h => h.init ≠ initOfCore c
    mbx := vmap d.mbx fun m => if m.owner.any (fun o => o.val = c.val) then { m with owner := none } else m }

/-! ### A start -/

/-- What a flash word holds whose program was cut: the spec gives no value (R340).
(Log entry 12 UNVERIFIED.) -/
def freeBytes : Nat → Nat → List Byte
  | 0, _ => []
  | n + 1, k => BitVec.ofNat 8 (Config.freeValue k) :: freeBytes n (k + 1)

/-- An OTP operation that a start cuts leaves its field failing its check (R223): a PROGKEY's key is unusable, a cut REVOKE
revokes, a cut CLEARROOTOK leaves ROOT_OK without effect.
(Log entry 24 DEDUCED.) -/
def Otp.cut (o : Otp) : Otp :=
  match o.run with
  | none => o
  | some (1, f) => { o with cust := o.cust.set f (some (o.taken.getD [], false)) }
  | some (2, f) => { o with rev := o.rev.set f true }
  | some _ => { o with rootok := false }

/-- The flash die at a start: contents, programmed words, journal (R346); a program in progress was cut (R340). -/
def Dev.flashAtStart (d : Dev) : Flash :=
  let f := d.flash
  let mem := match f.op with | .program a => memWrite 0xFF f.mem a (freeBytes 16 d.freeCtr) | _ => f.mem
  { mem, prog := f.prog, blocks := f.blocks, errs := f.errs }

/-- A start begins: every register and memory is at its reset state but what R12, R209, R219, R222, R229, R346, R396,
R427 and R432 keep; SWCOUNT is noted as that of this start (R403), and SEQ is judged from here on (R261); the phase is step 3 of R416, and the main core has left reset (R331). Causes as CAUSE of R334.
(Log entries 4 DESIGN CHOICE, 14 DESIGN CHOICE, 24 DEDUCED.) -/
def Dev.beginStart (d : Dev) (cause : Nat) : Dev :=
  let k := d.freeCtr + 16
  let d0 : Dev := {}
  let x : Dev := { d0 with
    now := d.now
    freeCtr := k + 1
    keys := { slots := d.keys.slots, lost := d.keys.lost, writes := d.keys.writes }
    otp := { d.otp.cut with op := 0, sel := 0, status := 0, src := 0, run := none, taken := none }
    att := { c := d.att.c, last := d.att.last }
    dbg := { chal := k, testen := d.dbg.testen, locked := d.otp.provisioned }
    can := { straps := d.can.straps }
    cfg := { size := d.cfg.size, mem := d.cfg.mem, dev := d.cfg.dev, sfdp := d.cfg.sfdp }
    flash := d.flashAtStart
    evt := { gpioExt := d.evt.gpioExt }
    rtc := { d.rtc with shadows := Vector.replicate 15 none, swPrev := d.rtc.swcount }
    pwr := { vin := d.pwr.vin, temp := d.pwr.temp, overvolt := d.pwr.overvolt, overload := d.pwr.overload, cause }
    flt := { log := if cause = 3 then d.flt.log else [], lost := if cause = 3 then d.flt.lost else 0
             seq := if cause = 3 then d.flt.seq else 0, lastReset := d.flt.lastReset, clearRet := d.flt.clearRet
             pflag := if cause = 3 then 0x200 else 0 }
    cores := d0.cores.set 0 { (d0.cores[0]) with running := true } }
  { x with trk := { x.trk with lastAttn := x.attnBits } }

/-- The start of a command: no reset has been called for yet. -/
def State.begun (s : State) : State := { s with d := { s.d with resetDue := false } }

/-- The end of a command: a reset that the chip fault unit called for takes place, and SEQ is judged. -/
def finish (s : State) : State :=
  if s.d.resetDue then { s with d := (s.d.beginStart 3).settle, ram := [] }
  else { s with d := s.d.settle }

/-- A command whose effect touches SRAM only by a reset that it causes. -/
def onDevW (f : Dev → Dev) (s : State) : State := finish { s with d := f s.begun.d }

/-- The chip fault unit resets the module, at the command's end (R427): KIND 6. Retirement records that wait are
written first, so that the next start finds them (R423, R430, log entry 23).
(Log entries 23 DEDUCED, 24 DEDUCED.) -/
def Dev.chipReset (d : Dev) (c : Charged) (cause : Nat) : Dev :=
  let recs := d.cfg.queue.filter CfgRec.isRetire
  let d := recs.foldl (fun d r => d.persist r) d
  let d := d.logFault 6 c cause 0
  { d with resetDue := true }

/-! ### Retirement -/

/-- A port stops everything: it is retired, put to sleep or powered down (R87, R204, R409, R423). Stakes that are not
ACTIVE end PORTDOWN. -/
def Dev.portOff (d : Dev) (p : PortId) : Dev :=
  let r := regionOfPort p
  let d := ((((d.stopFrames p).abortOwnLanes p).leaveCombines p).abandonGauge p).endStakes p 11
  (((d.endPlumb p).femTo p .off).serveLanes r).gcSlices r

/-- A port block goes to sleep (R204, R409): its stakes end, its synthesizer stops. -/
def Dev.portSleep (d : Dev) (p : PortId) : Dev :=
  (d.portOff p).modSyn p fun s => { s with lock := false, hop := none, queued := none }

/-- The transmitter, the calibration and what is ACTIVE end as well (R423): nothing of the port goes on. -/
def Dev.portCut (d : Dev) (p : PortId) : Dev :=
  let d := d.portOff p
  let d := d.modSb p fun b => { b with stakes := Vector.replicate 256 none }
  let d := d.modTx p fun t => { t.stopClock d.now with toTx := false, buffer := [], rampDown := none, endAt := none
                                                       interval := none, retHop := false, mari := false }
  let d := d.modRx p fun x => { x with gauge := { x.gauge with run := none } }
  (d.modCal p fun c => { c with step := none, wanted := false }).femTo p .off

/-- A retirement enters the list once, with a record for config memory (R429). -/
def Dev.listRetired (d : Dev) (c : Charged) : Dev :=
  if d.flt.list.contains c.name then d
  else
    let d := { d with flt := { d.flt with list := d.flt.list ++ [c.name] } }
    d.queueRec (retireRec c.name)

/-- What every retirement does (R423, R429, R431): flags, log entry, list. `k` is the bit of FLT_PFLAG. -/
def Dev.noteRetired (d : Dev) (c : Charged) (k cause : Nat) : Dev :=
  let d := { d with flt := { d.flt with cntPerm := d.flt.cntPerm + 1 } }
  let d := (d.chipPflag k).logFault 3 c cause 0
  let d := match c.unitOf with | some r => d.regPflag r k | none => d
  d.listRetired c

/-- The boot ROM has handed over: from step 8 of a start on (R332). Until then the ROM moves to another core, and the
loss of the main core resets nothing (R430). -/
def Dev.romDone (d : Dev) : Bool := match d.pwr.phase with | .starting k => 9 ≤ k | _ => true

/-- A core is retired (R423); the main core's loss resets the module. -/
def Dev.retireCore (d : Dev) (c : CoreId) (cause : Nat) : Dev :=
  if (d.cores[c]).retired then d
  else
    let main := d.mainCore
    let d := d.noteRetired (.unit (.core c)) 3 cause
    let d := (d.holdCore c).modCore c fun x => { x with retired := true }
    if c = main ∧ d.romDone then d.chipReset (.unit (.core c)) cause else d

/-- A port is retired. -/
def Dev.retirePort (d : Dev) (p : PortId) (cause : Nat) : Dev :=
  if (d.ports[p]).rx.retired then d
  else
    let d := d.noteRetired (.unit (.port p)) 2 cause
    (d.portCut p).modRx p fun x => { x with retired := true }

/-- A region is retired (R423, R424): its ports, cores and banks go with it, and are not listed; its chains are
lost. -/
def Dev.retireRegion (d : Dev) (r : RegionId) (cause : Nat) : Dev :=
  if (d.regions[r]).retired then d
  else
    let main := d.mainCore
    let d := d.noteRetired (.unit (.region r)) 5 cause
    let d := (portsOf r).foldl (fun d p => (d.portCut p).modRx p fun x => { x with retired := true }) d
    let d := ((List.finRange 8).filter fun c => regionOfCore c = r).foldl (fun d c =>
      (d.holdCore c).modCore c fun x => { x with retired := true }) d
    let d := d.loseChains r
    let d := d.modRegion r fun x =>
      { x with retired := true, banks := 0xFF, dma := {}
               queues := vmap x.queues fun q => if q.en then q.disable else q
               link := { x.link with work := [], hold := Vector.replicate 16 none }
               second := { x.second with slices := [], reqs := [], hist := [], reports := []
                                         units := vmap x.second.units fun u => { u with job := none } }
               cipher := { x.cipher with chans := vmap x.cipher.chans fun c => { c with stage := .none } } }
    if regionOfCore main = r ∧ d.romDone then d.chipReset (.unit (.region r)) cause else d

/-- A lane is retired; with the last one, its port (R425). Its frame is aborted. -/
def Dev.retireLane (d : Dev) (p : PortId) (i : LaneId) (cause : Nat) : Dev :=
  if ((d.ports[p]).rx.lanes[i]).retired then d
  else
    let d := match ((d.ports[p]).rx.lanes[i]).job with | some j => d.abortJob p i j | none => d
    let d := d.noteRetired (.unit (.lane p i)) 0 cause
    let d := d.modRx p fun x => { x with plumbLane := if x.plumbLane = some i then none else x.plumbLane }
    let d := d.modLane p i fun l => { l with retired := true, work := .idle, due := none }
    if allLanes.all fun j => ((d.ports[p]).rx.lanes[j]).retired then d.retirePort p 8 else d

/-- A watcher is retired; with the last one, its port (R425). -/
def Dev.retireWatcher (d : Dev) (p : PortId) (i : WatcherId) (cause : Nat) : Dev :=
  if ((d.ports[p]).rx.watchers[i]).retired then d
  else
    let d := d.noteRetired (.unit (.watcher p i)) 1 cause
    let d := d.modWatcher p i fun w => { w with retired := true, cands := [] }
    if (List.finRange 64).all fun j => ((d.ports[p]).rx.watchers[j]).retired then d.retirePort p 8 else d

/-- A queue bank is retired; with the last one, its region (R426). -/
def Dev.retireBank (d : Dev) (r : RegionId) (b : Fin 8) (cause : Nat) : Dev :=
  if (d.regions[r]).banks.getLsbD b.val then d
  else
    let d := d.noteRetired (.unit (.queueBank r b)) 4 cause
    let d := d.dropBank r b
    if (d.regions[r]).banks = 0xFF then d.retireRegion r 8 else d

/-- What every fencing does (R25, R431): flags and log entry. -/
def Dev.noteFenced (d : Dev) (c : Charged) (r : RegionId) (cause : Nat) : Dev :=
  let d := { d with flt := { d.flt with cntPerm := d.flt.cntPerm + 1 } }
  ((d.chipPflag 6).regPflag r 5).logFault 4 c cause 0

/-- The number of usable pipes of a region. -/
def Cipher.usable (c : Cipher) : Nat := ((List.finRange 4).filter fun i => !c.fenced[i]).length

/-- A cipher pipe is fenced; a region with fewer than two usable pipes is retired (R26). -/
def Dev.fencePipe (d : Dev) (r : RegionId) (i : Fin 4) (cause : Nat) : Dev :=
  if (d.regions[r]).cipher.fenced[i] then d
  else
    let d := d.noteFenced (.unit (.pipe r i)) r cause
    let d := d.modCiph r fun c => { c with fenced := c.fenced.set i true }
    if (d.regions[r]).cipher.usable < 2 then d.retireRegion r 8 else d

/-- A second-look unit is fenced; its work is lost. SLNONE sets with the last one (R26). -/
def Dev.fenceLook (d : Dev) (r : RegionId) (i : Fin 4) (cause : Nat) : Dev :=
  if ((d.regions[r]).second.units[i]).fenced then d
  else
    let d := d.noteFenced (.unit (.lookUnit r i)) r cause
    let d := d.modSecond r fun s => { s with units := s.units.set i { fenced := true, job := none } }
    let d := if (List.finRange 4).all fun j => ((d.regions[r]).second.units[j]).fenced then (d.chipPflag 7).regPflag r 6 else d
    d.gcSlices r

/-- A chip block has a permanent fault (R427): CHIPBLK, and a reset unless the same block caused one less than 3600 s
ago; the time is kept on the elapsed count of the always-on domain. -/
def Dev.chipBlockFault (d : Dev) (g : Nat) (cause : Nat) : Dev :=
  let d := { d with flt := { d.flt with cntPerm := d.flt.cntPerm + 1 } }.chipPflag 8
  let recent := match d.flt.lastReset with
    | some (h, t) => h = g && (d.rtc.count + 2 ^ 48 - t) % 2 ^ 48 < 3600 * 65536
    | none => false
  if recent then d
  else { d with flt := { d.flt with lastReset := some (g, d.rtc.count) } }.chipReset (.unit (.chipBlock (Fin.ofNat 16 g))) cause

/-- The resource that a permanent fault of a child removes (R25, R423, R426, R427). -/
def Dev.removeChild (d : Dev) (t : FaultTarget) (cause : Nat) : Dev :=
  match t with
  | .lane p i => d.retireLane p i cause
  | .watcher p i => d.retireWatcher p i cause
  | .port p => d.retirePort p cause
  | .core c => d.retireCore c cause
  | .queueBank r b => d.retireBank r b cause
  | .region r => d.retireRegion r cause
  | .pipe r i => d.fencePipe r i cause
  | .lookUnit r i => d.fenceLook r i cause
  | .dmaEngine r _ => d.retireRegion r 8
  | .chipBlock g => d.chipBlockFault g.val cause

/-- A failure is charged (R420, R421): flags, counts, a log entry; at PERMCOUNT the fault is permanent. Memories and
the config-memory port (page 9) never become permanent by counting.
(Log entry 36 DEDUCED.) -/
def Dev.charge (d : Dev) (c : Charged) (cause : Nat) : Dev :=
  let d := d.transientFlag c cause
  let d := { d with flt := { d.flt with cntTrans := d.flt.cntTrans + 1 } }
  let d := match c.unitOf with | some r => d.modRegFlt r (fun f => { f with cntTrans := f.cntTrans + 1 }) | none => d
  let t := d.track c
  let d := t.1.logFault 1 c cause t.2
  match c with
  | .unit u =>
    if d.permCount ≤ t.2 ∧ u ≠ .chipBlock 9 then
      (d.logFault 2 c cause t.2).removeChild u cause
    else d
  | _ => d

/-- A child fails a hard self-test (R421, R422): KIND 5, and the fault is permanent at once.
(Log entry 36 DEDUCED.) -/
def Dev.selfTestFail (d : Dev) (t : FaultTarget) : Dev :=
  (d.logFault 5 (.unit t) 6 0).removeChild t 6

/-- The child is out of its pool already. -/
def Dev.gone (d : Dev) (t : FaultTarget) : Bool :=
  match t with
  | .lane p i => ((d.ports[p]).rx.lanes[i]).retired || (d.ports[p]).rx.retired
  | .watcher p i => ((d.ports[p]).rx.watchers[i]).retired || (d.ports[p]).rx.retired
  | .port p => (d.ports[p]).rx.retired
  | .core c => (d.cores[c]).retired
  | .queueBank r b => (d.regions[r]).banks.getLsbD b.val
  | .region r => (d.regions[r]).retired
  | .pipe r i => (d.regions[r]).cipher.fenced[i] || (d.regions[r]).retired
  | .lookUnit r i => ((d.regions[r]).second.units[i]).fenced || (d.regions[r]).retired
  | .dmaEngine r _ => (d.regions[r]).retired
  | .chipBlock _ => false

/-- Some resource is retired: the state is DEGRADED (R12, R431). -/
def Dev.degraded (d : Dev) : Bool :=
  d.flt.list ≠ [] || d.anyRegion (·.retired) || d.anyPort (fun p => p.rx.retired) ||
    (List.finRange 8).any (fun c => (d.cores[c]).retired)

end Sys2Proof.Machine
end

