-- ==== Sys2Proof/Machine/FlashOps.lean ====
section
/-! DEFINITION. The flash die and its controller (R337 to R348): reads, operations, the page. Addresses are those of
the map of R32; a word that is not listed reads as ones. -/

namespace Sys2Proof.Machine

/-- The erase block of an address (R337). -/
def flashBlk (a : Nat) : Nat := (a - 0x08000000) / 0x10000

/-- The address lies in the flash windows. -/
def inFlash (a : Nat) : Bool := 0x08000000 ≤ a && a < 0x08800000

/-- ES and EC of a block (R346). -/
def Flash.counts (f : Flash) (b : Nat) : BlkCnt := (f.blocks.find? fun x => x.blk = b).getD { blk := b, es := 0, ec := 0 }

/-- The journal takes new counts; blocks at manufacture's counts are not listed. -/
def Flash.setCounts (f : Flash) (c : BlkCnt) : Flash := { f with blocks := c :: f.blocks.filter fun x => x.blk ≠ c.blk }

/-- The block of a suspended erase. -/
def Flash.suspended (f : Flash) : Option Nat := match f.op with | .suspended b _ => some b | _ => none

/-- The bank that a program or erase runs on, not suspended (R343). -/
def Flash.busyBank (f : Flash) : Option Nat :=
  match f.op with
  | .program a => some (flashBlk a / 64)
  | .erase b _ _ => some (b / 64)
  | _ => none

/-- Reads of the block give the poison word (R345, R346). -/
def Flash.poisoned (f : Flash) (b : Nat) : Bool := f.half.contains b || f.suspended = some b

/-- A flag of FLASH_STAT, numbered from bit 2. -/
def Flash.flag (f : Flash) (i : Nat) : Flash := { f with flags := f.flags ||| (1#6 <<< i) }

/-- Byte of the poison word at an address. -/
def poisonByte (a : Nat) : Byte := byteAt [0xE5#8, 0xE5#8, 0xAD#8, 0xDE#8] (a % 4)

/-- A byte of flash as a data read gives it.
(Log entry 5 DESIGN CHOICE.) -/
def Flash.byte (f : Flash) (a : Nat) : Byte := if f.poisoned (flashBlk a) then poisonByte a else memGet 0xFF f.mem a

/-- n bytes of flash as a data read gives them. -/
def Flash.bytes (f : Flash) (a : Nat) : Nat → List Byte
  | 0 => []
  | n + 1 => f.byte a :: f.bytes (a + 1) n

/-- A data read that returned poison leaves ERS_PENDING and the address (R345). -/
def Flash.touch (f : Flash) (a n : Nat) : Flash :=
  match (List.range ((n + 0xFFFF) / 0x10000 + 1)).find? fun k => flashBlk a + k ≤ flashBlk (a + n - 1) && f.poisoned (flashBlk a + k) with
  | some k => if 0 < n then { f.flag 1 with errAddr := BitVec.ofNat 32 (max a (0x08000000 + (flashBlk a + k) * 0x10000)) } else f
  | none => f

/-- The outcome of a read of memory or of a page. -/
inductive Rd where
  | data (w : Word)
  | error
  | held
  deriving DecidableEq, Repr

/-- The outcome of a write. -/
inductive Wr where
  | done
  | error
  | held
  deriving DecidableEq, Repr

/-- The bit error of the code word at an address; a word not programmed since its erase has no check bits (R338). -/
def Flash.errAt (f : Flash) (a : Nat) : Option Bool :=
  if f.prog.contains (a / 16 * 16) then (f.errs.find? fun x => x.1 = a / 16 * 16).map (·.2) else none

/-- A code word with a bit error is read for address `a` (R338): one wrong bit is corrected in what is returned and the
word keeps it; two end the read with a bus error.
(Log entry 68 DESIGN CHOICE.) -/
def Dev.flashErr (d : Dev) (a : Nat) (double : Bool) : Dev :=
  let f := d.flash
  if double then { d with flash := { f.flag 3 with errAddr := BitVec.ofNat 32 a } }.charge .flash 3
  else { d with flash := { f.flag 2 with ecc1cnt := f.ecc1cnt + 1 } }.charge .flash 2

/-- A read of n bytes (1, 2 or 4) at an aligned address (R338, R343, R345): its outcome, and what it leaves. -/
def Dev.flashRead (d : Dev) (a n : Nat) (fetch : Bool) : Dev × Rd :=
  let f := d.flash
  let w : Word := BitVec.ofNat 32 (bytesNat (f.bytes a n))
  if f.busyBank = some (flashBlk a / 64) then (d, .held)
  else if f.poisoned (flashBlk a) then
    if fetch then (d, .error) else ({ d with flash := f.touch a n }, .data w)
  else
    match f.errAt a with
    | none => (d, .data w)
    | some e => (d.flashErr a e, if e then .error else .data w)

/-- The STATUS with which an operation is refused before it starts (R342); `port`: it comes from the register port.
(Log entry 67 DEDUCED.) -/
def Flash.refusal (f : Flash) (op a : Nat) (port : Bool) : Option Nat :=
  let b := flashBlk a
  if !inFlash a || (op = 1 && a % 16 ≠ 0) then some 6
  else if port && bit f.wp[Fin.ofNat 4 (b / 32)] (b % 32) then some 5
  else if op = 1 && f.half.contains b then some 7
  else if f.suspended.isSome then some 8
  else if op = 1 && f.prog.contains a then some 4
  else none

/-- A program starts: from here on the word counts as programmed (R339, R340).
(Log entry 67 DEDUCED.) -/
def Flash.program (f : Flash) (a : Nat) (l : List Byte) : Flash :=
  { f with op := .program a, prog := a :: f.prog, mem := memWrite 0xFF f.mem a (padTo 16 l), status := 1 }

/-- An erase starts: ES counts (R341). -/
def Flash.erase (f : Flash) (b now : Nat) : Flash :=
  let c := f.counts b
  { f.setCounts { c with es := (c.es + 1) % 2 ^ 24 } with
    op := .erase b 0 now, status := 1, suspends := 0, lastBlk := b }

/-- The block is erased: EC becomes ES, and the block is HALF no more (R341, R346). -/
def Flash.erased (f : Flash) (b : Nat) : Flash :=
  let c := f.counts b
  let lo := 0x08000000 + b * 0x10000
  { f.setCounts { c with ec := c.es } with
    mem := f.mem.filter fun x => x.1 < lo || lo + 0x10000 ≤ x.1
    prog := f.prog.filter fun x => x < lo || lo + 0x10000 ≤ x
    errs := f.errs.filter fun x => x.1 < lo || lo + 0x10000 ≤ x.1
    half := f.half.filter fun x => x ≠ b }

/-- A write of FLASH_CMD (R339, R341, R342).
(Log entry 67 DEDUCED.) -/
def Flash.command (f : Flash) (v : Word) (now : Nat) : Flash :=
  let op := fld v 0 2
  let f := { f with cmdOp := op }
  if !bit v 2 then f
  else if f.status = 1 ∨ f.status = 2 then f.flag 4
  else if op ≠ 1 ∧ op ≠ 2 then f
  else
    let a := f.addr.toNat
    let f := { f with src := false }
    match f.refusal op a true with
    | some st => refused (if st = 4 then f.flag 0 else f) st
    | none => if op = 1 then f.program a (bytesOf32 f.data.toList) else f.erase (flashBlk a) now
where
  /-- nothing changes but STATUS -/
  refused (f : Flash) (st : Nat) : Flash := { f with status := st }

/-- A program ends (R339). -/
def Flash.programDone (f : Flash) : Flash :=
  match f.op with
  | .program _ => { f with op := .idle, status := 3 }
  | _ => f

/-- An erase pulse ends with a verify of the block (R341).
(Log entry 67 DEDUCED.) -/
def Flash.pulseEnd (f : Flash) (ok : Bool) (now : Nat) : Flash :=
  match f.op with
  | .erase b n _ =>
    if ok then { f.erased b with op := .idle, status := 3 }
    else if 160 ≤ n + 1 then { f with op := .idle, status := 9, half := b :: f.half.filter fun x => x ≠ b }
    else { f with op := .erase b (n + 1) now }
  | _ => f

/-- The least elapsed tick at which the pulse in progress can end: 500 µs after its start.
(Log entry 67 DEDUCED.) -/
def Flash.pulseDue (f : Flash) (now : Nat) : Nat :=
  match f.op with
  | .erase _ _ t => t + 500 * usTicks
  | _ => now

/-- SUSPEND and RESUME (R344).
(Log entry 67 DEDUCED.) -/
def Flash.suspend (f : Flash) (v : Word) (now : Nat) : Flash :=
  let f := match f.op with
    | .erase b n _ =>
      if bit v 0 then { f with op := .suspended b n, status := 2, suspends := (f.suspends + 1) % 65536 } else f
    | _ => f
  match f.op with
  | .suspended b n => if bit v 1 then { f with op := .erase b n now, status := 1 } else f
  | _ => f

/-- Time left of the erase at most, in microseconds (R341).
(Log entry 67 DEDUCED.) -/
def Flash.remaining (f : Flash) : Nat :=
  match f.op with
  | .erase _ n _ => (160 - n) * 500
  | .suspended _ n => (160 - n) * 500
  | _ => 0

/-- FLASH_BLKINFO of a block. -/
def Flash.blkInfo (f : Flash) (b : Nat) : Word :=
  pack [(0, (f.counts b).es), (24, b2n (f.half.contains b)), (25, b2n (decide (f.suspended = some b))),
        (26, b2n (bit f.wp[Fin.ofNat 4 (b / 32)] (b % 32))), (27, b2n (decide (b ≤ 95)))]

/-- The flash controller's interrupt is pending (R348). -/
def Flash.irq (f : Flash) : Bool := decide (3 ≤ f.status)

/-- Reads of the page (R348). -/
def Flash.read (f : Flash) (o : Nat) : Option Word :=
  if 0x8 ≤ o ∧ o < 0x18 then some f.data[Fin.ofNat 4 ((o - 8) / 4)]
  else if 0x40 ≤ o ∧ o < 0x50 then some f.wp[Fin.ofNat 4 ((o - 0x40) / 4)]
  else if 0x100 ≤ o ∧ o < 0x300 then some (f.blkInfo ((o - 0x100) / 4))
  else match o with
    | 0x00 => some (pack [(0, f.cmdOp), (8, f.status), (12, b2n f.src)])
    | 0x04 => some f.addr
    | 0x18 => some 0
    | 0x1C => some (pack [(0, b2n (decide (f.busyBank = some 0))), (1, b2n (decide (f.busyBank = some 1))), (2, f.flags.toNat)])
    | 0x20 => some f.errAddr
    | 0x24 => some (BitVec.ofNat 32 f.remaining)
    | 0x28 => some (pack [(0, f.suspends), (16, f.lastBlk), (23, b2n (decide (0 < f.remaining)))])
    | 0x2C => some f.ecc1cnt
    | _ => none

/-- Writes of the page (R348). -/
def Flash.write (f : Flash) (now o : Nat) (v : Word) : Flash :=
  if 0x8 ≤ o ∧ o < 0x18 then { f with data := f.data.set (Fin.ofNat 4 ((o - 8) / 4)) v }
  else if 0x40 ≤ o ∧ o < 0x50 then
    let i := Fin.ofNat 4 ((o - 0x40) / 4)
    { f with wp := f.wp.set i (f.wp[i] ||| v) }
  else match o with
    | 0x00 => f.command v now
    | 0x04 => { f with addr := v }
    | 0x18 => f.suspend v now
    | 0x1C => { f with flags := f.flags &&& ~~~(BitVec.ofNat 6 (fld v 2 6)) }
    | _ => f

end Sys2Proof.Machine
end

