-- ==== Sys2Proof/Machine/Ecc.lean ====
section
/-! DEFINITION. Stored words and their check bits (R328, R329, R338, R358): bit errors that come up, reads and writes of
SRAM and context memory, and memory as the engines of the chip and of a region read and write it. SRAM is kept under its
addresses, context memory under its offsets. -/

namespace Sys2Proof.Machine

/-- What an SRAM or context-memory address is charged to (R329). -/
def sramUnit (a : Nat) : Charged :=
  if a < 0x21000000 then .chipSram
  else if a < 0x30000000 then .regionSram (Fin.ofNat 4 ((a - 0x21000000) / 0x100000))
  else .ctxMem

/-- The address lies in SRAM of a part that is in service. -/
def Dev.sramAlive (d : Dev) (a : Nat) : Bool :=
  match winOf a with
  | .csram _ => true
  | .rsram r _ => !(d.regions[r]).retired
  | _ => false

/-! ### Bit errors -/

/-- One bit error comes up: in a word of SRAM, context memory or boot ROM, in a programmed code word of flash, or in a
word that waits in a queue. -/
def Dev.upset1 (d : Dev) (e : BitErr) : Dev :=
  match e.place with
  | .queue q i =>
    d.modQueue q fun x => { x with words := x.words.modify i fun w => { w with err := some (e.double || w.err = some true) } }
  | .at_ a =>
    let a := a.toNat
    let put := fun (l : List (Nat × Bool)) (k : Nat) => (k, e.double || l.contains (k, true)) :: l.filter fun x => x.1 ≠ k
    match winOf a with
    | .flash _ => { d with flash := { d.flash with errs := put d.flash.errs (a / 16 * 16) } }
    | .rom _ => { d with errs := put d.errs (a / 4 * 4) }
    | .csram _ => { d with errs := put d.errs (a / 4 * 4) }
    | .rsram _ _ => { d with errs := put d.errs (a / 4 * 4) }
    | .ctx _ => { d with errs := put d.errs (a / 4 * 4) }
    | _ => d

/-- The bit errors that have come up by the time of a command.
(Log entry 68 DESIGN CHOICE.) -/
def Dev.upset (d : Dev) (l : List BitErr) : Dev := l.foldl Dev.upset1 d

/-- The same on the whole state. -/
def State.upset (s : State) (l : List BitErr) : State := { s with d := s.d.upset l }

/-- The bit error of a word. -/
def Dev.errAt (d : Dev) (a : Nat) : Option Bool := (d.errs.find? fun x => x.1 = a).map (·.2)

/-- The bit errors of the words from `lo` up to `hi` are no more. -/
def Dev.mend (d : Dev) (lo hi : Nat) : Dev := { d with errs := d.errs.filter fun x => x.1 < lo || hi ≤ x.1 }

/-! ### Queue words (R358) -/

/-- The bank that holds the head word (R349). -/
def Queue.headBank (q : Queue) : Fin 8 := Fin.ofNat 8 ((q.base + q.rptr % q.size) / 8192)

/-- What a word that is taken gives: 0 where two of its bits are wrong. -/
def QWord.value (w : QWord) : Word64 := if w.err = some true then 0 else w.data

/-- The head word leaves a queue, its end mark correct; an error is charged to its bank, and two wrong bits set ECC2. -/
def Dev.takeWord (d : Dev) (q : QueueId) : Dev :=
  let x := d.queue q
  match x.words with
  | [] => d
  | w :: _ =>
    let bank := Charged.unit (.queueBank (regionOfQueue q) x.headBank)
    match w.err with
    | none => d.modQueue q Queue.pop
    | some false => (d.modQueue q Queue.pop).charge bank 2
    | some true => (d.modQueue q fun x => { x.pop with ecc2 := true }).charge bank 3

/-- A hardware consumer takes n words (R356). -/
def Dev.takeWords (d : Dev) (q : QueueId) : Nat → Dev
  | 0 => d.wakeDomain (regionOfQueue q) 8
  | n + 1 => (d.takeWords q n).takeWord q

/-! ### SRAM and context memory (R329) -/

/-- The bytes of SRAM or context memory at an address. -/
def State.memBytes (s : State) (a n : Nat) : List Byte :=
  if 0x30000000 ≤ a then memRead 0 s.d.cl.ctx (a - 0x30000000) n else memRead 0 s.ram a n

/-- The word at the aligned address `a` is checked on a read: one wrong bit is corrected in the memory too; a word with
two stays as it is until it is written whole. `false`: the read ends with a bus error. -/
def Dev.check (d : Dev) (a : Nat) : Dev × Bool :=
  match d.errAt a with
  | none => (d, true)
  | some false => ((d.mend a (a + 4)).charge (sramUnit a) 2, true)
  | some true => (d.charge (sramUnit a) 3, false)

/-- A read of the aligned word of SRAM or context memory at `a` (R329). -/
def State.eccRead (s : State) (a : Nat) : State × Rd :=
  let w : Word := BitVec.ofNat 32 (bytesNat (s.memBytes a 4))
  let x := s.d.check a
  ({ s with d := x.1 }, if x.2 then .data w else .error)

/-- Reservations on the words from `lo` up to `hi` are broken (R324). -/
def Dev.breakResv (d : Dev) (lo hi : Nat) : Dev :=
  { d with cores := vmap d.cores fun c =>
      if c.resv.any (fun w => lo ≤ w.toNat && w.toNat < hi) then { c with resv := none } else c }

/-- The words that a write of n bytes at `a` covers in part are read first (R329): `false` where one cannot be. -/
def Dev.checkEdges (d : Dev) (a n : Nat) : Dev × Bool :=
  let one := fun (d : Dev) (w : Nat) => if a ≤ w && w + 4 ≤ a + n then (d, true) else d.check w
  let x := one d (a / 4 * 4)
  if !x.2 || (a + n - 1) / 4 = a / 4 then x else one x.1 ((a + n - 1) / 4 * 4)

/-- A string of bytes is written to SRAM (R324, R329): a word that it covers in part is read first, so the write fails on
two wrong bits there; the words it covers whole are mended, and reservations on every word it touches end. -/
def State.sramWrite (s : State) (a : Nat) (l : List Byte) : State × Wr :=
  if l.length = 0 then (s, .done)
  else
    let x := s.d.checkEdges a l.length
    if !x.2 then ({ s with d := x.1 }, .error)
    else
      let lo := a / 4 * 4
      let hi := (a + l.length + 3) / 4 * 4
      ({ s with ram := memWrite 0 s.ram a l, d := (x.1.mend lo hi).breakResv lo hi }, .done)

/-! ### Memory as the engines read it -/

/-- What a read of a string of bytes gives. -/
inductive StrRd where
  | data (l : List Byte)
  | error
  | held
  | outside
  deriving DecidableEq, Repr

/-- Every word of SRAM from address `a` on is checked. -/
def Dev.checkAll (a n : Nat) : List (Nat × Bool) → Dev → Dev × Bool
  | [], d => (d, true)
  | e :: l, d =>
    if e.1 + 4 ≤ a || a + n ≤ e.1 then Dev.checkAll a n l d
    else
      let x := d.check e.1
      let y := Dev.checkAll a n l x.1
      (y.1, x.2 && y.2)

/-- Every code word of flash from address `a` on is checked. -/
def Dev.flashAll (a n : Nat) : List (Nat × Bool) → Dev → Dev × Bool
  | [], d => (d, true)
  | e :: l, d =>
    if e.1 + 16 ≤ a || a + n ≤ e.1 || !d.flash.prog.contains e.1 || d.flash.poisoned (flashBlk e.1) then Dev.flashAll a n l d
    else
      let y := Dev.flashAll a n l (d.flashErr (max a e.1) e.2)
      (y.1, !e.2 && y.2)

/-- n bytes from address a, when they lie wholly in chip SRAM, in one region's SRAM or in one flash bank (R225), read as
any initiator reads them (R329, R338, R343, R345). -/
def Dev.strRead (d : Dev) (ram : Memory) (a n : Nat) : Dev × StrRd :=
  let within := fun (lo size : Nat) => lo ≤ a && a + n ≤ lo + size
  let bank := fun (k : Nat) =>
    if d.flash.busyBank = some k ∧ 0 < n then (d, StrRd.held)
    else
      let l := d.flash.bytes a n
      let x := Dev.flashAll a n d.flash.errs { d with flash := d.flash.touch a n }
      (x.1, if x.2 then .data l else .error)
  if within 0x20000000 0x80000 || (List.finRange 4).any (fun r => !(d.regions[r]).retired && within (0x21000000 + r.val * 0x100000) 0x100000) then
    let x := Dev.checkAll a n d.errs d
    (x.1, if x.2 then .data (memRead 0 ram a n) else .error)
  else if within 0x08000000 0x400000 then bank 0
  else if within 0x08400000 0x400000 then bank 1
  else (d, .outside)

/-- n bytes from address a lie wholly in chip SRAM. -/
def inChipSram (a n : Nat) : Bool := 0x20000000 ≤ a && a + n ≤ 0x20080000

end Sys2Proof.Machine
end

