-- ==== Sys2Proof/Machine/QuePage.lean ====
section
/-! DEFINITION. The queue page of a region (R349 to R360) and the mailbox page (R372 to R375) as accesses see them. -/

namespace Sys2Proof.Machine

/-! ### Queues -/

/-- A read of QUE_RD_LO (R355, R358). -/
def Dev.queTake (d : Dev) (i : Initiator) (q : QueueId) : Dev × Word :=
  match (d.queue q).words with
  | [] => (d.modLatch i fun l => { l with qhi := hi32 idleWord, qeop := false, qempty := true, qerr := false }, lo32 idleWord)
  | w :: _ =>
    ((d.takeWord q).modLatch i fun l => { l with qhi := hi32 w.value, qeop := w.eop, qempty := false, qerr := w.err = some true },
     lo32 w.value)

/-- A push through QUE_WR_HI or QUE_WREND_HI (R352, R354). -/
def Dev.quePush (d : Dev) (i : Initiator) (q : QueueId) (v : Word) (eop : Bool) : Dev × Wr :=
  let x := d.queue q
  if x.full && !x.discard then (d, .held)
  else (d.modQueue q fun x => x.push (join64 v (d.latch[i]).qwr) eop, .done)

/-- A write of QUE_CFG (R350). -/
def Queue.writeCfg (q : Queue) (v : Word) : Queue :=
  if q.en then { q with cfgbad := true }
  else
    let depth := fld v 16 4
    { q with base := fld v 0 16, depth, wptr := q.wptr % 2 ^ (depth + 1), rptr := q.rptr % 2 ^ (depth + 1) }

/-- A write of QUE_CTL (R350, R357): EN, then FLUSH.
(Log entry 70 DEDUCED.) -/
def Region.writeQueCtl (x : Region) (i : Fin 32) (v : Word) : Region :=
  let q := { x.queues[i] with pktie := bit v 2, lowie := bit v 3 }
  let q := if !bit v 0 then q.disable
    else if q.en then q
    else if x.enableRefused i then { q with cfgbad := true }
    else { q with en := true, discard := false, lastEop := true }
  let q := if bit v 1 then q.flush else q
  { x with queues := x.queues.set i q }

/-- QUE_FLAG. -/
def Queue.flags (q : Queue) : Word :=
  pack [(0, b2n q.flushed), (1, b2n q.discard), (2, b2n q.ecc2), (3, b2n q.cfgbad)]

/-- The queue's interrupt is pending (R359). -/
def Queue.irq (q : Queue) : Bool :=
  q.en && ((q.pktie && decide (0 < q.pktcnt)) || (q.lowie && decide (q.words.length ≤ q.lowmark)))

/-- The data registers of a queue (R360). -/
def queData (b : Nat) : Bool := b = 0x20 || b = 0x24 || b = 0x28 || b = 0x30 || b = 0x34 || b = 0x38

/-- Reads of the queue page. The data registers of a disabled queue end with a bus error (R357). -/
def Dev.queRead (d : Dev) (i : Initiator) (r : RegionId) (o : Nat) : Dev × Rd :=
  if o = 0x800 then (d, .data ((d.regions[r]).banks.setWidth 32))
  else if 0x800 ≤ o then (d, .data 0)
  else
    let q := queueOf r (Fin.ofNat 32 (o / 0x40))
    let x := d.queue q
    let l := d.latch[i]
    let b := o % 0x40
    if queData b ∧ !x.en then (d, .error)
    else if b = 0x30 then let t := d.queTake i q; (t.1, .data t.2)
    else (d, .data (match b with
      | 0x00 => pack [(0, x.base), (16, x.depth)]
      | 0x04 => pack [(0, b2n x.en), (2, b2n x.pktie), (3, b2n x.lowie)]
      | 0x08 => BitVec.ofNat 32 x.lowmark
      | 0x0C => pack [(0, x.words.length), (16, x.free % 32768)]
      | 0x10 => BitVec.ofNat 32 x.pktcnt
      | 0x14 => pack [(0, x.wptr % 32768), (16, x.rptr % 32768)]
      | 0x18 => x.flags
      | 0x34 => l.qhi
      | 0x38 => pack [(0, b2n l.qeop), (1, b2n l.qempty), (2, b2n l.qerr)]
      | _ => 0))

/-- Writes of the queue page. -/
def Dev.queWrite (d : Dev) (i : Initiator) (r : RegionId) (o : Nat) (v : Word) : Dev × Wr :=
  if 0x800 ≤ o then (d, .done)
  else
    let k := Fin.ofNat 32 (o / 0x40)
    let q := queueOf r k
    let b := o % 0x40
    if queData b ∧ !(d.queue q).en then (d, .error)
    else match b with
      | 0x00 => (d.modQueue q fun x => x.writeCfg v, .done)
      | 0x04 =>
        let d := d.modRegion r fun x => x.writeQueCtl k v
        (if bit v 0 then d else d.failPushes q, .done)
      | 0x08 => (d.modQueue q fun x => { x with lowmark := fld v 0 15 }, .done)
      | 0x18 => (d.modQueue q fun x =>
          { x with flushed := x.flushed && !bit v 0, ecc2 := x.ecc2 && !bit v 2, cfgbad := x.cfgbad && !bit v 3 }, .done)
      | 0x20 => (d.modLatch i fun l => { l with qwr := v }, .done)
      | 0x24 => d.quePush i q v false
      | 0x28 => d.quePush i q v true
      | _ => (d, .done)

/-! ### Mailboxes -/

/-- The mailbox number of an initiator (R372): cores and trunk links have one. -/
def mbxParty (i : Initiator) : Option (Fin 10) := if h : i.val < 10 then some ⟨i.val, h⟩ else none

/-- A message waits for a core (R374). -/
def Mbx.forCore (x : Mbx) (m : Fin 16) : Bool := m.val < 12 || x.sender = 8 || x.sender = 9

/-- RXCORE in effect. -/
def Mbx.rx (x : Mbx) : Nat := if x.rxcore < 8 then x.rxcore else 0

/-- Mailbox m's interrupt is pending in core c (R374). -/
def Mbx.irq (x : Mbx) (m : Fin 16) (c : CoreId) : Bool :=
  (x.full && x.forCore m && decide (x.rx = c.val)) || (x.taken && decide (x.sender = c.val))

/-- A post (R373, R374); `false` when the mailbox holds a message. -/
def Dev.mbxPost (d : Dev) (p : Fin 10) (m : Fin 16) (v : Word) : Dev × Bool :=
  if (d.mbx[m]).full then (d.modMbx m fun x => { x with postfail := true }, false)
  else
    let d := d.modMbx m fun x => { x with msg := v, full := true, sender := p.val }
    (if p.val < 8 ∧ 12 ≤ m.val then d.attnCause (4 + (m.val - 12)) else d, true)

/-- A take (R373, R374); `none` when nothing waits. -/
def Dev.mbxTake (d : Dev) (p : Fin 10) (m : Fin 16) : Dev × Option Word :=
  let x := d.mbx[m]
  if x.full then
    let d := d.modMbx m fun x => { x with full := false, taken := true }
    (if p.val < 8 ∧ 12 ≤ m.val ∧ (x.sender = 8 ∨ x.sender = 9) then d.attnCause (8 + (m.val - 12)) else d, some x.msg)
  else (d, none)

/-- A read of MBX_LOCK (R372). -/
def Dev.mbxLock (d : Dev) (p : Fin 10) (m : Fin 16) : Dev × Word :=
  match (d.mbx[m]).owner with
  | none => (d.modMbx m fun x => { x with owner := some p }, 0)
  | some o => if o = p then (d, 0) else (d, BitVec.ofNat 32 (o.val + 1))

/-- A write of MBX_LOCK (R372). -/
def Mbx.unlock (x : Mbx) (p : Fin 10) (v : Word) : Mbx :=
  if x.owner = some p then (if v = 0 then { x with owner := none } else x)
  else { x with lockerr := true }

/-- MBX_STAT. -/
def Mbx.stat (x : Mbx) : Word :=
  pack [(0, b2n x.full), (1, b2n x.taken), (2, b2n x.postfail), (3, b2n x.lockerr), (4, x.sender), (8, x.rxcore),
        (12, match x.owner with | some o => o.val + 1 | none => 0)]

/-- Reads of the mailbox page; an initiator without a number gets a bus error. -/
def Dev.mbxRead (d : Dev) (i : Initiator) (o : Nat) : Dev × Rd :=
  match mbxParty i with
  | none => (d, .error)
  | some p =>
    if 0x100 ≤ o then (d, .data 0)
    else
      let m : Fin 16 := Fin.ofNat 16 (o / 0x10)
      match o % 0x10 with
      | 0x0 => let t := d.mbxLock p m; (t.1, .data t.2)
      | 0x4 => (d, .data (d.mbx[m]).msg)
      | 0x8 => let t := d.mbxTake p m; (t.1, .data (t.2.getD 0))
      | _ => (d, .data (d.mbx[m]).stat)

/-- Writes of the mailbox page. TAKEN clears only for the sender (R374). -/
def Dev.mbxWrite (d : Dev) (i : Initiator) (o : Nat) (v : Word) : Dev × Wr :=
  match mbxParty i with
  | none => (d, .error)
  | some p =>
    if 0x100 ≤ o then (d, .done)
    else
      let m : Fin 16 := Fin.ofNat 16 (o / 0x10)
      match o % 0x10 with
      | 0x0 => (d.modMbx m fun x => x.unlock p v, .done)
      | 0x4 => ((d.mbxPost p m v).1, .done)
      | 0xC => (d.modMbx m fun x =>
          { x with taken := x.taken && !(bit v 1 && x.sender = p.val), postfail := x.postfail && !bit v 2
                   lockerr := x.lockerr && !bit v 3, rxcore := fld v 8 4 }, .done)
      | _ => (d, .done)

end Sys2Proof.Machine
end

