-- ==== Sys2Proof/Machine/Mem.lean ====
section
/-! DEFINITION. The memory windows of R32 as accesses see them: boot ROM, flash, chip and region SRAM, context memory
(R328, R329, R338, R469). SRAM is kept under its addresses, context memory under its offsets. -/

namespace Sys2Proof.Machine

/-- A write of a word of context memory; offset 0x3C of an installed context takes none (R469). -/
def State.ctxWrite (s : State) (o : Nat) (v : Word) : State × Wr :=
  if o % 64 = 0x3C ∧ s.d.installed (Fin.ofNat 4096 (o / 64)) then (s, .done)
  else
    let d := s.d.mend (0x30000000 + o) (0x30000000 + o + 4)
    ({ s with d := { d with cl := { d.cl with ctx := memWrite 0 d.cl.ctx o (natBytes 4 v.toNat) } } }, .done)

/-- The handler at 0x0000_0100 of the boot ROM (R333): it clears mstatus.MIE and mie, and waits in WFI for good. -/
def romHandler : List Word := [0x30047073, 0x30401073, 0x10500073, 0xFFDFF06F]

/-- Word of the boot ROM as data.
(Log entry 9 UNVERIFIED.) -/
def romWord (o : Nat) : Word := BitVec.ofNat 32 (bytesNat ((List.range 4).map fun i => Config.romByte (o + i)))

/-- Word of the boot ROM as an instruction: R333 says what the handler's do, not how they are encoded.
(Log entry 9 UNVERIFIED.) -/
def romCode (o : Nat) : Word := if 0x100 ≤ o ∧ o < 0x110 then romHandler.getD ((o - 0x100) / 4) 0 else romWord o

/-- The part of a word that an access of n bytes at address a reads. -/
def narrow (w : Word) (a n : Nat) : Word := BitVec.ofNat 32 (w.toNat >>> (8 * (a % 4)) % 256 ^ n)

/-- The part of a read's answer that an access reads. -/
def Rd.narrow (x : Rd) (a n : Nat) : Rd :=
  match x with
  | .data w => .data (Machine.narrow w a n)
  | y => y

/-- A read of n bytes (1, 2 or 4, aligned) of a memory window, `none` elsewhere. `fetch`: an instruction fetch, which
context memory does not serve; a parity error of the boot ROM is a bus error (R328). -/
def State.memLoad (s : State) (a n : Nat) (fetch : Bool) : Option (State × Rd) :=
  let wa := a / 4 * 4
  match winOf a with
  | .rom _ => some (s, if (s.d.errAt wa).isSome then .error else (Rd.data (if fetch then romCode wa else romWord wa)).narrow a n)
  | .flash _ => let x := s.d.flashRead a n fetch; some ({ s with d := x.1 }, x.2)
  | .csram _ => let x := s.eccRead wa; some (x.1, x.2.narrow a n)
  | .rsram r _ => if (s.d.regions[r]).retired then some (s, .error) else let x := s.eccRead wa; some (x.1, x.2.narrow a n)
  | .ctx _ => if n ≠ 4 || fetch then some (s, .error) else some (s.eccRead wa)
  | _ => none

/-- A write of n bytes (1, 2 or 4, aligned) of a memory window, `none` elsewhere. -/
def State.memStore (s : State) (a n : Nat) (v : Word) : Option (State × Wr) :=
  match winOf a with
  | .rom _ => some (s, .error)
  | .flash _ => some (s, .error)
  | .csram _ => some (s.sramWrite a (natBytes n v.toNat))
  | .rsram r _ => if (s.d.regions[r]).retired then some (s, .error) else some (s.sramWrite a (natBytes n v.toNat))
  | .ctx o => if n ≠ 4 then some (s, .error) else some (s.ctxWrite o v)
  | _ => none

/-- An 8-byte access of a memory window is two words (R363); anywhere else it ends with a bus error. -/
def State.load8 (s : State) (a : Nat) : State × Option (Except Unit Word64) :=
  match s.memLoad a 4 false with
  | some (s, .data lo) =>
    match s.memLoad (a + 4) 4 false with
    | some (s, .data hi) => (s, some (.ok (join64 hi lo)))
    | some (s, .held) => (s, none)
    | some (s, .error) => (s, some (.error ()))
    | none => (s, some (.error ()))
  | some (s, .held) => (s, none)
  | some (s, .error) => (s, some (.error ()))
  | none => (s, some (.error ()))

/-- An 8-byte write of a memory window; `false`: a bus error. -/
def State.store8 (s : State) (a : Nat) (v : Word64) : State × Bool :=
  match s.memStore a 4 (lo32 v) with
  | some (s, .done) =>
    match s.memStore (a + 4) 4 (hi32 v) with
    | some (s, .done) => (s, true)
    | _ => (s, false)
  | _ => (s, false)

end Sys2Proof.Machine
end

