-- ==== Sys2Proof/Machine/DmaPage.lean ====
section
/-! DEFINITION. DMA channels (R361 to R371) as accesses to their page see them: descriptors, hand-over, ends, abort. The
bursts themselves are in Dma.lean. -/

namespace Sys2Proof.Machine

/-- Source kind, destination kind, ELEM in bytes, SWAP and the single bits of DMA_NCFG. -/
def Desc.srcKind (x : Desc) : Nat := fld x.cfg 0 2
/-- DSTKIND. -/
def Desc.dstKind (x : Desc) : Nat := fld x.cfg 2 2
/-- Element size in bytes. -/
def Desc.elem (x : Desc) : Nat := if bit x.cfg 4 then 8 else 4
/-- SWAP. -/
def Desc.swap (x : Desc) : Nat := fld x.cfg 5 2
/-- PKT. -/
def Desc.pkt (x : Desc) : Bool := bit x.cfg 7
/-- EOP. -/
def Desc.eop (x : Desc) : Bool := bit x.cfg 8
/-- CRC. -/
def Desc.crcOn (x : Desc) : Bool := bit x.cfg 9
/-- CRCSTORE. -/
def Desc.crcStore (x : Desc) : Bool := bit x.cfg 10
/-- IE. -/
def Desc.ieOn (x : Desc) : Bool := bit x.cfg 11
/-- WB. -/
def Desc.wbOn (x : Desc) : Bool := bit x.cfg 12

/-- The fields of a shadow meet R363. -/
def Desc.valid (x : Desc) : Bool :=
  let side := fun (k : Nat) (a : Word) => if k = 2 then x.elem = 8 else k < 2 && a.toNat % x.elem = 0
  side x.srcKind x.src && side x.dstKind x.dst && 0 < x.cnt && (!x.pkt || x.srcKind = 2) && (!x.eop || x.dstKind = 2) &&
    (!x.crcStore || x.crcOn) && (!x.wbOn || x.wb.toNat % 8 = 0)

/-- A committed shadow is taken, or refused (R361). -/
def DmaChan.take (c : DmaChan) : DmaChan :=
  if !c.commit then c
  else if !c.shadow.valid then { c with commit := false, baddesc := true }
  else { c with commit := false, active := some c.shadow, shown := c.shadow, cnt := c.shadow.cnt, taken := 0, written := 0
                buf := [], readEnd := .open_, aborting := false, crc := 0, rdLeft := 0, wrLeft := 0, issued := false, pushFail := false }

/-- The hand-over after DONE (R361, R362). -/
def DmaChan.handOver (c : DmaChan) (now : Nat) : DmaChan := if c.commit then { c.take with handT := some now } else c

/-- The same when the channel is idle and its flags allow it (R361). -/
def DmaChan.takeIdle (c : DmaChan) : DmaChan :=
  if c.active.isNone && !c.err && !c.aborted && !c.baddesc then c.take else c

/-- DMA_STAT. -/
def DmaChan.stat (c : DmaChan) : Word :=
  pack [(0, c.residue), (24, b2n c.active.isSome), (25, b2n c.done), (26, b2n c.err), (27, b2n c.errLast), (28, b2n c.aborted),
        (29, b2n c.eopstop), (30, b2n c.baddesc), (31, b2n c.late)]

/-- How a descriptor ends (R368). -/
inductive DmaEnd where
  | done (eopstop : Bool)
  | err (a : Word) (residue : Nat) (last : Bool)
  | aborted
  deriving DecidableEq, Repr

/-- The flags of an end (R368).
(Log entry 72 DEDUCED.) -/
def DmaChan.close (c : DmaChan) (e : DmaEnd) : DmaChan :=
  let ie := match c.active with | some x => x.ieOn | none => false
  let c := { c with active := none, buf := [], aborting := false, rdLeft := 0, wrLeft := 0, issued := false, pushFail := false, ie
                    done := false, err := false, errLast := false, aborted := false, eopstop := false }
  match e with
  | .done st => { c with done := true, eopstop := st, residue := c.cnt }
  | .err a n l => { c with err := true, errLast := l, residue := n, errAddr := a }
  | .aborted => { c with aborted := true, residue := c.cnt }

/-- Producer code of the end of a descriptor of channel n (R376). -/
def dmaCode (n : Fin 32) : Nat := 0xC0 + n.val

/-- A descriptor ends: flags, the write-back of R368, the hand-over after DONE (R361), and its event (R376).
(Log entry 72 DEDUCED.) -/
def dmaEnd (n : Fin 32) (e : DmaEnd) (s : State) : State :=
  match (s.d.dma n).active with
  | none => s
  | some x =>
    let s := { s with d := s.d.modDma n fun c => c.close e }
    let c := s.d.dma n
    let w := if x.wbOn then s.store8 x.wb.toNat (join64 c.crc c.stat) else (s, true)
    let s := w.1
    match e with
    | .done _ =>
      let d := if w.2 then s.d.modDma n fun c => c.handOver s.d.now
        else s.d.modDma n fun c => { c with err := true, errAddr := x.wb }
      { s with d := d.fire [⟨dmaCode n, 0⟩] }
    | _ => if w.2 then s else { s with d := s.d.modDma n fun c => { c with err := true, errAddr := x.wb } }

/-- An aborting channel has nothing left to do (R369): no burst in progress on either engine, nothing to write. -/
def DmaChan.stopped (c : DmaChan) : Bool := c.aborting && c.buf.isEmpty && c.rdLeft = 0

/-- DMA_CTL.ABORT (R369): bursts in progress are finished; elements taken from a source queue are still written, others
are discarded unless the write burst in progress has them. -/
def dmaAbort (n : Fin 32) (s : State) : State :=
  match (s.d.dma n).active with
  | none => s
  | some x =>
    let s := { s with d := s.d.modDma n fun c =>
      { c with aborting := true, buf := if x.srcKind = 2 then c.buf else c.buf.take c.wrLeft } }
    if (s.d.dma n).stopped then dmaEnd n .aborted s else s

/-- A write of a shadow register (R361, R362). One that comes on the tick of a hand-over may have shared its handshake;
which of the two went first the spec does not fix, so a free value says whether SHADOW_LATE sets.
(Log entry 72 DEDUCED.) -/
def Dev.shadowWrite (d : Dev) (n : Fin 32) (f : DmaChan → DmaChan) : Dev :=
  if (d.dma n).handT = some d.now then
    (d.modDma n fun c => { f c with late := c.late || d.freeNow % 2 = 1 }).took
  else d.modDma n f

/-- Bits of DMA_NCFG that a channel has (R367). -/
def ncfgMask (n : Fin 32) : Word := if n.val % 8 < 2 then 0x80001FFF else 0x800019FF

/-- Units of the buffer in use in a region: one for each element. -/
def Dma.used (x : Dma) : Nat := (x.chans.toList.map fun c => c.buf.length).foldl (· + ·) 0

/-- The channel's interrupt is pending (R370). -/
def DmaChan.irq (c : DmaChan) : Bool := c.err || c.aborted || c.baddesc || (c.done && c.ie)

/-- Reads of the DMA page. -/
def Dev.dmaRead (d : Dev) (r : RegionId) (o : Nat) : Word :=
  if o = 0x400 then BitVec.ofNat 32 (d.regions[r]).dma.used
  else if 0x200 ≤ o then 0
  else
    let c := (d.regions[r]).dma.chans[Fin.ofNat 8 (o / 0x40)]
    match o % 0x40 with
    | 0x00 => c.shadow.src
    | 0x04 => c.shadow.dst
    | 0x08 => BitVec.ofNat 32 c.shadow.cnt
    | 0x0C => c.shadow.wb
    | 0x10 => c.shadow.cfg ||| pack [(31, b2n c.commit)]
    | 0x20 => c.shown.src
    | 0x24 => c.shown.dst
    | 0x28 => c.shown.cfg
    | 0x2C => BitVec.ofNat 32 c.cnt
    | 0x30 => c.stat
    | 0x38 => c.crc
    | 0x3C => c.errAddr
    | _ => 0

/-- Writes of the DMA page. -/
def dmaWrite (r : RegionId) (o : Nat) (v : Word) (s : State) : State :=
  if 0x200 ≤ o then s
  else
    let n : Fin 32 := Fin.ofNat 32 (8 * r.val + o / 0x40)
    let ch := fun (f : DmaChan → DmaChan) => { s with d := s.d.modDma n f }
    let shadow := fun (f : DmaChan → DmaChan) => { s with d := s.d.shadowWrite n f }
    match o % 0x40 with
    | 0x00 => shadow fun c => { c with shadow := { c.shadow with src := v } }
    | 0x04 => shadow fun c => { c with shadow := { c.shadow with dst := v } }
    | 0x08 => shadow fun c => { c with shadow := { c.shadow with cnt := fld v 0 24 } }
    | 0x0C => shadow fun c => { c with shadow := { c.shadow with wb := v } }
    | 0x10 => shadow fun c =>
        { c with shadow := { c.shadow with cfg := v &&& ncfgMask n &&& 0x7FFFFFFF }, commit := bit v 31 }.takeIdle
    | 0x30 => ch fun c =>
        { c with done := c.done && !bit v 25, err := c.err && !bit v 26, aborted := c.aborted && !bit v 28
                 baddesc := c.baddesc && !bit v 30, late := c.late && !bit v 31 }.takeIdle
    | 0x34 => if bit v 0 then dmaAbort n s else s
    | _ => s

end Sys2Proof.Machine
end

