-- ==== Sys2Proof/Machine/CipherOps.lean ====
section
/-! DEFINITION. The region cipher blocks (R211 to R218) and the key store's slots (R215, R217, R219): grants of pipe
pairs, mismatches, firmware requests. -/

namespace Sys2Proof.Machine

/-! ### Key slots (R215, R217) -/

/-- The content of a slot. -/
def Keys.slotOf (k : Keys) (n : Nat) : Option KeySlot := k.slots.find? fun s => s.slot = n

/-- Key bytes of a slot that has a role: 5 NOKEY, 6 ROLE otherwise. -/
def Keys.keyOf (k : Keys) (n role : Nat) : Except Nat (List Byte) :=
  match k.slotOf n with
  | none => .error 5
  | some s => if s.role = role then .ok s.key else .error 6

/-- A slot write takes effect (R219): KEY_WRITES counts it once. -/
def Keys.apply (k : Keys) (w : KeyWrite) : Keys :=
  match w with
  | .put s => { k with slots := s :: k.slots.filter (fun x => x.slot ≠ s.slot), lost := k.lost.filter (· ≠ s.slot)
                       writes := k.writes + 1 }
  | .erase n => { k with slots := k.slots.filter (fun x => x.slot ≠ n), lost := k.lost.filter (· ≠ n)
                         writes := k.writes + 1 }
  | .eraseAll => { k with slots := [], lost := [], writes := k.writes + 1 }

/-! ### Pairs of pipes (R211, R212) -/

/-- The rotation of R211.
(Log entry 52 DEDUCED.) -/
def pairRotation : List (Nat × Nat) := [(0, 1), (2, 3), (0, 2), (1, 3), (0, 3), (1, 2)]

/-- The pair at a position of the rotation. -/
def pairAt (i : Fin 6) : Nat × Nat := pairRotation.getD i.val (0, 1)

/-- The pair that a channel's operation holds. -/
def CiphChan.pair (c : CiphChan) : List Nat := match c.stage with | .running u => [u.pair.1, u.pair.2] | _ => []

/-- A pipe is usable and no operation uses it. -/
def Cipher.pipeFree (c : Cipher) (i : Nat) : Bool :=
  !c.fenced[Fin.ofNat 4 i] && !(c.chans.toList.any fun x => x.pair.contains i)

/-- The position of the next pair that can be granted.
(Log entry 52 DEDUCED.) -/
def Cipher.nextPair (c : Cipher) : Option (Fin 6) :=
  ((List.range 6).map fun i => Fin.ofNat 6 (c.rot.val + i)).find? fun i =>
    c.pipeFree (pairAt i).1 && c.pipeFree (pairAt i).2

/-- The rotation stands after a pair that was granted. -/
def Cipher.takePair (c : Cipher) (i : Fin 6) : Cipher := { c with rot := Fin.ofNat 6 (i.val + 1) }

/-- Usable pipes other than a and b.
(Log entry 52 DEDUCED.) -/
def Cipher.others (c : Cipher) (a b : Nat) : List Nat :=
  (List.range 4).filter fun i => i ≠ a && i ≠ b && !c.fenced[Fin.ofNat 4 i]

/-- Several pipes are charged with a transient fault (R420): cause MISMATCH. -/
def Dev.chargePipes (d : Dev) (r : RegionId) : List Nat → Dev
  | [] => d
  | i :: l => (d.charge (.unit (.pipe r (Fin.ofNat 4 i))) 5).chargePipes r l

/-- The mismatches of an operation on pipes a and b, in order (R212); false when one ends it with FAULT. -/
def Dev.mismatches (r : RegionId) (a b : Nat) : List Mismatch → Dev → Dev × Bool
  | [], d => (d, true)
  | m :: l, d =>
    let c := (d.regions[r]).cipher
    let others := c.others a b
    let d := d.modCiph r fun c => { c with mismatch := c.mismatch + 1 }
    if m.retryAgrees then
      let who := if others = [] then [a, b] else (if m.firstWrong then [a] else []) ++ (if m.secondWrong then [b] else [])
      Dev.mismatches r a b l (d.chargePipes r who)
    else
      (((d.modCiph r fun c => { c with faults := c.faults + 1 }).secCause 6).chargePipes r ([a, b] ++ others.take 2), false)

/-! ### Firmware requests (R214 to R218) -/

/-- Bytes that an operation reads at SRC. -/
def CiphRegs.srcLen (g : CiphRegs) : Nat :=
  let p := fld g.len 0 8
  let a := fld g.len 8 5
  match g.op with
  | 1 => a + p | 2 => a + p + 8 | 3 => a + p | 4 => a + p + 8 | 5 => 14 | 6 => p | _ => 0

/-- Bytes that an operation writes at DST; for KEYSAVE, by the size of the key that it saves. -/
def CiphRun.dstLen (u : CiphRun) : Nat :=
  let p := fld u.regs.len 0 8
  match u.regs.op with
  | 1 => p + 8 | 2 => p | 3 => 8
  | 7 => match u.saved with | some s => s.key.length + 16 | none => 0
  | _ => 0

/-- n bytes from address a lie wholly in chip SRAM or in the SRAM of region r (R216). -/
def sramOk (r : RegionId) (a n : Nat) : Bool :=
  n = 0 || (0x20000000 ≤ a && a + n ≤ 0x20080000) ||
    (0x21000000 + r.val * 0x100000 ≤ a && a + n ≤ 0x21000000 + (r.val + 1) * 0x100000)

/-- The lengths are within R154, and a wrapped key has one of the two lengths of R218.
(Log entry 56 DEDUCED.) -/
def CiphRegs.lenOk (g : CiphRegs) : Bool :=
  let p := fld g.len 0 8
  let a := fld g.len 8 5
  match g.op with
  | 1 => 4 ≤ a && a ≤ 16 && p ≤ 231
  | 2 => 4 ≤ a && a ≤ 16 && p ≤ 231
  | 3 => a + p ≤ 247
  | 4 => a + p ≤ 247
  | 6 => p = 32 || p = 48
  | _ => true

/-- The key of an operation, read at the grant (R215, R217). -/
def CiphRegs.keyAt (g : CiphRegs) (k : Keys) : Except Nat (List Byte) :=
  match g.op with
  | 6 => k.keyOf (fld g.key 0 13) 1
  | 7 =>
    match k.keyOf (fld g.key 0 13) 1, k.slotOf (fld g.key 16 13) with
    | .error e, _ => .error e
    | .ok _, none => .error 5
    | .ok w, some s => if s.role = 1 ∨ !s.export_ then .error 6 else .ok w
  | _ => k.keyOf (fld g.key 0 13) 0

/-- GO of a channel (R216): ignored while PENDING, and with OP = 0. -/
def Dev.ciphGo (d : Dev) (r : RegionId) (n : Fin 2) : Dev :=
  d.modChan r n fun c =>
    if c.status = 1 ∨ c.regs.op = 0 then c
    else { c with status := 1, ended := false, stage := .waiting c.regs }

/-- The firmware channel whose turn it is, with what it asks (R214). -/
def Cipher.waiter (c : Cipher) : Option (Fin 2 × CiphRegs) :=
  let at_ := fun (n : Fin 2) => match c.chans[n].stage with | .waiting g => some (n, g) | _ => none
  match at_ c.turn with
  | some x => some x
  | none => at_ (1 - c.turn)

/-- A firmware request is granted a pair of pipes and reads its key slots (R211, R214, R215). -/
def Dev.grantFirmware (d : Dev) (r : RegionId) : Dev :=
  let c := (d.regions[r]).cipher
  match c.waiter, c.nextPair with
  | some (n, g), some i =>
    let k := g.keyAt d.keys
    let run : CiphRun := { regs := g, key := match k with | .ok k => some k | .error _ => none
                           bad := match k with | .ok _ => none | .error e => some e
                           saved := if g.op = 7 then d.keys.slotOf (fld g.key 16 13) else none
                           pair := pairAt i, since := d.now }
    d.modCiph r fun c =>
      let c := c.takePair i
      { c with turn := 1 - n, share := 0, chans := c.chans.set n { c.chans[n] with stage := .running run } }
  | _, _ => d

/-- CIPHER_GRANT (R214): link-engine work that waits goes first, unless another pair stays free for it or firmware
has waited for seven grants.
(Log entry 52 DEDUCED.) -/
def Dev.cipherGrant (d : Dev) (r : RegionId) : Dev :=
  let x := d.regions[r]
  let e := d.grantFirmware r
  if x.retired then d
  else if x.link.work = [] ∨ 7 ≤ x.cipher.share ∨ ((e.regions[r]).cipher.nextPair).isSome then e else d

/-- The header of a wrapped key (R218). -/
def wrapHeader (s : KeySlot) : List Byte :=
  [0x01#8, BitVec.ofNat 8 s.key.length, BitVec.ofNat 8 (s.role + 4 * b2n s.export_), 0#8, 0#8, 0#8, 0#8, 0#8]

/-- The slot that an unwrapped header and key spell, if its form is that of R218. -/
def unwrapSlot (slot : Nat) (b : List Byte) : Option KeySlot :=
  let n := (byteAt b 1).toNat
  let a := (byteAt b 2).toNat
  if byteAt b 0 = 1 ∧ (n = 16 ∨ n = 32) ∧ b.length = 8 + n ∧ a % 4 < 2 ∧ a < 8 ∧ (slice b 3 5).all (· = 0) then
    some { slot, key := b.drop 8, role := a % 4, export_ := a.testBit 2 }
  else none

/-- What an operation gives on its source bytes: STATUS, output, a slot to write (R216 to R218).
(Log entry 56 DEDUCED.) -/
def cipherResult (u : CiphRun) (key src : List Byte) : Nat × List Byte × Option KeySlot :=
  let g := u.regs
  let p := fld g.len 0 8
  let a := fld g.len 8 5
  let nonce := (bytesOf32 g.nonce.toList).take 13
  match g.op with
  | 1 => (2, ccmEnc key nonce (src.take a) (slice src a p), none)
  | 2 =>
    match ccmDec key nonce (src.take a) (slice src a p) (slice src (a + p) 8) with
    | some t => (2, t, none)
    | none => (3, [], none)
  | 3 => (2, cmacTag key src, none)
  | 4 => if cmacTag key (src.take (a + p)) = slice src (a + p) 8 then (2, [], none) else (3, [], none)
  | 5 => (1, [], some { slot := fld g.key 16 13, key := deriveS key src, role := 0, export_ := true })
  | 6 =>
    match (kwUnwrap key src).bind (unwrapSlot (fld g.key 16 13)) with
    | some s => (1, [], some s)
    | none => (3, [], none)
  | _ =>
    match u.saved with
    | some s => (2, kwWrap key (wrapHeader s ++ s.key), none)
    | none => (5, [], none)

/-- An operation of channel n ends with a STATUS (R216); AUTHFAIL counts toward the SEC threshold (R237).
(Log entry 56 DEDUCED.) -/
def Dev.cipherEnd (d : Dev) (r : RegionId) (n : Fin 2) (status : Nat) : Dev :=
  let d := d.modChan r n fun c => { c with status, ended := true, stage := .none }
  if status = 3 then d.countAuth else d

/-- An operation's output goes to DST, and its STATUS stands; one that cannot be written ends with BADADDR (R329).
(Log entry 82 DESIGN CHOICE.) -/
def cipherOutput (r : RegionId) (n : Fin 2) (u : CiphRun) (status : Nat) (out : List Byte) (s : State) : State :=
  match s.sramWrite u.regs.dst.toNat out with
  | (s, .done) => { s with d := s.d.cipherEnd r n status }
  | (s, _) => { s with d := s.d.cipherEnd r n 8 }

/-- The end of a granted operation (R211 to R217): addresses, lengths, key, source, mismatches, result. The source is read
and the destination written in this step; a source that ends in a bus error gives BADADDR.
(Log entry 82 DESIGN CHOICE.) -/
def cipherOpEnd (r : RegionId) (n : Fin 2) (mm : List Mismatch) (s : State) : State :=
  match ((s.d.regions[r]).cipher.chans[n]).stage with
  | .running u =>
    let g := u.regs
    if !sramOk r g.src.toNat g.srcLen ∨ !sramOk r g.dst.toNat u.dstLen then { s with d := s.d.cipherEnd r n 8 }
    else if !g.lenOk then { s with d := s.d.cipherEnd r n 4 }
    else match u.key with
      | none => { s with d := s.d.cipherEnd r n (u.bad.getD 5) }
      | some key =>
        match (if g.srcLen = 0 then (s.d, StrRd.data []) else s.d.strRead s.ram g.src.toNat g.srcLen) with
        | (d, .data src) =>
          let x := Dev.mismatches r u.pair.1 u.pair.2 mm d
          if !x.2 then { s with d := x.1.cipherEnd r n 7 }
          else
            let res := cipherResult u key src
            match res.2.2 with
            | some slot =>
              { s with d := { x.1.modChan r n (fun c => { c with stage := .committing slot.slot }) with
                  keys := { x.1.keys with commits := x.1.keys.commits ++ [(.cipher r n, .put slot)] } } }
            | none => cipherOutput r n u res.1 res.2.1 { s with d := x.1 }
        | (d, _) => { s with d := d.cipherEnd r n 8 }
  | _ => s

/-! ### Link-engine work (R211, R212, R215) -/

/-- The outcome of a link frame's operation. -/
inductive LinkCrypt where
  | keyErr
  | fault
  | authFail
  | plain (b : List Byte)
  deriving DecidableEq, Repr

/-- An operation of the link engine is granted a pair: firmware goes first once it has waited for seven grants (R214).
(Log entry 52 DEDUCED.) -/
def Dev.linkPair (d : Dev) (r : RegionId) : Dev × Option (Fin 6) :=
  let c := (d.regions[r]).cipher
  let d := if c.waiter.isSome ∧ 7 ≤ c.share then d.grantFirmware r else d
  let c := (d.regions[r]).cipher
  match c.nextPair with
  | none => (d, none)
  | some i =>
    (d.modCiph r fun c => { c.takePair i with share := if c.waiter.isSome then c.share + 1 else 0 }, some i)

/-- The tag of a link frame is verified (R150 to R153): CMAC over additional data and payload, or CCM. -/
def Dev.linkVerify (d : Dev) (r : RegionId) (pair : Fin 6) (slot : Nat) (cmacForm : Bool) (nonce a body tag : List Byte)
    (mm : List Mismatch) : Dev × LinkCrypt :=
  match d.keys.keyOf slot 0 with
  | .error _ => (d, .keyErr)
  | .ok key =>
    let x := Dev.mismatches r (pairAt pair).1 (pairAt pair).2 mm d
    if !x.2 then (x.1, .fault)
    else if cmacForm then (x.1, if cmacTag key (a ++ body) = tag then .plain body else .authFail)
    else match ccmDec key nonce a body tag with
      | some p => (x.1, .plain p)
      | none => (x.1, .authFail)

/-- A downlink frame's payload and tag as sent (R150 to R153): header a, payload p; or why there is none (R181).
(Log entry 50 DEDUCED.) -/
def Dev.linkProtect (d : Dev) (r : RegionId) (pair : Fin 6) (slot : Nat) (cmacForm : Bool) (nonce a p : List Byte)
    (mm : List Mismatch) : Dev × LinkCrypt :=
  match d.keys.keyOf slot 0 with
  | .error _ => (d, .keyErr)
  | .ok key =>
    let x := Dev.mismatches r (pairAt pair).1 (pairAt pair).2 mm d
    if !x.2 then (x.1, .fault)
    else (x.1, .plain (if cmacForm then p ++ cmacTag key (a ++ p) else ccmEnc key nonce a p))

end Sys2Proof.Machine
end

