-- ==== Sys2Proof/Machine/Receive.lean ====
section
/-! DEFINITION. The receive engine (R69 to R116): candidates, detections, lanes and their outcomes, the gain loop,
second look, plumb checks, the limit gauge, and the receive registers of the port page. -/

namespace Sys2Proof.Machine

/-! ### Candidates and detections (R77 to R79, R92, R93) -/

/-- The port that receives a candidate (R93): the highest single-port RSSI, then the lowest port number. -/
def bestHeard : List Heard → Option Heard
  | [] => none
  | h :: l =>
    match bestHeard l with
    | none => some h
    | some b => if b.rssi < h.rssi ∨ (b.rssi = h.rssi ∧ h.port < b.port) then some h else some b

/-- A candidate heard by port p's watcher w, and by the other ports of its combining group. -/
def Dev.candidate (d : Dev) (p : PortId) (w : WatcherId) (k : Nat) (c : CandInfo) : Dev :=
  let g := d.combineGroup p
  let ok := fun (h : Heard) => g.contains h.port && d.rxOn h.port &&
    ((d.ports[h.port]).rx.watchers[w]).searches (fld ((d.ports[p]).rx.watchers[w]).cfg 1 2) k
  let heard := c.heard.filter ok
  if !heard.any (fun h => h.port = p) ∨ c.npre < 4 then d
  else match bestHeard heard with
    | none => d
    | some b =>
      let bw := fld ((d.ports[p]).rx.watchers[w]).cfg 1 2
      let d := d.markActive b.port w.val bw
      if 4 ≤ ((d.ports[b.port]).rx.watchers[w]).cands.length then d.countRx b.port .watchfull
      else d.modWatcher b.port w fun x =>
        { x with cands := x.cands ++ [{ k, info := { c with npre := min 32 c.npre, heard } }] }

/-- A watcher declares a preamble candidate (R78). -/
def execPreambleCandidate (p : PortId) (w : WatcherId) (k : Nat) (c : CandInfo) (s : State) :
    Host.Outcome State Fault Refusal :=
  .next (onDev (fun d => d.candidate p w k c) s)

/-- The sync value is one that the port accepts (R79). -/
def Rx.accepts (x : Rx) (v : Byte) : Bool :=
  v.toNat = fld x.sync 0 8 || (bit x.sync 16 && v.toNat = fld x.sync 8 8)

/-- The elapsed tick at which a 64-bit datum value stands, from the present datum. -/
def Dev.elapsedAt (d : Dev) (t : Word64) : Nat := ((d.now : Int) + ((t.toNat : Int) - d.datum.now.toNat)).toNat

/-- The gain index in effect at an elapsed tick, from the changes listed newest first (R113). -/
def gainAt (t : Nat) : List (Nat × Nat) → Nat → Nat
  | [], g => g
  | (a, b) :: l, g => if t < a then gainAt t l b else g

/-- The gain in effect becomes g; the change is kept for 2 s (R74, R75, R113). -/
def Rx.setGain (x : Rx) (now g : Nat) : Rx :=
  { x with gain := g, gainLog := (now, x.gain) :: x.gainLog.filter fun e => now < e.1 + 2 * secTicks }

/-- A detection on a channel that a lane works on is a report for second look (R100). -/
def Dev.slReport (d : Dev) (p : PortId) (chan bw : Nat) : Dev :=
  let r := regionOfPort p
  if (d.regionJobs r).any fun j => j.2.2.rxPort = p && j.2.2.req.mode.chan = chan && j.2.2.req.mode.bw = bw then
    d.modSecond r fun s => { s with reports := { port := p, chan, bw, at_ := d.now } :: s.reports }
  else d

/-- The sync symbols of candidate n of a watcher have been demodulated, 2T after the sync instant (R79). RXGAIN is the gain
at the sync instant (R113). -/
def Dev.syncCheck (d : Dev) (p : PortId) (w : WatcherId) (n s0 s1 : Nat) : Dev :=
  let x := (d.ports[p]).rx.watchers[w]
  match x.cands[n]? with
  | none => d
  | some c =>
    let bw := fld x.cfg 1 2
    let d := d.untilDatum ((c.info.syncT.toNat : Int) + 2 * symTicks c.k bw)
    let d := d.modWatcher p w fun x => { x with cands := x.cands.eraseIdx n }
    let v := syncValue c.k s0 s1
    if (d.ports[p]).rx.accepts v then
      let g := gainAt (d.elapsedAt c.info.syncT) (d.ports[p]).rx.gainLog (d.ports[p]).rx.gain
      ((d.countRx p .det).slReport p w.val bw).modRx p fun y =>
        { y with reqs := y.reqs ++ [{ watcher := w, mode := { k := c.k, bw, chan := w.val }, sync := v, info := c.info
                                      rxgain := g, asked := false, capOnly := true }] }
    else d.countRx p .syncrej

/-- SYNC_CHECK (R79). -/
def execSyncCheck (p : PortId) (w : WatcherId) (c : Nat) (s0 s1 : Nat) (s : State) : Host.Outcome State Fault Refusal :=
  .next (onDev (fun d => d.syncCheck p w c s0 s1) s)

/-- Replace entry n of a list. -/
def setAt {α : Type} (l : List α) (n : Nat) (a : α) : List α := l.set n a

/-- Detection n of a port requests a lane at its sync instant plus 2T (R82).
(Log entry 40 DEDUCED.) -/
def Dev.laneRequest (d : Dev) (p : PortId) (n : Nat) : Dev :=
  match (d.ports[p]).rx.reqs[n]? with
  | none => d
  | some q =>
    if q.asked then d
    else
      let d := d.untilDatum ((q.info.syncT.toNat : Int) + 2 * symTicks q.mode.k q.mode.bw)
      let d := d.modRx p fun x => { x with reqs := setAt x.reqs n { q with asked := true } }
      d.serveLanes (regionOfPort p)

/-- LANE_REQUEST (R82 to R84). -/
def execLaneRequest (p : PortId) (n : Nat) (s : State) : Host.Outcome State Fault Refusal :=
  .next (onDev (fun d => d.laneRequest p n) s)

/-- A request of mode m, as second look sees its frame; what is not known of its end is left at `stop`. -/
def Dev.slFrame (d : Dev) (p : PortId) (q : LaneReq) (stop : Nat) (good neutral noSlice : Bool) (second : Option Nat) :
    SlFrame :=
  let t := symTicks q.mode.k q.mode.bw
  let y := d.elapsedAt q.info.syncT
  { port := p, mode := q.mode, start := y - q.info.npre * t, sync := y, hdr := y + 4 * t, stop, good
    peak := second.map (y + ·), syncVal := q.sync, rxgain := q.rxgain, neutral, noSlice }

/-- A request that has no lane by its sync instant plus 3T is withdrawn (R85).
(Log entry 40 DEDUCED.) -/
def Dev.laneWithdrawn (d : Dev) (p : PortId) (n : Nat) : Dev :=
  match (d.ports[p]).rx.reqs[n]? with
  | none => d
  | some q =>
    if !q.asked then d
    else
      let d := d.untilDatum ((q.info.syncT.toNat : Int) + 3 * symTicks q.mode.k q.mode.bw)
      let d := d.modRx p fun x => { x with reqs := x.reqs.eraseIdx n }
      let d := d.countRx p .dropnolane
      let d := if q.capOnly then d.countRx p .dropcap else d
      let f := d.slFrame p q d.now false true false none
      (d.modSecond (regionOfPort p) fun s => { s with hist := s.hist ++ [f] }).gcSlices (regionOfPort p)

/-- LANE_REQUEST_WITHDRAWN (R85). -/
def execLaneRequestWithdrawn (p : PortId) (n : Nat) (s : State) : Host.Outcome State Fault Refusal :=
  .next (onDev (fun d => d.laneWithdrawn p n) s)

/-! ### Second-look requests (R100, R101) -/

/-- How long a sample stays in its slice (R97). -/
def sliceSpan : Nat := 512 * msTicks

/-- A request for W under S, or what stands in its way: where no slice holds W because too few were free, SLNOBUF counts
(R99); where its samples are already gone, SLEXPIRED does; any other slice that began too late makes no request. -/
def Dev.requestLook (d : Dev) (q : SlReq) (noSlice : Bool) : Dev :=
  let r := regionOfPort q.port
  match (d.regions[r]).second.slices.find? fun x => x.is q.port q.mode && x.since ≤ q.need with
  | none => if noSlice then d.countRx q.port .slnobuf else d
  | some _ =>
    if q.need + sliceSpan ≤ d.now then d.countRx q.port .slexpired
    else d.modSecond r fun s => { s with reqs := s.reqs ++ [q] }

/-- An elapsed tick lies in the overlap of two frames. -/
def inOverlap (a b : SlFrame) (t : Nat) : Bool := max a.start b.start ≤ t && t < min a.stop b.stop

/-- Two frames pair as S and W (R100): place, time, report.
(Log entry 39 DEDUCED.) -/
def slPair (reports : List SlReport) (a b : SlFrame) : Bool :=
  a.port = b.port && a.mode = b.mode && !a.neutral && !b.neutral && a.good != b.good && slEligible a.mode &&
  a.start < b.stop && b.start < a.stop &&
  (a.peak.any (inOverlap a b) || b.peak.any (inOverlap a b) ||
    reports.any fun x => x.port = a.port && x.chan = a.mode.chan && x.bw = a.mode.bw && inOverlap a b x.at_)

/-- The request for a frame as W: its own sync value and gain where it was detected. -/
def Dev.lookFor (d : Dev) (f : SlFrame) (start need : Nat) (seen : Option (Byte × Nat)) : SlReq :=
  { port := f.port, mode := f.mode, freq := (d.ports[f.port]).syn.freq, wStart := start, need, seen
    gains := (d.now + 1, (d.ports[f.port]).rx.gain) :: (d.ports[f.port]).rx.gainLog }

/-- A frame has ended in a lane: it pairs with frames that ended before; a strong one whose lane saw a peak that no
detection of its channel explains asks for a look at a frame never detected, whose first symbol is where the peak began.
(Log entry 39 DEDUCED.) -/
def Dev.slEnded (d : Dev) (f : SlFrame) : Dev :=
  let r := regionOfPort f.port
  if !bit (d.ports[f.port]).rx.rxctl 2 ∨ !slEligible f.mode then d
  else
    let hist := (d.regions[r]).second.hist
    let mates := hist.filter fun g => slPair (d.regions[r]).second.reports f g
    let d := mates.foldl (fun d g =>
      let w := if f.good then g else f
      d.requestLook (d.lookFor w w.start w.hdr (some (w.syncVal, w.rxgain))) w.noSlice) d
    let others := hist.any (fun g => g.port = f.port && g.mode = f.mode && f.start < g.stop && g.start < f.stop) ||
      (d.regionJobs r).any (fun j => j.2.2.rxPort = f.port && j.2.2.req.mode = f.mode) ||
      (d.ports[f.port]).rx.reqs.any (fun q => q.mode = f.mode)
    let d := match f.peak with
      | some t => if f.good && !f.neutral && !others then d.requestLook (d.lookFor f t t none) f.noSlice else d
      | none => d
    d.modSecond r fun s => { s with hist := s.hist ++ [f] }

/-! ### Lane outcomes (R86, R88 to R91, R96) -/

/-- GAINi of R96 for a port, given the strongest level. -/
def weightGain (top rssi : Int) : Nat := if 210 < top - rssi then 0 else 15 - ((top - rssi) / 15).toNat

/-- The level of the receiving port among those that heard a frame. -/
def rssiOf (p : PortId) (l : List Heard) : Heard :=
  (l.find? fun h => h.port = p).getD { port := p, rssi := 0, chipOff := 0, phase := 0 }

/-- TRAVMASK, GAINi and PHASEi of R96 over the receiving port and its contributors. -/
def weights (p : PortId) (me : Heard) (con : List Heard) : BitVec 6 × BitVec 24 × BitVec 48 :=
  let all := me :: con
  let top := all.foldl (fun m h => max m h.rssi) me.rssi
  let at_ := fun (i : Nat) => all.find? fun h => h.port.val % 6 = i
  (BitVec.ofNat 6 (bitsNat ((List.range 6).map fun i => (at_ i).isSome)),
   BitVec.ofNat 24 ((List.range 6).map fun i => match at_ i with | some h => weightGain top h.rssi <<< (4 * i) | none => 0).sum,
   BitVec.ofNat 48 ((List.range 6).map fun i =>
     match at_ i with | some h => (if h.port = p then 0 else (h.phase - me.phase).toNat) <<< (8 * i) | none => 0).sum)

/-- The frame that a lane or a unit passes on.
(Log entry 39 DEDUCED.) -/
def mkFrame (p : PortId) (unit : Nat) (sl : Bool) (m : Mode) (h : Header) (crcOk : Bool) (sync : Byte) (npre : Nat)
    (syncT : Word64) (span : Nat) (rssi snr foff : Int) (gain : Nat) (w : BitVec 6 × BitVec 24 × BitVec 48)
    (bytes : List Byte) : AirFrame :=
  { port := p, unit, sl, mode := m, rate := h.rate, robust := h.robust, crcp := h.crcp, crcOk, sync, npre, syncT
    endT := syncT + BitVec.ofNat 64 span, rssi := clampInt (-1600) 100 rssi, snr := clampInt (-320) 400 snr
    foff, rxgain := gain, travmask := w.1, gains := w.2.1, phases := w.2.2, bytes }

/-- A frame goes to the link engine, or straight to the RX queue while LINK_CFG.EN = 0 (R86, R180). -/
def Dev.passFrame (d : Dev) (f : AirFrame) : Dev :=
  let r := regionOfPort f.port
  if bit (d.regions[r]).link.cfg 0 then d.modLink r fun l => { l with work := l.work ++ [{ frame := f }] }
  else d.deliver f [] f.bytes

/-- A lane is freed at its outcome: waiting requests are served, slices that nothing needs are freed. -/
def Dev.laneDone (d : Dev) (p : PortId) (i : LaneId) (j : LaneJob) : Dev :=
  (d.freeLane p i).markActive j.rxPort j.req.mode.chan j.req.mode.bw

/-- What a lane reports at the end of its frame (R86). Its channel refers to the F that the port receives on (R201). -/
def Dev.laneOutcome (d : Dev) (p : PortId) (i : LaneId) (rep : LaneReport) : Dev :=
  match ((d.ports[p]).rx.lanes[i]).job with
  | none => d
  | some j =>
    let rp := j.rxPort
    let r := regionOfPort rp
    let m := j.req.mode
    let t := symTicks m.k m.bw
    let st : Int := j.req.info.syncT.toNat
    match rep with
    | .behind =>
      let f := d.slFrame rp j.req d.now false true j.noSlice none
      ((((d.laneDone p i j).countRx rp .lanelate).slEnded f).serveLanes r).gcSlices r
    | .symbols peak0 peak1 header payload powers foff second =>
      match (if fsyncHolds m.k peak0 peak1 then headerOf m.k header else none) with
      | none =>
        let d := d.untilDatum (st + (4 + headerLen m.k) * t)
        let f := d.slFrame rp j.req d.now false false j.noSlice second
        (((((d.laneDone p i j).countRx rp .hdrbad).slEnded f)).serveLanes r).gcSlices r
      | some h =>
        let centre := channelCentre (d.ports[rp]).syn.freq m.chan m.bw
        let span := nodeTicks centre foff (symbolsAfterSync m.k h * t)
        let d := d.untilDatum (st + span)
        let b := payloadOf m.k h payload
        let ok := crcHolds h b
        let me := rssiOf rp j.req.info.heard
        let f := mkFrame rp (globalLane p i) false m h ok j.req.sync j.req.info.npre j.req.info.syncT span me.rssi (snrTenths m.k powers) foff
                   j.req.rxgain (weights rp me j.contrib) (b.take h.len)
        let e := d.slFrame rp j.req d.now ok (!h.crcp) j.noSlice second
        let d := d.laneDone p i j
        let d :=
          if h.crcp ∧ !ok then
            let d := (d.countRx rp .crcbad).slEnded e
            if bit (d.ports[rp]).rx.rxctl 3 then d.deliver f [] f.bytes else d
          else (d.passFrame f).slEnded e
        (d.serveLanes r).gcSlices r

/-- LANE_OUTCOME (R86).
(Log entry 2 DESIGN CHOICE.) -/
def execLaneOutcome (p : PortId) (i : LaneId) (rep : LaneReport) (s : State) : Host.Outcome State Fault Refusal :=
  .next (onDev (fun d => d.laneOutcome p i rep) s)

/-! ### Gain control (R74, R75) -/

/-- The loop would move the gain to g: it does, or notes HELD while frozen. -/
def Rx.agcMove (x : Rx) (now g : Nat) : Rx :=
  if g = x.gain then x
  else if x.frozen then { x with held := true }
  else { x.setGain now g with changes := x.changes + 1 }

/-- AGC_CLIP (R74, R75). -/
def execAgcClip (p : PortId) (s : State) : Host.Outcome State Fault Refusal :=
  .next (onDev (fun d => if d.portUp p then d.modRx p fun x => { x.agcMove d.now (x.gain - 3) with clip := true } else d) s)

/-- AGC_GAIN_DOWN (R74). -/
def execAgcGainDown (p : PortId) (s : State) : Host.Outcome State Fault Refusal :=
  .next (onDev (fun d => if d.portUp p then d.modRx p fun x => x.agcMove d.now (x.gain - 1) else d) s)

/-- AGC_GAIN_UP (R74). -/
def execAgcGainUp (p : PortId) (s : State) : Host.Outcome State Fault Refusal :=
  .next (onDev (fun d => if d.portUp p then d.modRx p fun x => x.agcMove d.now (min 31 (x.gain + 1)) else d) s)

/-! ### Second look (R101, R102) -/

/-- Requests whose earliest sample has left the slice are dropped and counted. -/
def Dev.dropExpired (d : Dev) (r : RegionId) : Dev :=
  let gone := (d.regions[r]).second.reqs.filter fun q => q.need + sliceSpan ≤ d.now
  let d := gone.foldl (fun d q => d.countRx q.port .slexpired) d
  d.modSecond r fun s => { s with reqs := s.reqs.filter fun q => !(q.need + sliceSpan ≤ d.now) }

/-- The oldest request by W's frame start. -/
def oldestReq : List SlReq → Option SlReq
  | [] => none
  | q :: l => match oldestReq l with | none => some q | some x => if x.wStart < q.wStart then some x else some q

/-- A free unit takes the oldest request (R101, R102). -/
def Dev.lookStart (d : Dev) (r : RegionId) : Dev :=
  let d := d.dropExpired r
  let s := (d.regions[r]).second
  match (List.finRange 4).find? (fun u => (s.units[u]).job.isNone && !(s.units[u]).fenced), oldestReq s.reqs with
  | some u, some q =>
    (d.countRx q.port .sltried).modSecond r fun s =>
      { s with reqs := s.reqs.erase q, units := s.units.set u { s.units[u] with job := some q } }
  | _, _ => d.gcSlices r

/-- SECOND_LOOK_START (R102). -/
def execSecondLookStart (r : RegionId) (s : State) : Host.Outcome State Fault Refusal :=
  .next (onDev (fun d => d.lookStart r) s)

/-- Request n's earliest sample leaves the slice (R101). -/
def Dev.slExpire (d : Dev) (r : RegionId) (n : Nat) : Dev :=
  match (d.regions[r]).second.reqs[n]? with
  | none => d
  | some q =>
    let d := d.until_ (q.need + sliceSpan)
    let d := d.modSecond r fun s => { s with reqs := s.reqs.eraseIdx n }
    (d.countRx q.port .slexpired).gcSlices r

/-- SL_EXPIRED (R101). -/
def execSlExpired (r : RegionId) (n : Nat) (s : State) : Host.Outcome State Fault Refusal :=
  .next (onDev (fun d => d.slExpire r n) s)

/-- A unit finishes: a W that passes HCRC and CRC goes to the link engine (R102). One acquired in the remainder is taken
only with a sync value that the port accepts (R44); RXGAIN is the gain at its own sync instant (R113). -/
def Dev.lookDone (d : Dev) (r : RegionId) (u : Fin 4) (rep : LookReport) : Dev :=
  match ((d.regions[r]).second.units[u]).job with
  | none => d
  | some q =>
    let d := d.modSecond r fun s => { s with units := s.units.set u { s.units[u] with job := none } }
    let d :=
      match rep with
      | .nothing => d
      | .found header payload sync rssi powers foff syncT npre =>
        match headerOf q.mode.k header with
        | none => d
        | some h =>
          let b := payloadOf q.mode.k h payload
          if crcHolds h b && (q.seen.isSome || (d.ports[q.port]).rx.accepts sync) then
            let centre := channelCentre q.freq q.mode.chan q.mode.bw
            let span := nodeTicks centre foff (symbolsAfterSync q.mode.k h * symTicks q.mode.k q.mode.bw)
            let me : Heard := { port := q.port, rssi, chipOff := 0, phase := 0 }
            let w := q.seen.getD (sync, gainAt (d.elapsedAt syncT) q.gains (d.ports[q.port]).rx.gain)
            let f := mkFrame q.port (globalUnit r u) true q.mode h true w.1 (min 32 npre) syncT span
                       rssi (snrTenths q.mode.k powers) foff w.2 (weights q.port me []) (b.take h.len)
            (d.countRx q.port .slrecovered).passFrame f
          else d
    d.gcSlices r

/-- SECOND_LOOK_DONE (R102). -/
def execSecondLookDone (r : RegionId) (u : Fin 4) (rep : LookReport) (s : State) : Host.Outcome State Fault Refusal :=
  .next (onDev (fun d => d.lookDone r u rep) s)

/-! ### Plumb checks (R104 to R106) -/

/-- A lane's interval since its last verdict expires. -/
def Dev.plumbDue (d : Dev) (p : PortId) (i : LaneId) : Dev :=
  let x := (d.ports[p]).rx
  let l := x.lanes[i]
  if x.interval = 0 ∨ l.due.isSome ∨ l.retired then d
  else
    let d := d.until_ (l.lastVerdict + x.interval * secTicks)
    d.modLane p i fun l => { l with due := some d.now }

/-- PLUMB_DUE (R104). -/
def execPlumbDue (p : PortId) (i : LaneId) (s : State) : Host.Outcome State Fault Refusal :=
  .next (onDev (fun d => d.plumbDue p i) s)

/-- The lane that the generator checks next: one whose repeat is to run at once, else the idle lane due longest. -/
def Rx.plumbNext (x : Rx) : Option LaneId :=
  match allLanes.find? fun i => (x.lanes[i]).repeatNow && !(x.lanes[i]).retired && (x.lanes[i]).work = .idle with
  | some i => some i
  | none =>
    let c := allLanes.filter fun i => (x.lanes[i]).due.isSome && (x.lanes[i]).work = .idle && (x.lanes[i]).free
    match c with
    | [] => none
    | i :: l => some (l.foldl (fun m j => if (x.lanes[j]).due.getD 0 < (x.lanes[m]).due.getD 0 then j else m) i)

/-- A due lane is idle and the generator is free. -/
def Dev.plumbStart (d : Dev) (p : PortId) : Dev :=
  let x := (d.ports[p]).rx
  match (if x.plumbLane.isSome ∨ !d.portUp p then none else x.plumbNext) with
  | none => d
  | some i => (d.modLane p i fun l => { l with work := .plumb }).modRx p fun x => { x with plumbLane := some i }

/-- PLUMB_CHECK_START (R104). -/
def execPlumbCheckStart (p : PortId) (s : State) : Host.Outcome State Fault Refusal :=
  .next (onDev (fun d => d.plumbStart p) s)

/-- The verdict of a plumb check; the SNR error is in 0.1 dB (R105, R106). -/
def Dev.plumbVerdict (d : Dev) (p : PortId) (decoded : Bool) (e : Int) : Dev :=
  match (d.ports[p]).rx.plumbLane with
  | none => d
  | some i =>
    let d := d.modRx p fun x => { x with plumbLane := none, plumbOrder := if 12 ≤ x.plumbOrder then 6 else x.plumbOrder + 1 }
    if decoded ∧ -3 ≤ e ∧ e ≤ 3 then
      let d := d.modLane p i fun l =>
        { l with work := .idle, withheld := false, due := none, lastVerdict := d.now, repeatNow := false }
      ((d.countRx p .plumbpass).serveLanes (regionOfPort p)).gcSlices (regionOfPort p)
    else
      let d := d.modLane p i fun l =>
        { l with work := .idle, withheld := true, lastVerdict := d.now, repeatNow := true, due := none }
      let d := (d.countRx p .plumbfail).modRx p fun x => { x with plumbFail := x.plumbFail ||| (1#48 <<< i.val) }
      d.charge (.unit (.lane p i)) 4

/-- PLUMB_CHECK_VERDICT (R105, R106). -/
def execPlumbCheckVerdict (p : PortId) (decoded : Bool) (snrError : Int) (s : State) : Host.Outcome State Fault Refusal :=
  .next (onDevW (fun d => d.plumbVerdict p decoded snrError) s)

/-- RUNNOW makes every lane of the port due at once (R104). -/
def Dev.plumbRunNow (d : Dev) (p : PortId) : Dev :=
  d.modRx p fun x => { x with lanes := vmap x.lanes fun l =>
    if l.retired ∨ l.due.isSome then l else { l with due := some d.now } }

/-! ### The limit gauge (R107 to R110) -/

/-- The first quiet 125 kHz channel after the one measured last (R107).
(Log entry 41 DEDUCED.) -/
def Dev.quietChannel (d : Dev) (p : PortId) : Option Nat :=
  let x := (d.ports[p]).rx
  let first := match x.gauge.last with | some c => c + 1 | none => 0
  let busy := (d.regionJobs (regionOfPort p)).filterMap (fun j =>
    if j.2.2.rxPort = p then some (channelSpan j.2.2.req.mode.chan j.2.2.req.mode.bw) else none)
  let quiet := fun (c : Nat) =>
    !(x.activity.any fun a => a.1 = c && d.now < a.2 + secTicks) && !(busy.any fun l => l.contains c)
  ((List.range 64).map fun i => (first + i) % 64).find? quiet

/-- A floor measurement starts, or cannot: a transmission or calibration puts it off by 1 s, no quiet channel sets
NOQUIET. RUNNOW starts the 60 s anew, and does nothing while a measurement runs; the first one comes 60 s after a start.
(Log entries 41 DEDUCED, 83 DESIGN CHOICE.) -/
def Dev.gaugeRun (d : Dev) (p : PortId) : Dev :=
  let x := d.ports[p]
  if !bit x.rx.gauge.ctl 0 ∨ x.rx.gauge.run.isSome ∨ !d.portUp p then d
  else if x.txBlock then d.modGauge p fun g => { g with dueAt := d.now + secTicks }
  else match d.quietChannel p with
    | none => d.modGauge p fun g => { g with noquiet := true, dueAt := d.now + 60 * secTicks }
    | some c => d.modGauge p fun g =>
        { g with dueAt := d.now + 60 * secTicks
                 run := some { chan := c, gain := x.rx.gain, startT := d.datum.now, endAt := d.now + 10 * msTicks } }

/-- The period or the retry of the gauge elapses.
(Log entry 41 DEDUCED.) -/
def Dev.gaugeStart (d : Dev) (p : PortId) : Dev :=
  let g := (d.ports[p]).rx.gauge
  if !bit g.ctl 0 ∨ g.run.isSome ∨ !d.portUp p then d
  else (d.until_ g.dueAt).gaugeRun p

/-- GAUGE_START (R107). -/
def execGaugeStart (p : PortId) (s : State) : Host.Outcome State Fault Refusal :=
  .next (onDev (fun d => d.gaugeStart p) s)

/-- The 10 ms end: FLOOR and EXCESS in 0.1 dB, OVER above THRESH (R108, R110). -/
def Dev.gaugeDone (d : Dev) (p : PortId) (floor : Int) : Dev :=
  match (d.ports[p]).rx.gauge.run with
  | none => d
  | some u =>
    let d := d.until_ u.endAt
    let ex := floor + 1210
    d.modGauge p fun g =>
      { g with run := none, last := some u.chan, chan := u.chan, gain := u.gain, t := u.startT
               floor := BitVec.ofInt 16 floor, excess := BitVec.ofInt 16 ex
               isOver := g.isOver || decide ((fld g.ctl 8 8 : Int) < ex) }

/-- GAUGE_DONE (R107, R108, R110). -/
def execGaugeDone (p : PortId) (floor : Int) (s : State) : Host.Outcome State Fault Refusal :=
  .next (onDev (fun d => d.gaugeDone p floor) s)

/-! ### Registers (R72, R73, R75, R77, R87, R114, R116) -/

/-- A write of PORT_RXFREQ (R72, R73, R123).
(Log entry 43 DEDUCED.) -/
def Dev.writeRxfreq (d : Dev) (p : PortId) (v : Word) : Dev :=
  let f := fld v 0 30
  if !freqOk f then d.modRx p fun x => { x with freqBad := true }
  else
    let d := d.modRx p fun x => { x with rxfreq := f }
    if (d.ports[p]).tx.interval.isSome then d.modSyn p fun s => { s with heldHop := true }
    else (((d.retuneRx p).hop p f)).serveCal (regionOfPort p)

/-- A write of PORT_RXCTL (R87, R116, R131). -/
def Dev.writeRxctl (d : Dev) (p : PortId) (v : Word) : Dev :=
  let r := regionOfPort p
  let d := d.modRx p fun x => { x with rxctl := v &&& 0x033F1F0F }
  let d := if (d.ports[p]).txBlock then d else d.femIdle p
  let d := if bit v 0 then d else (d.stopFrames p).leaveCombines p
  (d.serveLanes r).gcSlices r

/-- A write of PORT_WCFGi (R77). Candidates that the watcher holds stay, and are judged at the new BW.
(Log entry 83 DESIGN CHOICE.) -/
def Dev.writeWcfg (d : Dev) (p : PortId) (w : WatcherId) (v : Word) : Dev :=
  let bad := !chanOk w.val (fld v 1 2)
  let d := d.modWatcher p w fun x => { x with cfg := (if bad then clrBit v 0 else v) &&& 0x7F7 }
  if bad then d.modRx p fun x => { x with wcfgBad := true } else d

/-- A write of PORT_GAUGE_CTL (R107, R116). -/
def Dev.writeGauge (d : Dev) (p : PortId) (v : Word) : Dev :=
  let d := d.modGauge p fun g => { g with ctl := v &&& 0x00FFFF01 }
  if bit v 1 then d.gaugeRun p else d

/-- Lanes of a port that work for other ports, and lanes of others that work for it. -/
def Dev.lentLanes (d : Dev) (p : PortId) : Nat × Nat :=
  let js := d.regionJobs (regionOfPort p)
  ((js.filter fun j => j.1 = p && j.2.2.rxPort ≠ p).length, (js.filter fun j => j.1 ≠ p && j.2.2.rxPort = p).length)

/-- PORT_LANEi (R116). -/
def laneWord (p : PortId) (l : Lane) : Word :=
  let base := [(1, b2n (l.work = .plumb)), (2, b2n l.retired), (4, b2n l.withheld)]
  match l.job with
  | some j => pack ([(0, 1), (3, b2n (j.rxPort ≠ p)), (8, j.rxPort.val), (16, j.req.mode.chan), (24, j.req.mode.k),
                     (28, j.req.mode.bw)] ++ base)
  | none => pack base

/-- Receive registers of a port page, below offset 0x8000 (R115, R116). -/
def Dev.rxRead (d : Dev) (p : PortId) (o : Nat) : Option Word :=
  let x := (d.ports[p]).rx
  let g := x.gauge
  if 0x100 ≤ o ∧ o < 0x150 then some (x.cnt[Fin.ofNat 20 ((o - 0x100) / 4)])
  else if 0x1000 ≤ o ∧ o < 0x1100 then
    let w := x.watchers[Fin.ofNat 64 ((o - 0x1000) / 4)]
    some (w.cfg ||| pack [(16, b2n w.retired)])
  else if 0x2000 ≤ o ∧ o < 0x20C0 then some (laneWord p (x.lanes[Fin.ofNat 48 ((o - 0x2000) / 4)]))
  else match o with
    | 0x0000 => some x.rxctl
    | 0x0004 => some (BitVec.ofNat 32 x.rxfreq)
    | 0x0008 => some x.sync
    | 0x000C => some (BitVec.ofNat 32 x.gain)
    | 0x0010 => some (pack [(0, b2n x.frozen), (2, b2n x.held), (3, b2n x.clip), (8, x.target), (16, x.changes.toNat)])
    | 0x0014 =>
      some (pack [(0, b2n (d.rxOn p)), (1, b2n (d.ports[p]).txBlock), (2, b2n x.retired), (8, (d.ports[p]).freeLanes.length),
        (16, (d.lentLanes p).1), (24, (d.lentLanes p).2)])
    | 0x0018 => some (pack [(0, b2n x.wcfgBad), (1, b2n x.freqBad)])
    | 0x001C => some 0
    | 0x0200 => some (BitVec.ofNat 32 x.interval)
    | 0x0204 => some (x.plumbFail.setWidth 32)
    | 0x0208 => some ((x.plumbFail >>> 32).setWidth 32)
    | 0x3000 => some g.ctl
    | 0x3004 => some (pack [(0, g.floor.toNat), (16, g.chan), (24, g.gain)])
    | 0x3008 => some (pack [(0, g.excess.toNat), (16, b2n g.isOver), (17, b2n g.noquiet), (18, b2n g.nfOver)])
    | 0x300C => some (g.nf.setWidth 32)
    | 0x3010 => some (lo32 g.t)
    | 0x3014 => some (hi32 g.t)
    | _ => none

/-- Writes of the receive registers; an offset without a writable register changes nothing. -/
def Dev.rxWrite (d : Dev) (p : PortId) (o : Nat) (v : Word) : Dev :=
  if 0x1000 ≤ o ∧ o < 0x1100 then d.writeWcfg p (Fin.ofNat 64 ((o - 0x1000) / 4)) v
  else match o with
    | 0x0000 => d.writeRxctl p v
    | 0x0004 => d.writeRxfreq p v
    | 0x0008 => d.modRx p fun x => { x with sync := v &&& 0x1FFFF }
    | 0x000C => d.modRx p fun x => { x.setGain d.now (fld v 0 5) with frozen := true }
    | 0x0010 => d.modRx p fun x =>
        { x with frozen := x.frozen && !bit v 1, held := x.held && !bit v 2, clip := x.clip && !bit v 3, target := fld v 8 4 }
    | 0x0018 => d.modRx p fun x => { x with wcfgBad := x.wcfgBad && !bit v 0, freqBad := x.freqBad && !bit v 1 }
    | 0x001C => if bit v 0 then
        (d.modRx p fun x => { x with cnt := Vector.replicate 20 0 }).modSb p fun b => { b with cnt := Vector.replicate 6 0 }
        else d
    | 0x0200 =>
      let d := d.modRx p fun x => { x with interval := fld v 0 8 }
      if bit v 8 then d.plumbRunNow p else d
    | 0x0204 => d.modRx p fun x => { x with plumbFail := x.plumbFail &&& ~~~(v.setWidth 48) }
    | 0x0208 => d.modRx p fun x => { x with plumbFail := x.plumbFail &&& ~~~((v.setWidth 48 <<< 32)) }
    | 0x3000 => d.writeGauge p v
    | 0x3008 => d.modGauge p fun g =>
        { g with isOver := g.isOver && !bit v 16, noquiet := g.noquiet && !bit v 17, nfOver := g.nfOver && !bit v 18 }
    | _ => d

end Sys2Proof.Machine
end

