-- ==== Sys2Proof/Machine/LinkDown.lean ====
section
/-! DEFINITION. Downlinks (R138 to R141, R156, R157, R175 to R179, R206): marionette groups, the stakes of windows and
broadcasts, the frames that they send, what their release leads to, the packets of DNINQ. -/

namespace Sys2Proof.Machine

/-! ### Marionette groups (R138 to R140) -/

/-- 10^(−k/20) for k = 0 to 19, in units of 10^(−30), rounded down. -/
def tenth20 : List Nat :=
  [1000000000000000000000000000000, 891250938133745529953108681078, 794328234724281502065918282836,
   707945784384137910802214942189, 630957344480193249434360136622, 562341325190349080394951039776,
   501187233627272285001554186884, 446683592150963118556250524319, 398107170553497250770252305087,
   354813389233575458433218702264, 316227766016837933199889354443, 281838293126445381910192369915,
   251188643150958011108503206779, 223872113856833961195495085246, 199526231496887960135245539673,
   177827941003892280122542119519, 158489319246111348520210137339, 141253754462275430215560786393,
   125892541179416721042395410639, 112201845430196343559103894647]

/-- 10^(−k/20) in units of 10^(−30): k steps of 0.5 dB. -/
def dbPow (k : Nat) : Nat := tenth20.getD (k % 20) 0 / 10 ^ (k / 20)

/-- The steps of 0.5 dB by which the share of a weight with attenuation a (in 0.5 dB) lies below P_h, among weights of
attenuations `all`: the least x with 10^(−x/20) · Σ w_j² ≤ w_i² (R140). -/
def shareDown (a : Nat) (all : List Nat) : Nat :=
  ((List.range 80).find? fun x => all.all (fun b => a ≤ x + b) && (all.map fun b => dbPow (x + b - a)).sum ≤ 10 ^ 30).getD 79

/-- A port of a group with its phase rotation and its power in 0.1 dBm. -/
structure GroupPort where
  port : PortId
  phase : BitVec 8
  power : Int
  deriving DecidableEq, Repr

/-- GAINi of a context's steering vector (R159). -/
def Dev.vecGain (d : Dev) (n : CtxId) (i : Nat) : Nat := d.ctxN n 0x33 3 / 16 ^ i % 16

/-- PHASEi of a context's steering vector. -/
def Dev.vecPhase (d : Dev) (n : CtxId) (i : Nat) : BitVec 8 := BitVec.ofNat 8 (d.ctxN n (0x36 + i) 1)

/-- The end stamp of a context's last direct uplink (R159, R185). -/
def Dev.lastUp (d : Dev) (n : CtxId) : Int := d.named48 (d.ctxN n 0x24 6)

/-- A port of the vector meets R138 and the phase condition of R139.
(Log entry 51 DEDUCED.) -/
def Dev.groupMember (d : Dev) (home p : PortId) (n : CtxId) : Bool :=
  let x := d.ports[p]
  bit x.cal.mari 0 && !x.rx.retired && x.cal.calvalid && x.rx.rxfreq = (d.ports[home]).rx.rxfreq &&
  d.vecGain n (localOfPort p).val ≠ 0 && (x.syn.epochT.toNat : Int) < d.lastUp n

/-- The group that sends to node n at a release, or none where R139 has the home port send alone. Ports whose share
is below −10 dBm are left out.
(Log entry 51 DEDUCED.) -/
def Dev.group (d : Dev) (home : PortId) (n : CtxId) (release : Int) : Option (List GroupPort) :=
  let fresh : Nat := fld (d.ports[home]).cal.mari 8 8
  let ps := (portsOf (regionOfPort home)).filter fun p => d.groupMember home p n
  if fresh = 0 ∨ (fresh * secTicks : Nat) < release - d.lastUp n ∨ ps.length < 2 ∨ !ps.contains home then none
  else
    let att := fun (p : PortId) => 3 * (15 - d.vecGain n (localOfPort p).val)
    let ph : Int := (d.ports[home]).tx.pwr.toInt
    let all := ps.map att
    let g := (ps.filter fun p => -20 ≤ ph - shareDown (att p) all).map fun p =>
      { port := p
        phase := (d.ports[home]).cal.calph - d.vecPhase n (localOfPort p).val - (d.ports[p]).cal.calph
        power := 5 * (ph - shareDown (att p) all) - (d.ports[p]).cal.calgain.toInt : GroupPort }
    if g.any fun x => x.port = home then some g else none

/-! ### Stakes of the link engine -/

/-- The mode, rate and preamble of a downlink frame, and whether its payload is robust. -/
structure DnMode where
  mode : Mode
  rate : Nat
  robust : Bool
  pre : Nat
  deriving DecidableEq, Repr

/-- Word 2 of a link stake: SRCLINK = 1 (R208). -/
def DnMode.w2 (m : DnMode) : Word :=
  pack [(0, m.mode.chan), (6, m.mode.bw), (8, m.mode.k - 6), (11, m.rate), (13, b2n m.robust), (16, m.pre), (29, 1)]

/-- DNPRE of a region in effect (R180). -/
def Dev.dnpre (d : Dev) (r : RegionId) : Nat := max 8 (fld (d.regions[r]).link.cfg 8 5)

/-- One TX stake of the link engine. -/
def linkReq (release : Int) (origin len : Nat) (m : DnMode) (lt : LinkTx) (group : Bool) (phase : BitVec 8)
    (power : Option Int) : BookReq :=
  { release, action := 1, w2 := m.w2
    param := pack [(0, len), (8, b2n group), (9, if group then lt.home.val else 0)]
    tag := match lt.packet with | some t => t.setWidth 32 | none => 0
    origin, link := some lt, phase, power }

/-- The members of a group book their stakes after the home port (R141).
(Log entry 51 DEDUCED.) -/
def Dev.bookMembers (release : Int) (origin len : Nat) (m : DnMode) (lt : LinkTx) : List GroupPort → Dev → Dev
  | [], d => d
  | g :: l, d =>
    Dev.bookMembers release origin len m lt l
      (if g.port = lt.home then d
       else (d.book g.port (linkReq release origin len m lt true g.phase (some g.power)) release).1)

/-- A window's frame is staked on the group, or on the home port alone, which counts MARIFALL (R139).
(Log entry 51 DEDUCED.) -/
def Dev.bookWindow (d : Dev) (n : CtxId) (release : Int) (origin len : Nat) (m : DnMode) (lt : LinkTx) : Dev :=
  match d.group lt.home n release with
  | some g =>
    let me := (g.find? fun x => x.port = lt.home).getD { port := lt.home, phase := 0, power := 0 }
    match d.book lt.home (linkReq release origin len m lt true me.phase (some me.power)) release with
    | (d, .ok _) => Dev.bookMembers release origin len m lt g d
    | (d, .error _) => d
  | none =>
    match d.book lt.home (linkReq release origin len m lt false 0 none) release with
    | (d, .ok _) => d.countTx lt.home .marifall
    | (d, .error _) => d

/-! ### Chain heads (R176, R178) -/

/-- DNACKWAIT follows the chain head (R159). -/
def Dev.refreshWait (d : Dev) (n : CtxId) : Dev :=
  match d.chainHead n with
  | some p => if p.ackreq ∧ 0 < p.sent then d.putState n 8 8 else d.putState n 8 0
  | none => d.putState n 8 0

/-- The head that a window of node n takes. A head sent 1 + DNRETRY times is dropped as NOACK, one longer than R154
allows as CIPHER_LEN, which LINK_CNT_CIPHERLEN, a counter of step 6, does not count. `k` bounds the number dropped.
(Log entries 49 DEDUCED, 85 DESIGN CHOICE.) -/
def Dev.windowHead (d : Dev) (r : RegionId) (n : CtxId) : Nat → Dev × Option DnPacket
  | 0 => (d, none)
  | k + 1 =>
    match d.chainHead n with
    | none => (d, none)
    | some p =>
      if p.ackreq ∧ fld (d.regions[r]).link.cfg 24 4 < p.sent then
        (((d.endPacket n p 3).countLink r .dnnoack).refreshWait n).windowHead r n k
      else if 231 < p.payload.length then (d.endPacket n p 6).windowHead r n k
      else (d, some p)

/-- Short addresses that name a node (R147, R160). -/
def shortOk (a : Nat) : Bool := a ≠ 0 && a ≠ 0xFFFF

/-- Length H of the header of a downlink to node n (R148). -/
def Dev.dnHeader (d : Dev) (n : CtxId) (join : Bool) : Nat := linkHeaderSize (!join && shortOk (d.saddr n)) false

/-- Preparation time in µs of a TX stake at the current F of a port, as it stands (R196). -/
def Dev.txPrep (d : Dev) (p : PortId) : Nat :=
  let x := d.ports[p]
  x.settleTerm false 0 d.now + x.tx.ramp + 20

/-- The chain of node n is on its way to another region until after a deadline (R178). -/
def Dev.movingAt (d : Dev) (n : CtxId) (deadline : Int) : Bool :=
  match (d.chain n).bind (·.moveEnd) with
  | some e => deadline < d.datum.now.toNat + ((e : Int) - d.now)
  | none => false

/-- A link stake's frame for node n on its home port, with a packet of the chain or without one. -/
def linkTx (n : CtxId) (type : Nat) (ackOf : Option (BitVec 24)) (home : PortId) (p : Option DnPacket) : LinkTx :=
  { ctx := some n, type, ackOf, packet := p.map (·.tag), pid := match p with | some p => p.id | none => 0
    payload := [], used := none, home, region := regionOfPort home }

/-- Link frame length of a reply or scheduled window (R145, R176). -/
def Dev.windowLen (d : Dev) (n : CtxId) (ack : Bool) (p : Option DnPacket) : Nat :=
  d.dnHeader n false + (if ack then 3 else 0) + (match p with | some p => p.payload.length | none => 0) + 8

/-- A reply or scheduled window is requested: an ACK, with the head if it fits, or the head alone (R175, R176). -/
def Dev.requestWindow (d : Dev) (r : RegionId) (n : CtxId) (release : Int) (origin : Nat) (m : DnMode)
    (ackOf : Option (BitVec 24)) : Dev :=
  let home := d.homeport n
  let x := if d.movingAt n (release - us (d.txPrep home)) then (d, none) else d.windowHead r n 16
  let d := x.1
  match ackOf, x.2 with
  | some a, head =>
    let head := head.filter fun p => p.payload.length ≤ 228
    (d.countLink r .ackreq).bookWindow n release origin (d.windowLen n true head) m (linkTx n 2 (some a) home head)
  | none, some p =>
    d.bookWindow n release origin (d.windowLen n false (some p)) m (linkTx n (if p.kind = 1 then 7 else 1) none home (some p))
  | none, none => d

/-- The windows of node n that are booked and whose arming deadline falls before its chain has moved: an ACK goes bare,
and what carries no ACK is not sent (R178). A frame already built is built anew.
(Log entry 50 DEDUCED.) -/
def Dev.chainLeaves (d : Dev) (n : CtxId) : Dev :=
  (List.finRange 24).foldl (fun d p =>
    (d.ports[p]).sb.used.foldl (fun d x =>
      match x.2.link with
      | none => d
      | some lt =>
        if lt.ctx = some n ∧ lt.packet.isSome ∧ (x.2.state = .booked ∨ x.2.state = .ready) ∧ d.movingAt n x.2.deadline then
          if lt.ackOf.isSome then
            (d.setStake p x.1 (some { x.2 with
              state := .booked, param := setFld x.2.param 0 8 (d.windowLen n true none)
              link := some { lt with packet := none, frame := [], used := none } })).dropPrepared p x.1
          else d.standDown p x.1 x.2 10
        else d) d) d

/-- A join window whose JOIN_ACC is queued is staked on the home port (R156, R175); while the chain is on its way past the
arming deadline, nothing is sent (R178). -/
def Dev.bookJoin (d : Dev) (j : JoinWin) (p : DnPacket) : Dev :=
  let d := { d with cl := { d.cl with joins := d.cl.joins.filter fun x => x.ctx ≠ j.ctx } }
  let home := d.homeport j.ctx
  if d.movingAt j.ctx (j.at_ - us (d.txPrep home)) then d
  else
    d.bookWindow j.ctx j.at_ 2 (8 + p.payload.length + 8)
      { mode := j.mode, rate := j.rate, robust := j.robust, pre := d.dnpre (regionOfPort home) }
      (linkTx j.ctx 5 none home (some p))

/-- A join window opens, or its JOIN_ACC arrives: both are there. -/
def Dev.tryJoin (d : Dev) (n : CtxId) : Dev :=
  match d.cl.joins.find? (fun j => j.ctx = n), d.joinAcc n with
  | some j, some p =>
    if 231 < p.payload.length then d.endPacket n p 6
    else if (d.datum.now.toNat : Int) < j.at_ then d.bookJoin j p else d
  | _, _ => d

/-! ### Frames (R145 to R151, R176, R177) -/

/-- Whether the new SADDR of a JOIN_ACC is installed in another context (R156); the walk counts (R162).
(Log entry 47 DEDUCED.) -/
def Dev.joinClash (d : Dev) (r : RegionId) (n : CtxId) (p : DnPacket) : Dev × Bool :=
  let w := d.lookup true (bytesNat (p.payload.take 2))
  (d.noteWalk (some r) w.2, w.1.any fun m => m ≠ n)

/-- The packet that a link stake sends, as it stands in the chain. -/
def Dev.stakePacket (d : Dev) (lt : LinkTx) : Option DnPacket :=
  match lt.ctx, lt.packet with
  | some n, some _ => (d.packets n).find? fun p => p.id = lt.pid
  | _, _ => none

/-- Header of a unicast downlink (R145, R146): the frame carries `head`, the chain holds more after it or not.
(Log entry 49 DEDUCED.) -/
def Dev.dnHead (d : Dev) (n : CtxId) (lt : LinkTx) (head : Option DnPacket) (fcnt : Nat) : List Byte :=
  let short := lt.type ≠ 5 && shortOk (d.saddr n)
  let ack := match head with | some p => p.ackreq && p.kind ≠ 2 | none => false
  let more := (d.packets n).length > (if head.isSome then 1 else 0)
  [BitVec.ofNat 8 (lt.type + 8 * b2n ack + 16 * b2n more + 64 * b2n short)] ++
    (if short then natBytes 2 (d.saddr n) else natBytes 4 (d.laddr n)) ++ natBytes 3 fcnt

/-- What the link engine makes of a stake's frame: nothing yet, a frame with the counter it used, or one that its key slot
or its pipes end (R212, R215). -/
inductive Built where
  | wait
  | frame (b : List Byte) (used : Word)
  | discard
  deriving DecidableEq, Repr

/-- What a protected frame's operation leads to: header a, the counter used, and how the state records that it is built. -/
def Dev.builtOf (r : RegionId) (a : List Byte) (used : Word) (done : Dev → Dev) : Dev × LinkCrypt → Dev × Built
  | (d, .plain b) => (done d, .frame (a ++ b) used)
  | (d, .fault) => (d.countLink r .ciphfault, .discard)
  | (d, _) => (d.countLink r .keyerr, .discard)

/-- A unicast frame is built with a pair of pipes: it uses FCNTDN + 1, which is written to FCNTDN (R176). It waits while
its packet is gone and no ACK is due.
(Log entries 47 DEDUCED, 50 DEDUCED.) -/
def Dev.buildUnicast (d : Dev) (n : CtxId) (lt : LinkTx) (pair : Fin 6) (mm : List Mismatch) : Dev × Built :=
  let head := d.stakePacket lt
  if lt.ackOf = none ∧ head = none then (d, .wait)
  else
    let f := (d.fcntdn n + 1) % 2 ^ 32
    let a := d.dnHead n lt head f
    let p := (match lt.ackOf with | some x => natBytes 3 x.toNat | none => []) ++
             (match head with | some x => x.payload | none => [])
    let nonce := nonceOf (d.laddr n) (if lt.type = 5 then f % 2 ^ 24 else f) true d.cl.anchor
    Dev.builtOf lt.region a (BitVec.ofNat 32 f) (fun d => d.ctxPut n 0x0C 4 f)
      (d.linkProtect lt.region pair (2 * d.keyPair n + 1) false nonce a p mm)

/-- A broadcast frame is built with the broadcast key and FCNT = LINK_BCNT, which then increments (R177).
(Log entry 49 DEDUCED.) -/
def Dev.buildBroadcast (d : Dev) (lt : LinkTx) (pair : Fin 6) (mm : List Mismatch) : Dev × Built :=
  let f := d.cl.bcnt
  let a := if lt.type = 3 then [0x03#8] ++ natBytes 4 d.cl.anchor.toNat ++ natBytes 3 f.toNat
           else [0x47#8, 0xFF#8, 0xFF#8] ++ natBytes 3 f.toNat
  Dev.builtOf lt.region a f (fun d => { d with cl := { d.cl with bcnt := (f + 1) &&& 0xFFFFFF } })
    (d.linkProtect lt.region pair (2 * fld d.cl.bcast 0 12 + 1) true [] a lt.payload mm)

/-- Every stake of one frame, on the home port and the members of its group, learns what became of it. -/
def Dev.shareFrame (d : Dev) (lt : LinkTx) (release : Int) (f : LinkTx → LinkTx) : Dev :=
  (portsOf (regionOfPort lt.home)).foldl (fun d q =>
    d.modSb q fun b => { b with stakes := vmap b.stakes fun k =>
      match k with
      | some k =>
        match k.link with
        | some y =>
          if k.release = release ∧ y.home = lt.home ∧ y.packet = lt.packet ∧ y.pid = lt.pid ∧ y.ctx = lt.ctx then
            some { k with link := some (f y) }
          else some k
        | none => some k
      | none => none }) d

/-- The link engine supplies a stake's frame: built now, once a pair of pipes can be granted, or before for another port of
its group. `none` while it waits; a frame that was discarded is never supplied. -/
def Dev.linkSupply (d : Dev) (k : Stake) (lt : LinkTx) (mm : List Mismatch) : Option (Dev × Option (List Byte)) :=
  if lt.frame ≠ [] then some (d, some lt.frame)
  else if lt.discarded then none
  else match d.linkPair lt.region with
    | (_, none) => none
    | (d, some pair) =>
      match (match lt.ctx with | some n => d.buildUnicast n lt pair mm | none => d.buildBroadcast lt pair mm) with
      | (_, .wait) => none
      | (d, .frame b f) => some (d.shareFrame lt k.release (fun y => { y with frame := b, used := some f }), some b)
      | (d, .discard) => some (d.shareFrame lt k.release (fun y => { y with discarded := true }), none)

/-! ### Release (R156, R178, R179) -/

/-- Re-enter the short address of context n in the hash table (R156, R160).
(Log entry 47 DEDUCED.) -/
def Dev.enterShort (d : Dev) (n : CtxId) (a : Nat) : Dev :=
  let t := d.cl.table.filter fun e => !(e.ctx = n && e.short)
  { d with cl := { d.cl with table := if shortOk a then { short := true, addr := BitVec.ofNat 32 a, ctx := n } :: t else t } }

/-- Step 5 of R156. -/
def Dev.joinDone (d : Dev) (n : CtxId) (p : DnPacket) : Dev :=
  let a := bytesNat (p.payload.take 2)
  let d := (d.ctxPut n 0x04 2 a).enterShort n a
  (((d.ctxPut n 0x08 4 0).ctxPut n 0x0C 4 0).putState n 3 2)

/-- The home port's link stake is released: its packet is sent, or awaits an ACK (R178).
(Log entry 49 DEDUCED.) -/
def Dev.linkReleased (d : Dev) (lt : LinkTx) : Dev :=
  let d := d.countLink lt.region .dnsent
  match lt.ctx with
  | none => match lt.packet with
    | some t => d.dnStatus lt.region t.toNat 0 0 0
    | none => d
  | some n =>
    match d.stakePacket lt with
    | none => d
    | some p =>
      let p' := { p with sent := p.sent + 1, fcnt := lt.used }
      let d := if p.kind = 2 then d.joinDone n p else d
      let d := d.modPacket n p.id fun _ => p'
      if p.ackreq ∧ p.kind ≠ 2 then d.refreshWait n else (d.endPacket n p' 0).refreshWait n

/-- The transmission of a BEACON or broadcast CMD was cut before its release: no later window can send it, and it ends
LATE. A chain's packet stays where it is.
(Log entry 85 DESIGN CHOICE.) -/
def Dev.linkCut (d : Dev) (lt : LinkTx) : Dev :=
  match lt.ctx, lt.packet with
  | none, some t => d.dnStatus lt.region t.toNat 0 10 0
  | _, _ => d

/-! ### DNINQ (R177, R178) -/

/-- The elapsed tick at which a lifetime of word 0 ends (R177). -/
def Dev.lifeEnd (d : Dev) (w0 : Word64) : Option Nat :=
  if fld64 w0 24 16 = 0 then none else some (d.now + fld64 w0 24 16 * secTicks)

/-- The payload of a packet: P bytes of its payload words.
(Log entry 50 DEDUCED.) -/
def packetPayload (p : Nat) (ws : List Word64) : List Byte := padTo p (bytesOf64 ws)

/-- A packet refused, or a broadcast that cannot be staked, ends at once in a status word of the region. -/
def Dev.refusePacket (d : Dev) (r : RegionId) (w : Word64) (result : Nat) : Dev :=
  d.dnStatus r (fld64 w 40 24) (fld64 w 0 12) result 0

/-- A tick rounded up to the next whole second (R206). -/
def ceilSecond (t : Int) : Int := (t + (secTicks - 1 : Nat)) / (secTicks : Nat) * (secTicks : Nat)

/-- A BEACON or broadcast CMD is staked on the port, channel and mode that it names.
(Log entry 49 DEDUCED.) -/
def Dev.broadcast (d : Dev) (r : RegionId) (w0 w1 w2 : Word64) (pay : List Word64) : Dev :=
  let kind := fld64 w0 12 3
  let p := fld64 w0 16 8
  let len := (if kind = 3 then 8 else 6) + p + 8
  let t := d.named48 (fld64 w1 0 48)
  if 255 < len then d.refusePacket r w0 6
  else if 24 ≤ fld64 w1 48 5 then d.refusePacket r w0 10
  else
    let port : PortId := Fin.ofNat 24 (fld64 w1 48 5)
    let m : DnMode := { mode := { k := fld64 w2 0 3 + 6, bw := fld64 w1 59 2, chan := fld64 w1 53 6 }, rate := fld64 w2 3 2
                        robust := false, pre := min 63 (fld64 w2 5 8) }
    let lt : LinkTx := { ctx := none, type := if kind = 3 then 3 else 7, ackOf := none, packet := some (BitVec.ofNat 24 (fld64 w0 40 24))
                         payload := packetPayload p pay, used := none, home := port, region := r
                         expires := d.lifeEnd w0 }
    let rel := if kind = 3 then ceilSecond t else t
    (d.book port (linkReq rel (if kind = 3 then 4 else 5) len m lt false 0 none) rel).1

/-- DNMAX in effect. -/
def Dev.dnmax (d : Dev) (r : RegionId) : Nat := max 1 (fld (d.regions[r]).link.cfg 28 4)

/-- A unicast packet is appended to its node's chain, or refused (R178). -/
def Dev.appendPacket (d : Dev) (r : RegionId) (w0 : Word64) (pay : List Word64) : Dev :=
  let n : CtxId := Fin.ofNat 4096 (fld64 w0 0 12)
  if !d.installed n then d.refusePacket r w0 5
  else if d.dnmax r ≤ (d.packets n).length then (d.refusePacket r w0 4).countLink r .dnfull
  else
    let p : DnPacket := { id := d.cl.packets, kind := fld64 w0 12 3, ackreq := w0.getLsbD 15
                          tag := BitVec.ofNat 24 (fld64 w0 40 24), payload := packetPayload (fld64 w0 16 8) pay
                          expires := d.lifeEnd w0, sent := 0, fcnt := none }
    let d := { d with cl := { d.cl with packets := d.cl.packets + 1 } }
    let c := (d.chain n).getD { ctx := n, region := regionOfPort (d.homeport n), packets := [], moveEnd := none }
    let d := d.putChain { c with packets := c.packets ++ [p] }
    if p.kind = 2 then d.tryJoin n else d

/-- The link engine takes the first whole packet of DNINQ (R177 to R180). -/
def Dev.downlinkPacket (d : Dev) (r : RegionId) : Dev :=
  let q := queueOf r (Fin.ofNat 32 (fld (d.regions[r]).link.qsel 8 5))
  match (if d.queueUsable q then (d.queue q).packet else none) with
  | none => d
  | some ws =>
    let d := d.takeWords q ws.length
    let b := ws.map (·.value)
    let w0 := b.headD 0
    let kind := fld64 w0 12 3
    if d.cl.anchor = 0 then d.refusePacket r w0 11
    else if 5 ≤ kind then d.refusePacket r w0 9
    else if 3 ≤ kind then d.broadcast r w0 (b.getD 1 0) (b.getD 2 0) (b.drop 3)
    else d.appendPacket r w0 (b.drop 1)

/-- DOWNLINK_PACKET (R178). -/
def execDownlinkPacket (r : RegionId) (s : State) : Host.Outcome State Fault Refusal :=
  .next (onDevW (fun d => d.downlinkPacket r) s)

/-- The earliest lifetime of a chain ends (R178). -/
def Dev.downlinkExpired (d : Dev) (n : CtxId) : Dev :=
  let l := (d.packets n).filter fun p => p.expires.isSome
  match l with
  | [] => d
  | p :: l =>
    let p := l.foldl (fun m x => if x.expires.getD 0 < m.expires.getD 0 then x else m) p
    let d := d.until_ (p.expires.getD 0)
    ((d.endPacket n p 2).countLink (d.chainRegion n) .dnexpired).refreshWait n

/-- The lifetime of a BEACON or broadcast CMD that is booked ends: its stake is stood down.
(Log entry 85 DESIGN CHOICE.) -/
def Dev.broadcastExpired (d : Dev) (p : PortId) (n : SlotId) : Dev :=
  match d.stake p n with
  | none => d
  | some k =>
    match k.link with
    | none => d
    | some lt =>
      match lt.expires with
      | none => d
      | some e =>
        if k.state = .active then d
        else
          let d := (d.until_ e).standDown p n k 10
          ((d.dnStatus lt.region (match lt.packet with | some t => t.toNat | none => 0) 0 2 0).countLink lt.region .dnexpired).serveCal
            (regionOfPort p)

/-- DOWNLINK_EXPIRED (R177, R178): of a node's chain, or of a broadcast that waits in a slot book. -/
def execDownlinkExpired (x : ExpiredPacket) (s : State) : Host.Outcome State Fault Refusal :=
  match x with
  | .chain n => .next (onDev (fun d => d.downlinkExpired n) s)
  | .broadcast p n => .next (onDev (fun d => d.broadcastExpired p n) s)

/-- A chain has moved to the region of HOMEPORT (R178).
(Log entry 50 DEDUCED.) -/
def Dev.chainMoveEnd (d : Dev) (n : CtxId) : Dev :=
  match d.chain n with
  | some c =>
    match c.moveEnd with
    | some e => (d.until_ e).putChain { c with region := regionOfPort (d.homeport n), moveEnd := none }
    | none => d
  | none => d

/-- CHAIN_MOVE_END (R178). -/
def execChainMoveEnd (n : CtxId) (s : State) : Host.Outcome State Fault Refusal :=
  .next (onDev (fun d => d.chainMoveEnd n) s)

/-- The first instant of node n's grid at or after a datum value (R206).
(Log entry 51 DEDUCED.) -/
def Dev.schedAt (d : Dev) (n : CtxId) (t : Int) : Int :=
  let per : Int := (d.ctxN n 0x1A 2 * secTicks : Nat)
  let ofs : Int := (d.ctxN n 0x1C 2 * msTicks : Nat)
  if per = 0 then t else ofs + (t - ofs + per - 1) / per * per

/-- A scheduled window stake of node n is booked. -/
def Dev.schedBooked (d : Dev) (n : CtxId) : Bool :=
  (d.ports[d.homeport n]).sb.used.any fun x => x.2.origin = 3 && (x.2.link.any fun l => l.ctx = some n)

/-- A scheduled window of a node with a chain comes due: the next instant whose stake can still be armed (R175).
(Log entry 51 DEDUCED.) -/
def Dev.schedDue (d : Dev) (n : CtxId) : Dev :=
  if d.ctxN n 0x1A 2 = 0 ∨ !d.installed n ∨ (d.chainHead n).isNone ∨ d.cl.anchor = 0 ∨ d.schedBooked n then d
  else
    let home := d.homeport n
    let r := regionOfPort home
    let t := d.schedAt n ((d.datum.now.toNat : Int) + usTicks + us (d.txPrep home))
    let ch := d.ctxN n 0x18 1
    let pm := d.ctxN n 0x19 1
    let m : DnMode := { mode := { k := pm % 8 + 6, bw := ch / 64, chan := ch % 64 }, rate := pm / 8 % 4
                        robust := pm.testBit 5, pre := d.dnpre r }
    d.requestWindow r n t 3 m none

/-- SCHED_WINDOW_DUE (R175). -/
def execSchedWindowDue (n : CtxId) (s : State) : Host.Outcome State Fault Refusal :=
  .next (onDev (fun d => d.schedDue n) s)

end Sys2Proof.Machine
end

