-- ==== Sys2Proof/Machine/LinkUp.lean ====
section
/-! DEFINITION. Uplinks (R165 to R175), context misses, the operations on contexts (R160 to R164), and the link-engine
registers (R180, R181). -/

namespace Sys2Proof.Machine

/-! ### Counters and fields (R166 to R168) -/

/-- What R166 makes of an FCNT on air. -/
inductive FcntCheck where
  | dup
  | gap
  | ok (fcnt32 : Nat)
  deriving DecidableEq, Repr

/-- MAXGAP in effect (R180). -/
def Link.maxgap (l : Link) : Nat := max 4 (min 24 (fld l.cfg 16 5))

/-- R166 with U the context's counter. -/
def extendFcnt (u f maxgap : Nat) : FcntCheck :=
  let c := u / 2 ^ 24 * 2 ^ 24 + f
  let c := if c ≤ u then c + 2 ^ 24 else c
  if f = u % 2 ^ 24 then .dup
  else if 2 ^ 32 ≤ c then .gap
  else if 2 ^ maxgap < c - u then .gap
  else .ok c

/-- A frame that came through a relay (HOPS = 1). -/
def LinkHdr.relayed (h : LinkHdr) : Bool := h.relay && h.hops = 1

/-- The fields that depend on how a frame arrived (R168). A chain whose node's HOMEPORT moves to another region
starts to move (R178). -/
def Dev.arrival (d : Dev) (n : CtxId) (f : AirFrame) (h : LinkHdr) : Dev :=
  if h.relayed then (d.ctxPut n 0x1E 2 h.parent).putState n 4 4
  else
    let d := ((d.ctxPut n 0x24 6 f.endT.toNat).ctxPut n 0x2A 2 (sN 16 f.rssi)).ctxPut n 0x2C 2 (sN 16 f.snr)
    let d := (d.ctxPut n 0x33 3 f.gains.toNat).ctxPut n 0x36 6 f.phases.toNat
    let d := ((d.ctxPut n 0x22 1 f.port.val).ctxPut n 0x1E 2 0).putState n 4 0
    match d.chain n with
    | some c =>
      if c.moveEnd = none ∧ c.region ≠ regionOfPort f.port then
        (d.putChain { c with moveEnd := some (d.now + msTicks) }).chainLeaves n
      else d
    | none => d

/-- The frame end that a node counts its windows from (R170). -/
def childEnd (f : AirFrame) (h : LinkHdr) : Int :=
  if h.relayed then (f.syncT.toNat : Int) - 8 * symTicks f.mode.k f.mode.bw - 20 * msTicks else f.endT.toNat

/-- The mode of a reply: the uplink's, with DNPRE of the home region (R157, R175). -/
def Dev.replyMode (d : Dev) (n : CtxId) (f : AirFrame) : DnMode :=
  { mode := f.mode, rate := f.rate, robust := f.robust, pre := d.dnpre (regionOfPort (d.homeport n)) }

/-! ### Records (R172, R174) -/

/-- The link words of R174. -/
def Dev.linkWords (d : Dev) (n : CtxId) (h : LinkHdr) (fcnt32 : Nat) (wasMiss : Bool) (ackst : Nat) : List Word64 :=
  [ pack64 [(0, n.val), (12, h.type), (15, b2n h.relayed), (16, b2n h.ackreq), (17, b2n h.pending), (18, b2n wasMiss),
      (19, ackst), (32, fcnt32)],
    pack64 [(0, d.laddr n), (32, d.saddr n), (48, h.parent)] ]

/-- The install tick of a held frame: the arming deadline of its reply less MARGIN (R173), with an RXD in µs.
(Log entry 48 DEDUCED.) -/
def Dev.cutoff (d : Dev) (r : RegionId) (f : AirFrame) (h : LinkHdr) (p : PortId) (rxd : Nat) : Int :=
  childEnd f h + us rxd - us (d.txPrep p) - us (fld (d.regions[r]).link.missctl 16 12)

/-- RXD of LINK_MISSRXD in effect. -/
def clampRxd (v : Nat) : Nat := max 2000 (min 4000000 v)

/-- A lookup misses: the frame is held or discarded; where its miss record is written, CTXMISS sets (R172, R260). M1.SLOT
of a frame that is not held is 0.
(Log entry 85 DESIGN CHOICE.) -/
def Dev.miss (d : Dev) (r : RegionId) (f : AirFrame) (h : LinkHdr) : Dev :=
  let d := d.countLink r .miss
  let l := (d.regions[r]).link
  let hold := fld l.missctl 0 16
  let free := (List.finRange 16).find? fun i => (l.hold[i]).isNone
  let slot := if hold = 0 then none else free
  let d := match slot with
    | some i => d.modLink r fun l =>
        { l with hold := l.hold.set i (some { frame := f, until_ := d.elapsedAt f.endT + hold * msTicks }) }
    | none => d.countLink r .missnohold
  let by_ := if h.ackreq then datum48 (d.cutoff r f h f.port (clampRxd (fld l.missrxd 0 22))) else 2 ^ 48 - 1
  let m0 := pack64 [(0, h.addr), (32, h.fcnt), (56, h.type), (59, b2n h.short), (60, b2n slot.isSome), (61, b2n h.ackreq),
                    (62, b2n h.relayed)]
  let m1 := pack64 [(0, by_), (48, match slot with | some i => i.val | none => 0)]
  let q := queueOf r (Fin.ofNat 32 (fld l.qsel 0 5))
  match d.producePacket q (recvWords f 2 ++ [m0, m1]) with
  | some d => d.attnCause r.val
  | none => d.modRegFlt r fun x => { x with missdrop := x.missdrop + 1 }

/-! ### Steps 4 to 8 of R165 -/

/-- A node's ACK names the FCNT of the downlink that it acknowledges (R176, R178). -/
def Dev.nodeAck (d : Dev) (r : RegionId) (n : CtxId) (fcnt : Nat) : Dev :=
  match d.chainHead n with
  | some p =>
    if p.ackreq ∧ 0 < p.sent ∧ (p.fcnt.any fun w => w.toNat % 2 ^ 24 = fcnt) then
      ((d.endPacket n p 1).countLink r .dnacked).refreshWait n
    else d
  | none => d

/-- A tag failure (R165, R237). -/
def Dev.tagFailed (d : Dev) (r : RegionId) (n : CtxId) (f : AirFrame) : Dev :=
  let d := if f.crcp then (d.countLink r .authfail).countAuth else d.countLink r .nocrcfail
  d.ctxSat n 0x23 1 1

/-- ACKST and the window request of step 8 (R173, R175).
(Log entry 48 DEDUCED.) -/
def Dev.reply (d : Dev) (r : RegionId) (n : CtxId) (f : AirFrame) (h : LinkHdr) (late : Bool) : Nat × (Dev → Dev) :=
  let rel := childEnd f h + us (d.rxd n)
  let dead := rel - us (d.txPrep (d.homeport n))
  let ack := if h.ackreq then some (BitVec.ofNat 24 h.fcnt) else none
  if d.cl.anchor = 0 then (0, id)
  else if late then (2, fun d => d.countLink r .misslate)
  else if h.relayed ∧ dead < (d.datum.now.toNat : Int) + usTicks then (if h.ackreq then 3 else 0, id)
  else (if h.ackreq then 1 else 0, fun d => d.requestWindow r n rel 1 (d.replyMode n f) ack)

/-- A held frame's INSTALL completed after its cutoff (R173). -/
def Dev.missedCutoff (d : Dev) (r : RegionId) (n : CtxId) (w : UpWork) (h : LinkHdr) : Bool :=
  match w.resumed with
  | some (_, t) => h.ackreq && decide (d.cutoff r w.frame h (d.homeport n) (d.rxd n) < t)
  | none => false

/-- Step 8 for a frame that is no JOIN_REQ and no duplicate. -/
def Dev.acceptData (d : Dev) (r : RegionId) (n : CtxId) (w : UpWork) (h : LinkHdr) (fcnt32 : Nat) (plain : List Byte) : Dev :=
  let f := w.frame
  let u := d.fcntup n
  let d := ((d.ctxPut n 0x08 4 fcnt32).ctxPut n 0x2E 2 (d.ctxN n 0x2E 2 + 1)).ctxSat n 0x30 2 (fcnt32 - u - 1)
  let d := d.arrival n f h
  let d := if h.type = 2 then d.nodeAck r n (bytesNat (plain.take 3)) else d
  let a := d.reply r n f h (d.missedCutoff r n w h)
  a.2 (d.deliverLink r f (d.linkWords n h fcnt32 w.resumed.isSome a.1)
    (f.bytes.take h.size ++ plain ++ f.bytes.drop (f.bytes.length - 8)))

/-- Step 8 for a verified JOIN_REQ (R156): JNONCE > LASTJN, then the record and its windows, the join window among them.
(Log entry 48 DEDUCED.) -/
def Dev.acceptJoin (d : Dev) (r : RegionId) (n : CtxId) (w : UpWork) (h : LinkHdr) : Dev :=
  let f := w.frame
  if h.fcnt ≤ d.ctxN n 0x15 3 then d.countLink r .gap
  else
    let d := (d.ctxPut n 0x15 3 h.fcnt).arrival n f h
    let a := d.reply r n f h (d.missedCutoff r n w h)
    let d := a.2 (d.deliverLink r f (d.linkWords n h h.fcnt w.resumed.isSome a.1) f.bytes)
    if d.cl.anchor = 0 then d
    else
      let delay := max 2000 (min 4000000 (fld d.cl.joindly 0 22))
      let j : JoinWin := { ctx := n, at_ := childEnd f h + us delay, mode := f.mode, rate := f.rate, robust := f.robust }
      ({ d with cl := { d.cl with joins := j :: d.cl.joins.filter fun x => x.ctx ≠ n } }).tryJoin n

/-- A verified duplicate (R167): counted, and acknowledged again when it came directly and asks for it. -/
def Dev.acceptDup (d : Dev) (r : RegionId) (n : CtxId) (w : UpWork) (h : LinkHdr) : Dev :=
  let d := (d.ctxSat n 0x32 1 1).countLink r .dup
  if h.ackreq ∧ !h.relayed then (d.reply r n w.frame h (d.missedCutoff r n w h)).2 d else d

/-- What steps 1 to 6 of R165 make of a frame: discarded with a counter, a miss, or an operation for its context with the
FCNT32 of its nonce; `dup` says that it is a duplicate. -/
inductive UpPlan where
  | drop (c : LinkCnt)
  | miss (h : LinkHdr)
  | verify (h : LinkHdr) (n : CtxId) (dup : Bool) (fcnt32 : Nat)
  deriving DecidableEq, Repr

/-- Steps 4 to 6 for a frame whose context was found. -/
def Dev.planFrom4 (d : Dev) (r : RegionId) (f : AirFrame) (h : LinkHdr) (n : CtxId) : UpPlan :=
  let join := h.type = 4
  let ok := fun (dup : Bool) (c : Nat) =>
    if !join ∧ 231 < f.bytes.length - h.size - 8 then UpPlan.drop .cipherlen else .verify h n dup c
  if !(d.life n = 2 || (d.life n = 1 && join)) then .drop .state
  else if join then ok false h.fcnt
  else match extendFcnt (d.fcntup n) h.fcnt (d.regions[r]).link.maxgap with
    | .gap => .drop .gap
    | .dup => ok true (d.fcntup n)
    | .ok c => ok false c

/-- Steps 1 to 6, with the entries that the lookup examined; a resumed frame starts at step 4 (R173). -/
def Dev.planUplink (d : Dev) (r : RegionId) (w : UpWork) : UpPlan × Nat :=
  let f := w.frame
  match w.resumed with
  | some (n, _) =>
    match parseUplink f.bytes true true with
    | some h => (d.planFrom4 r f h n, 0)
    | none => (.drop .malformed, 0)
  | none =>
    match parseUplink f.bytes f.crcp (bit (d.regions[r]).link.cfg 1) with
    | none => (.drop .malformed, 0)
    | some h =>
      if h.relay ∧ 1 < h.hops then (.drop .relaydeep, 0)
      else
        let x := d.lookup h.short h.addr
        (match x.1 with | none => .miss h | some n => d.planFrom4 r f h n, x.2)

/-- Steps 7 and 8, with a pair of pipes. -/
def Dev.verifyUplink (d : Dev) (r : RegionId) (w : UpWork) (h : LinkHdr) (n : CtxId) (dup : Bool) (fcnt32 : Nat)
    (pair : Fin 6) (mm : List Mismatch) : Dev :=
  let f := w.frame
  let join : Bool := h.type = 4
  let x := d.linkVerify r pair (2 * d.keyPair n + (if join then 0 else 1)) join (nonceOf (d.laddr n) fcnt32 false d.cl.anchor)
    (additional f.bytes h) (slice f.bytes h.size (f.bytes.length - h.size - 8)) (f.bytes.drop (f.bytes.length - 8)) mm
  match x.2 with
  | .keyErr => x.1.countLink r .keyerr
  | .fault => x.1.countLink r .ciphfault
  | .authFail => x.1.tagFailed r n f
  | .plain b =>
    if join then x.1.acceptJoin r n w h
    else if dup then x.1.acceptDup r n w h
    else x.1.acceptData r n w h fcnt32 b

/-- The link engine processes the frame that has waited longest (R165). One that runs an operation waits while no pair of
pipes can be granted. -/
def Dev.linkUplink (d : Dev) (r : RegionId) (mm : List Mismatch) : Dev :=
  match (d.regions[r]).link.work with
  | [] => d
  | w :: l =>
    let x := d.planUplink r w
    let taken := fun (d : Dev) => (d.modLink r fun y => { y with work := l }).noteWalk (some r) x.2
    match x.1 with
    | .drop c => (taken d).countLink r c
    | .miss h => (taken d).miss r w.frame h
    | .verify h n dup c =>
      match d.linkPair r with
      | (d, none) => d
      | (d, some pair) => (taken d).verifyUplink r w h n dup c pair mm

/-- LINK_UPLINK (R165). -/
def execLinkUplink (r : RegionId) (mm : List Mismatch) (s : State) : Host.Outcome State Fault Refusal :=
  .next (onDevW (fun d => if (d.regions[r]).retired then d else d.linkUplink r mm) s)

/-- A held frame is not released in time (R173). -/
def Dev.holdExpired (d : Dev) (r : RegionId) (n : Fin 16) : Dev :=
  match (d.regions[r]).link.hold[n] with
  | none => d
  | some x =>
    (((d.until_ x.until_).modLink r fun l => { l with hold := l.hold.set n none })).countLink r .missexpired

/-- MISS_HOLD_EXPIRED (R173). -/
def execMissHoldExpired (r : RegionId) (n : Fin 16) (s : State) : Host.Outcome State Fault Refusal :=
  .next (onDev (fun d => d.holdExpired r n) s)

/-! ### Operations on contexts (R161) -/

/-- Held frames of a region whose address an install of context n has entered go to the front of the engine's work, in
rising slot order (R173).
(Log entry 48 DEDUCED.) -/
def Dev.resumeHeld (d : Dev) (r : RegionId) (n : CtxId) : Dev :=
  let mine := fun (x : Held) => match parseUplink x.frame.bytes true true with
    | some h => decide (d.find h.short h.addr = some n)
    | none => false
  let l := (d.regions[r]).link
  let out := l.hold.toList.filterMap fun x => x.filter mine
  d.modLink r fun l =>
    { l with hold := vmap l.hold fun x => x.filter fun y => !mine y
             work := (out.map fun x => { frame := x.frame, resumed := some (n, (d.datum.now.toNat : Int)) }) ++ l.work }

/-- The keys of context n (R160): long, and short where it has one. -/
def Dev.keysOf (d : Dev) (n : CtxId) : List (Bool × Nat) :=
  (false, d.laddr n) :: (if shortOk (d.saddr n) then [(true, d.saddr n)] else [])

/-- INSTALL (R161): the STATUS code, and the state after it. -/
def Dev.ctxInstall (d : Dev) (r : Option RegionId) (n : CtxId) : Dev × Nat :=
  if d.installed n then (d, 6)
  else if d.laddr n = 0 ∨ d.laddr n = 0xFFFFFFFF ∨ d.life n = 0 then (d, 4)
  else
    let ks := d.keysOf n
    let d := ks.foldl (fun (d : Dev) (k : Bool × Nat) => d.noteWalk r (d.bucket (hashBucket (hashKey k.1 k.2))).length) d
    if ks.any fun (k : Bool × Nat) => (d.find k.1 k.2).isSome then (d, 3)
    else
      let d := { d with cl := { d.cl with table :=
        ((ks.map fun (k : Bool × Nat) => { short := k.1, addr := BitVec.ofNat 32 k.2, ctx := n : HashEntry })).reverse ++ d.cl.table } }
      let d := d.emptyChain n
      ((List.finRange 4).foldl (fun d q => if (d.regions[q]).retired then d else d.resumeHeld q n) d, 2)

/-- A frame of node n waits in a link engine.
(Log entry 53 DEDUCED.) -/
def Dev.inFlight (d : Dev) (n : CtxId) : Bool :=
  (List.finRange 4).any fun r => (d.regions[r]).link.work.any fun w =>
    match w.resumed with
    | some (m, _) => m = n
    | none =>
      match parseUplink w.frame.bytes true true with
      | some h => d.find h.short h.addr = some n
      | none => false

/-- REMOVE takes effect: both keys go, each packet of the chain is reported REMOVED. -/
def Dev.ctxRemoveNow (d : Dev) (n : CtxId) : Dev :=
  let d := (d.packets n).foldl (fun d p => d.endPacket n p 8) d
  let d := d.emptyChain n
  { d with cl := { d.cl with table := d.cl.table.filter fun e => e.ctx ≠ n } }

/-- REMOVE: 1 PENDING while a frame of the node is in a link engine.
(Log entry 53 DEDUCED.) -/
def Dev.ctxRemove (d : Dev) (r : Option RegionId) (n : CtxId) : Dev × Nat :=
  if !d.installed n then (d, 5)
  else if d.inFlight n then ({ d with cl := { d.cl with removing := d.cl.removing ++ [(n, r)] } }, 1)
  else (d.ctxRemoveNow n, 2)

/-- FIND: the context, or NOTINST. -/
def Dev.ctxFind (d : Dev) (r : Option RegionId) (short : Bool) (key : Word) : Dev × Option CtxId :=
  let w := d.lookup short (if short then fld key 0 16 else key.toNat)
  (d.noteWalk r w.2, w.1)

/-- GO of a channel: the operation runs; the state, and the channel after it. -/
def Dev.ctxRun (d : Dev) (r : Option RegionId) (o : CtxOp) : Dev × CtxOp :=
  let n : CtxId := Fin.ofNat 4096 o.index
  if o.op = 1 then let x := d.ctxInstall r n; (x.1, { o with status := x.2 })
  else if o.op = 2 then let x := d.ctxRemove r n; (x.1, { o with status := x.2 })
  else if o.op = 3 then
    match d.ctxFind r o.short o.key with
    | (d, some m) => (d, { o with index := m.val, status := 2 })
    | (d, none) => (d, { o with status := 5 })
  else (d, o)

/-- A write of LINK_CTXOP (R161, R180): GO is ignored while STATUS = 1, and with it the operation's fields stand. -/
def Dev.writeCtxop (d : Dev) (r : RegionId) (v : Word) : Dev :=
  let o := (d.regions[r]).link.op
  let o : CtxOp := { o with index := fld v 0 12, op := fld v 12 2, short := bit v 14 }
  let d := d.modLink r fun l => { l with op := o }
  if bit v 15 ∧ o.status ≠ 1 then
    let x := d.ctxRun (some r) o
    x.1.modLink r fun l => { l with op := x.2 }
  else d

/-- The last frame in flight of a node has left: REMOVE ends (R161). -/
def Dev.ctxRemoveDone (d : Dev) (n : CtxId) : Dev :=
  match d.cl.removing.find? fun x => x.1 = n with
  | none => d
  | some (_, r) =>
    if d.inFlight n then d
    else
      let d := { d with cl := { d.cl with removing := d.cl.removing.erase (n, r) } }
      let ok := d.installed n
      let d := if ok then d.ctxRemoveNow n else d
      let st := if ok then 2 else 5
      match r with
      | some r => d.modLink r fun l => { l with op := { l.op with status := st } }
      | none => { d with tdp := { d.tdp with op := { d.tdp.op with status := st } } }

/-- CTXOP_REMOVE_DONE (R161). -/
def execCtxopRemoveDone (n : CtxId) (s : State) : Host.Outcome State Fault Refusal :=
  .next (onDev (fun d => d.ctxRemoveDone n) s)

/-! ### Link-engine registers (R180, R181) -/

/-- LINK_HASHSTAT (R180); 4096 contexts at most. -/
def Dev.hashStat (d : Dev) (r : RegionId) : Word :=
  let l := (d.regions[r]).link
  pack [(0, d.installedCtxs.length), (16, l.longest),
        (24, ((List.finRange 16).filter fun i => (l.hold[i]).isSome).length)]

/-- LINK_CTXOP as it reads. -/
def CtxOp.word (o : CtxOp) : Word := pack [(0, o.index), (12, o.op), (14, b2n o.short), (16, o.status)]

/-- The word at an offset of 0x8000 to 0x80FF of a cipher page. -/
def Dev.linkRead (d : Dev) (r : RegionId) (o : Nat) : Option Word :=
  let l := (d.regions[r]).link
  if 0x8040 ≤ o ∧ o < 0x8094 ∧ o % 4 = 0 then some (l.cnt[Fin.ofNat 21 ((o - 0x8040) / 4)])
  else match o with
    | 0x8000 => some l.cfg
    | 0x8004 => some d.cl.anchor
    | 0x8008 => some l.qsel
    | 0x800C => some l.missctl
    | 0x8010 => some d.cl.joindly
    | 0x8014 => some d.cl.bcast
    | 0x8018 => some d.cl.bcnt
    | 0x8020 => some l.op.word
    | 0x8024 => some l.op.key
    | 0x8028 => some (d.hashStat r)
    | 0x802C => some 0
    | 0x8030 => some l.missrxd
    | _ => none

/-- What a read of a link register does: LONGEST clears (R162). -/
def Dev.linkReadEffect (d : Dev) (r : RegionId) (o : Nat) : Dev :=
  if o = 0x8028 then d.modLink r fun l => { l with longest := 0 } else d

/-- Writes of the link registers. -/
def Dev.linkWrite (d : Dev) (r : RegionId) (o : Nat) (v : Word) : Dev :=
  match o with
  | 0x8000 => d.modLink r fun l => { l with cfg := v &&& 0xFF1F1F03 }
  | 0x8004 => if v = 0xFFFFFFFF then d else { d with cl := { d.cl with anchor := v } }
  | 0x8008 => d.modLink r fun l => { l with qsel := v &&& 0x001F1F1F }
  | 0x800C => d.modLink r fun l => { l with missctl := v &&& 0x0FFFFFFF }
  | 0x8010 => { d with cl := { d.cl with joindly := v &&& 0x003FFFFF } }
  | 0x8014 => { d with cl := { d.cl with bcast := v &&& 0xFFF } }
  | 0x8018 => { d with cl := { d.cl with bcnt := v &&& 0xFFFFFF } }
  | 0x8020 => d.writeCtxop r v
  | 0x8024 => d.modLink r fun l => { l with op := { l.op with key := v } }
  | 0x802C => if bit v 0 then d.modLink r fun l => { l with cnt := Vector.replicate 21 0 } else d
  | 0x8030 => d.modLink r fun l => { l with missrxd := v &&& 0x003FFFFF }
  | _ => d

end Sys2Proof.Machine
end

