-- ==== Sys2Proof/Machine/TrunkOps.lean ====
section
/-! DEFINITION. Trunk links (R241 to R264): link states, frames, credit, reservation, tags, the trunk page. What the
requests do is in Trunk.lean. -/

namespace Sys2Proof.Machine

/-! ### Frames and reply space -/

/-- 64-byte units of n bytes. -/
def units64 (n : Nat) : Nat := (n + 63) / 64

/-- A reply frame without its SOF and EOF (R246). -/
def replyFrame (tag : Nat) (opc status : Nat) (aux : Nat) (attn : BitVec 16) (data : List Byte) : List Byte :=
  let b := [BitVec.ofNat 8 tag, 0x80#8 ||| BitVec.ofNat 8 opc, BitVec.ofNat 8 status, BitVec.ofNat 8 aux] ++
    natBytes 2 attn.toNat ++ natBytes 2 data.length ++ data
  b ++ natBytes 4 (crc32 b).toNat

/-- A frame or ordered set leaves on a link that is UP. An ordered set is given as its special character's data byte:
CREDIT is [0xDC, u]. -/
def Dev.trkSend (d : Dev) (l : LinkId) (b : List Byte) : Dev :=
  if (d.links[l]).state = 2 then d.modTrunk l fun k => { k with sent := b :: k.sent } else d

/-- A CREDIT set of u units (R242, R249). -/
def creditSet (u : Nat) : List Byte := [0xDC#8, BitVec.ofNat 8 u]

/-- Ingress units come back to the host (R249). -/
def Dev.trkFree (d : Dev) (l : LinkId) (u : Nat) : Dev :=
  if u = 0 then d
  else (d.modTrunk l fun k => { k with freein := min 128 (k.freein + u) }).trkSend l (creditSet u)

/-- RESV: reply units reserved (R250). -/
def Trunk.resv (k : Trunk) : Nat := k.tags.toList.foldl (fun n t => n + t.resv) 0

/-- The opcode is of the control class (R253); one that does not exist is answered as control. -/
def ctlClass (opc : Nat) : Bool := opc = 0 || opc = 5 || opc = 6 || 8 ≤ opc

/-- Those of data requests. -/
def Trunk.dataResv (k : Trunk) : Nat :=
  k.tags.toList.foldl (fun n t => if ctlClass t.opc then n else n + t.resv) 0

/-- RETAIN in ticks (R263). -/
def Dev.retainTicks (d : Dev) : Nat := max 1 (fld d.trk.ctl 16 8) * msTicks

/-- QWAIT in ticks (R263). -/
def Dev.qwaitTicks (d : Dev) : Nat := min 100 (fld d.trk.ctl 8 8) * msTicks

/-- Ticks for the characters of a reply of n data bytes, SOF and EOF included (R241: 20 ns each). -/
def replyTicks (n : Nat) : Nat := (n + 14) * 4

/-- A reply leaves when the link is UP, with the ATTN word, whose SEQ is judged with what the request itself has changed
(R246, R261). -/
def Dev.trkAnswer (d : Dev) (l : LinkId) (t : Fin 32) (opc status aux : Nat) (data : List Byte) : Dev :=
  if (d.links[l]).state = 2 then
    (d.settle.trkSend l (replyFrame t.val opc status aux d.settle.attn data)).countTrk l .rep
  else d

/-- The reply of a tag is sent, or sent again (R252). -/
def Dev.trkReply (d : Dev) (l : LinkId) (t : Fin 32) : Dev :=
  let g := (d.links[l]).tags[t]
  d.trkAnswer l t g.opc g.status g.aux g.data

/-- A request's reply is produced: its tag is RETAINED, its units are free (R249, R252). -/
def Dev.trkDone (d : Dev) (l : LinkId) (r : TrunkReq) (status aux : Nat) (data : List Byte) : Dev :=
  let up := (d.links[l]).state = 2
  let g : Tag := { st := .retained, opc := r.opc, status, aux, data, resv := r.resv
                   expires := d.now + (if up then replyTicks data.length else 0) + d.retainTicks }
  let d := d.modTrunk l fun k => { k with tags := k.tags.set r.tag g }
  (d.trkFree l r.units).trkReply l r.tag

/-! ### Link states (R243) -/

/-- The link leaves UP, or gives up aligning.
(Log entry 61 DEDUCED.) -/
def Dev.trkDown (d : Dev) (l : LinkId) : Dev :=
  let k := d.links[l]
  if k.state = 2 then
    let units := (k.waiting.map fun r => r.units).foldl (· + ·) 0
    (d.modTrunk l fun k => { k with state := 0, linkdown := true, waiting := [], freein := min 128 (k.freein + units) }).countTrk l .linkdown
  else d.modTrunk l fun k => { k with state := 0 }

/-- The link is enabled and powered. -/
def Dev.trkOn (d : Dev) (l : LinkId) : Bool := bit d.trk.ctl l.val && (d.pwr.now = .on || d.pwr.now = .nap)

/-- A signal is present: DOWN to ALIGN. -/
def Dev.trkSignal (d : Dev) (l : LinkId) : Dev :=
  if d.trkOn l && (d.links[l]).state = 0 then d.modTrunk l fun k => { k with state := 1 } else d

/-- 32 IDLE characters: ALIGN to UP, once no ingress unit is held; the host gets 128 units. -/
def Dev.trkUp (d : Dev) (l : LinkId) : Dev :=
  if d.trkOn l && (d.links[l]).state = 1 && (d.links[l]).freein = 128 then
    (d.modTrunk l fun k => { k with state := 2 }).trkSend l (creditSet 128)
  else d

/-- TRUNK_SIGNAL_PRESENT (R243). -/
def execTrunkSignalPresent (l : LinkId) (s : State) : Host.Outcome State Fault Refusal :=
  .next (onDev (fun d => d.trkSignal l) s)

/-- TRUNK_UP (R243). -/
def execTrunkUp (l : LinkId) (s : State) : Host.Outcome State Fault Refusal := .next (onDev (fun d => d.trkUp l) s)

/-- TRUNK_DOWN (R243). -/
def execTrunkDown (l : LinkId) (s : State) : Host.Outcome State Fault Refusal := .next (onDev (fun d => d.trkDown l) s)

/-! ### Reception, retries, admission (R248 to R252) -/

/-- Request data bytes of an opcode, for a LEN and PARAM; `none`: no such opcode (R253). -/
def reqDataLen (opc len param : Nat) : Option Nat :=
  match opc with
  | 0 => some 0
  | 1 => some 0
  | 2 => some len
  | 3 => some 0
  | 4 => some len
  | 5 => some len
  | 6 => some (if param = 1 then 4 else 0)
  | 7 => some 0
  | _ => none

/-- Largest reply data (R253); a LEN out of range reserves for 4096 bytes at most. -/
def maxReply (opc len : Nat) : Nat :=
  match opc with
  | 1 => min 4096 len
  | 2 => 2
  | 3 => min 4096 len
  | 5 => 256
  | 6 => 4
  | 7 => min 4096 len
  | _ => 0

/-- The header of a frame (R245). -/
def frameReq (b : List Byte) : TrunkReq :=
  let opc := (byteAt b 1).toNat
  let len := bytesNat (slice b 8 2)
  { tag := Fin.ofNat 32 (byteAt b 0).toNat, opc, flags := (byteAt b 2).toNat + 256 * (byteAt b 3).toNat
    addr := BitVec.ofNat 32 (bytesNat (slice b 4 4)), len, param := bytesNat (slice b 10 2)
    data := slice b 12 (b.length - 16), units := units64 b.length, resv := units64 (12 + maxReply opc len) }

/-- The request has been admitted or waits for it, so its tag is taken as ACTIVE.
(Log entry 59 DEDUCED.) -/
def Trunk.active (k : Trunk) (t : Fin 32) : Bool :=
  (match (k.tags[t]).st with | .active => true | _ => false) || k.waiting.any fun r => r.tag = t

/-- The request is answered with a STATUS in place of being executed (R248, R252); `free` are ingress units that it gives
back. A frame that stands for no new request leaves its tag as it was: a retry of one that is ACTIVE, RETAINED or EXPIRED.
(Log entry 59 DEDUCED.) -/
def Dev.trkRefuse (d : Dev) (l : LinkId) (r : TrunkReq) (status free : Nat) : Dev :=
  let old := r.flags.testBit 0 && (match ((d.links[l]).tags[r.tag]).st with | .idle => false | _ => true)
  if old then (d.trkFree l free).trkAnswer l r.tag r.opc status 0 [] else d.trkDone l { r with units := free, resv := 1 } status 0 []

/-- The reply units that a tag gives back when a new request takes it (R252). -/
def Trunk.back (k : Trunk) (r : TrunkReq) : Nat :=
  match (k.tags[r.tag]).st with | .retained => if r.flags.testBit 0 then 0 else (k.tags[r.tag]).resv | _ => 0

/-- A reply of one unit has room now (R250). -/
def Trunk.roomOne (k : Trunk) (r : TrunkReq) : Bool := k.resv + 1 ≤ 1024 + k.back r

/-- A frame enters the ingress buffer and waits for its reply space. -/
def Dev.trkWait (d : Dev) (l : LinkId) (r : TrunkReq) : Dev :=
  d.modTrunk l fun k => { k with freein := k.freein - r.units, waiting := k.waiting ++ [r] }

/-- A frame is answered with a STATUS: at once where there is reply space, or when there is (R250). The host gets its
units back with a CREDIT set (R249). -/
def Dev.trkBad (d : Dev) (l : LinkId) (r : TrunkReq) (status : Nat) : Dev :=
  if (d.links[l]).roomOne r then (d.trkRefuse l r status 0).trkSend l (creditSet r.units)
  else d.trkWait l { r with answer := some status, resv := 1 }

/-- A frame from SOF to EOF is received (R248, R252). The units that the host has spent on a frame come back when the
frame is discarded, ignored or answered at once (R249).
(Log entry 59 DEDUCED.) -/
def Dev.trkReceive (d : Dev) (l : LinkId) (b : List Byte) (codeError : Bool) : Dev :=
  let k := d.links[l]
  let r := frameReq b
  let back := fun (d : Dev) => d.trkSend l (creditSet r.units)
  if k.state ≠ 2 then d
  else if codeError ∨ 4200 ≤ b.length then back (d.countTrk l .codeerr)
  else
    let n := b.length - 4
    if b.length < 4 ∨ bytesNat (b.drop n) ≠ (crc32 (b.take n)).toNat then back (d.countTrk l .crcerr)
    else
      let g := k.tags[r.tag]
      let retry := r.flags.testBit 0
      if k.freein < r.units then d.countTrk l .overrun
      else if 32 ≤ (byteAt b 0).toNat ∨ (!retry ∧ k.active r.tag) then back (d.countTrk l .malformed)
      else
        let badLen := b.length < 16 ||
          (match reqDataLen r.opc r.len r.param with | some m => decide (b.length ≠ 16 + m) | none => false)
        if badLen then d.trkBad l r 2
        else if retry && k.active r.tag then back d
        else match retry, g.st with
          | true, .retained => back ((d.trkReply l r.tag).countTrk l .resend)
          | true, .expired => (d.countTrk l .stale).trkBad l r 9
          | _, _ => d.trkWait l r

/-- TRUNK_FRAME_RX (R248). -/
def execTrunkFrameRx (l : LinkId) (bytes : List Byte) (codeError : Bool) (s : State) : Host.Outcome State Fault Refusal :=
  .next (onDev (fun d => d.trkReceive l bytes codeError) s)

/-- The request waits as one of the control class does: it is of that class, or gets no more than a STATUS. -/
def TrunkReq.control (r : TrunkReq) : Bool := ctlClass r.opc || r.answer.isSome

/-- The units that a tag gives back to the data class. -/
def Trunk.dataBack (k : Trunk) (r : TrunkReq) : Nat :=
  if ctlClass (k.tags[r.tag]).opc then 0 else k.back r

/-- The request that is admitted next: the first control request that can reserve, else the first data request if it
can (R250). A kept reply of its tag is released with its admission (R252). -/
def Trunk.nextAdmit (k : Trunk) : Option TrunkReq :=
  match k.waiting.find? fun r => r.control && k.resv + r.resv ≤ 1024 + k.back r with
  | some r => some r
  | none =>
    match k.waiting.find? fun r => !r.control with
    | some r =>
      if k.dataResv + r.resv ≤ 960 + k.dataBack r ∧ k.resv + r.resv ≤ 1024 + k.back r then some r else none
    | none => none

/-- The request has an opcode and reserved bits of R253. -/
def TrunkReq.known (r : TrunkReq) : Bool := r.opc < 8 && r.flags < 8

/-- TRUNK_ADMIT (R250): the request's tag is ACTIVE; one that R253 does not know is answered BADOPC at once, and one
that gets a STATUS in place of being executed gets it (R248, R252).
(Log entry 59 DEDUCED.) -/
def Dev.trkAdmit (d : Dev) (l : LinkId) : Dev :=
  match (d.links[l]).nextAdmit with
  | none => d
  | some r => match r.answer with
  | some e => Dev.trkRefuse (d.modTrunk l fun k => { k with waiting := k.waiting.erase r }) l r e r.units
  | none =>
    let q := { r with seq := d.trk.admits, at_ := d.now }
    let d := { d with trk := { d.trk with admits := d.trk.admits + 1 } }
    let d := (d.modTrunk l fun k =>
      { k with waiting := k.waiting.erase r
               tags := k.tags.set r.tag { st := .active, opc := r.opc, resv := r.resv }
               admitted := if r.known then k.admitted ++ [q] else k.admitted }).countTrk l .req
    if r.known then d else d.trkDone l r 1 0 []

/-- TRUNK_ADMIT (R250). -/
def execTrunkAdmit (l : LinkId) (s : State) : Host.Outcome State Fault Refusal := .next (onDev (fun d => d.trkAdmit l) s)

/-- TRUNK_RELEASE (R242, R252). -/
def Dev.trkRelease (d : Dev) (l : LinkId) (t : Byte) : Dev :=
  if (d.links[l]).state ≠ 2 ∨ 32 ≤ t.toNat then d
  else
    let i : Fin 32 := Fin.ofNat 32 t.toNat
    match ((d.links[l]).tags[i]).st with
    | .retained => d.modTrunk l fun k => { k with tags := k.tags.set i {} }
    | _ => d

/-- TRUNK_RELEASE (R252). -/
def execTrunkRelease (l : LinkId) (t : Byte) (s : State) : Host.Outcome State Fault Refusal :=
  .next (onDev (fun d => d.trkRelease l t) s)

/-- The retention of a tag ends (R252): EXPIRED, its units free.
(Log entry 59 DEDUCED.) -/
def Dev.trkExpire (d : Dev) (l : LinkId) (t : Fin 32) : Dev :=
  let g := (d.links[l]).tags[t]
  match g.st with
  | .retained => (d.until_ g.expires).modTrunk l fun k => { k with tags := k.tags.set t { st := .expired } }
  | _ => d

/-- TRUNK_RETAIN_EXPIRED (R252). -/
def execTrunkRetainExpired (l : LinkId) (t : Fin 32) (s : State) : Host.Outcome State Fault Refusal :=
  .next (onDev (fun d => d.trkExpire l t) s)

/-! ### The page (R263, R264) -/

/-- Parked standing reads. -/
def Trunk.standing (k : Trunk) : Nat := (k.parked.filter fun x => x.req.opc = 7).length

/-- TRKn_STAT. -/
def Trunk.stat (k : Trunk) : Word :=
  pack [(0, k.state), (2, b2n k.linkdown), (8, k.freein), (16, k.standing), (20, k.resv)]

/-- Reads of the page. -/
def Dev.trkRead (d : Dev) (o : Nat) : Word :=
  if 0x40 ≤ o ∧ o < 0x50 then d.trk.rxq[Fin.ofNat 4 ((o - 0x40) / 4)]
  else if 0x50 ≤ o ∧ o < 0x60 then d.trk.txq[Fin.ofNat 4 ((o - 0x50) / 4)]
  else if 0x100 ≤ o ∧ o < 0x124 then (d.links[(0 : LinkId)]).cnt[Fin.ofNat 9 ((o - 0x100) / 4)]
  else if 0x140 ≤ o ∧ o < 0x164 then (d.links[(1 : LinkId)]).cnt[Fin.ofNat 9 ((o - 0x140) / 4)]
  else match o with
    | 0x00 => d.trk.ctl
    | 0x04 => d.trk.acl
    | 0x10 => (d.links[(0 : LinkId)]).stat
    | 0x14 => (d.links[(1 : LinkId)]).stat
    | 0x20 => d.attn.setWidth 32
    | 0x24 => d.trk.cause
    | _ => 0

/-- A write of TRK_CTL; a link that is disabled leaves UP. -/
def Dev.writeTrkCtl (d : Dev) (v : Word) : Dev :=
  let d := { d with trk := { d.trk with ctl := v &&& 0x00FFFF03 } }
  let off := fun (d : Dev) (l : LinkId) => if !bit v l.val ∧ (d.links[l]).state ≠ 0 then d.trkDown l else d
  off (off d 0) 1

/-- Writes of the page; TRK_CTL and TRK_ACL take them from a core in machine mode alone. -/
def Dev.trkWrite (d : Dev) (i : Initiator) (o : Nat) (v : Word) : Dev :=
  let machine := match coreOf i with | some c => (d.cores[c]).mach | none => false
  let clr := fun (d : Dev) (l : LinkId) => d.modTrunk l fun k => { k with cnt := Vector.replicate 9 0 }
  if 0x40 ≤ o ∧ o < 0x50 then { d with trk := { d.trk with rxq := d.trk.rxq.set (Fin.ofNat 4 ((o - 0x40) / 4)) v } }
  else if 0x50 ≤ o ∧ o < 0x60 then { d with trk := { d.trk with txq := d.trk.txq.set (Fin.ofNat 4 ((o - 0x50) / 4)) v } }
  else match o with
    | 0x00 => if machine then d.writeTrkCtl v else d
    | 0x04 => if machine then { d with trk := { d.trk with acl := v &&& 0xFFFF } } else d
    | 0x10 => if bit v 2 then d.modTrunk 0 fun k => { k with linkdown := false } else d
    | 0x14 => if bit v 2 then d.modTrunk 1 fun k => { k with linkdown := false } else d
    | 0x24 => { d with trk := { d.trk with cause := d.trk.cause &&& ~~~v } }
    | 0x28 => { d with trk := { d.trk with cause := d.trk.cause ||| (v &&& 0xFFFF0000) } }
    | 0x30 =>
      let d := if bit v 0 then clr d 0 else d
      if bit v 1 then clr d 1 else d
    | _ => d

end Sys2Proof.Machine
end

