-- ==== Sys2Proof/Machine/Pages.lean ====
section
/-! DEFINITION. The pages of the cipher block (R240), the region fault unit (R439), the chip fault unit (R438), CAN FD
and the TDP dispatcher (R296, R297), config memory (R295, R298) and core control (R336). -/

namespace Sys2Proof.Machine

/-! ### Cipher channels -/

/-- Reads of 0x0000 to 0x01FF of the cipher page. -/
def Dev.ciphRead (d : Dev) (r : RegionId) (o : Nat) : Word :=
  let c := (d.regions[r]).cipher
  if o = 0x100 then
    pack [(0, bitsNat ((List.finRange 4).map fun i => !c.fenced[i])), (8, c.mismatch.toNat), (16, c.faults.toNat)]
  else if 0x80 ≤ o then 0
  else
    let x := c.chans[Fin.ofNat 2 (o / 0x40)]
    let g := x.regs
    match o % 0x40 with
    | 0x00 => g.src
    | 0x04 => g.dst
    | 0x08 => g.len
    | 0x0C => g.key
    | 0x10 => g.nonce[(0 : Fin 4)]
    | 0x14 => g.nonce[(1 : Fin 4)]
    | 0x18 => g.nonce[(2 : Fin 4)]
    | 0x1C => g.nonce[(3 : Fin 4)]
    | 0x20 => pack [(0, g.op), (8, x.status)]
    | _ => 0

/-- Writes of 0x0000 to 0x01FF of the cipher page. -/
def Dev.ciphWrite (d : Dev) (r : RegionId) (o : Nat) (v : Word) : Dev :=
  if 0x80 ≤ o then d
  else
    let n : Fin 2 := Fin.ofNat 2 (o / 0x40)
    let put := fun (f : CiphRegs → CiphRegs) => d.modChan r n fun c => { c with regs := f c.regs }
    match o % 0x40 with
    | 0x00 => put fun g => { g with src := v }
    | 0x04 => put fun g => { g with dst := v }
    | 0x08 => put fun g => { g with len := v &&& 0x1FFF }
    | 0x0C => put fun g => { g with key := v &&& 0x1FFF1FFF }
    | 0x10 => put fun g => { g with nonce := g.nonce.set (0 : Fin 4) v }
    | 0x14 => put fun g => { g with nonce := g.nonce.set (1 : Fin 4) v }
    | 0x18 => put fun g => { g with nonce := g.nonce.set (2 : Fin 4) v }
    | 0x1C => put fun g => { g with nonce := g.nonce.set (3 : Fin 4) (v &&& 0xFF) }
    | 0x20 =>
      let d := put fun g => { g with op := fld v 0 3 }
      if bit v 3 then d.ciphGo r n else d
    | _ => d

/-! ### Fault units -/

/-- Reads of the region fault unit. -/
def Dev.regfRead (d : Dev) (r : RegionId) (o : Nat) : Word :=
  let f := (d.regions[r]).flt
  match o with
  | 0x00 => f.tflag
  | 0x04 => f.pflag
  | 0x10 => f.cntTrans
  | 0x14 => f.missdrop
  | 0x18 => f.statdrop
  | _ => 0

/-- Writes of the region fault unit. -/
def Dev.regfWrite (d : Dev) (r : RegionId) (o : Nat) (v : Word) : Dev :=
  match o with
  | 0x00 => d.modRegFlt r fun f => { f with tflag := f.tflag &&& ~~~v }
  | 0x04 => d.modRegFlt r fun f => { f with pflag := f.pflag &&& ~~~v }
  | _ => d

/-- The region fault unit's interrupt is pending. -/
def RegFault.irq (f : RegFault) : Bool := f.tflag ≠ 0 || f.pflag ≠ 0

/-- Reads of the chip fault unit. -/
def Dev.fltRead (d : Dev) (o : Nat) : Word :=
  let f := d.flt
  match o with
  | 0x00 => f.tflag
  | 0x04 => f.pflag
  | 0x08 => f.ctl
  | 0x10 => f.cntTrans
  | 0x14 => f.cntPerm
  | 0x18 => pack [(0, f.log.length), (16, f.lost)]
  | 0x1C => BitVec.ofNat 32 f.list.length
  | _ => 0

/-- Writes of the chip fault unit. -/
def Dev.fltWrite (d : Dev) (o : Nat) (v : Word) : Dev :=
  let f := d.flt
  match o with
  | 0x00 => { d with flt := { f with tflag := f.tflag &&& ~~~v } }
  | 0x04 => { d with flt := { f with pflag := f.pflag &&& ~~~v } }
  | 0x08 => { d with flt := { f with ctl := v &&& 0x0FFF000F } }
  | _ => d

/-- The chip fault unit's interrupt is pending. -/
def ChipFault.irq (f : ChipFault) : Bool := f.tflag ≠ 0 || f.pflag ≠ 0

/-! ### CAN FD and TDP -/

/-- CAN_STAT.
(Log entry 78 PRESUMED.) -/
def Can.stat (c : Can) : Word :=
  pack [(0, c.mode), (2, b2n c.nonode), (4, c.node), (12, c.arb), (14, c.data), (16, c.tec), (24, c.rec_)]

/-- Reads of the CAN FD page. -/
def Dev.canRead (d : Dev) (o : Nat) : Word :=
  if 0x40 ≤ o ∧ o < 0x54 then d.can.cnt[Fin.ofNat 5 ((o - 0x40) / 4)]
  else if 0x1040 ≤ o ∧ o < 0x1050 then d.tdp.cnt[Fin.ofNat 4 ((o - 0x1040) / 4)]
  else match o with
    | 0x0000 => d.can.stat
    | 0x1000 => d.tdp.fwctl
    | _ => 0

/-- Writes of the CAN FD page. -/
def Dev.canWrite (d : Dev) (o : Nat) (v : Word) : Dev :=
  match o with
  | 0x0004 =>
    if bit v 0 then { d with can := { d.can with cnt := Vector.replicate 5 0 }, tdp := { d.tdp with cnt := Vector.replicate 4 0 } }
    else d
  | 0x1000 => { d with tdp := { d.tdp with fwctl := v &&& 0xFF1F1F01 } }
  | _ => d

/-! ### Config memory -/

/-- CFG_STAT. -/
def Cfg.stat (c : Cfg) : Word :=
  pack [(0, c.flags.toNat), (5, b2n c.sfdp), (6, c.area), (8, c.queue.length % 4096)]

/-- CLEAR (R295): every queued record is discarded, and a compaction writes none. -/
def Cfg.clear (c : Cfg) : Cfg := { c with queue := [] }.compact []

/-- Reads of the config-memory page. -/
def Cfg.read (c : Cfg) (o : Nat) : Word :=
  match o with
  | 0x00 => c.stat
  | 0x04 => pack [(0, c.applied), (16, c.skipped)]
  | 0x08 => c.gen
  | 0x10 => c.dev.setWidth 32
  | _ => 0

/-- Writes of the config-memory page. -/
def Cfg.pageWrite (c : Cfg) (o : Nat) (v : Word) : Cfg :=
  match o with
  | 0x00 => { c with flags := c.flags &&& ~~~(v.setWidth 5) }
  | 0x0C => if bit v 0 then c.clear else c
  | _ => c

/-! ### Core control -/

/-- A core leaves reset at an address with the state of R333; a1 as given (R333, R335). -/
def Dev.startCore (d : Dev) (c : CoreId) (pc a1 : Word) : Dev :=
  d.modCore c fun x =>
    { retired := x.retired, running := true, pc, entry := x.entry, wake := x.wake, released := true
      regs := ((Vector.replicate 32 (0 : Word)).set 10 (BitVec.ofNat 32 c.val)).set 11 a1 }

/-- RUN bit of a core that is neither the main core nor retired (R336).
(Log entry 65 DEDUCED.) -/
def Dev.setRun (d : Dev) (c : CoreId) (run : Bool) : Dev :=
  let x := d.cores[c]
  if c = d.mainCore ∨ x.retired ∨ x.running = run then d
  else if run then d.startCore c x.entry 0x2007C000
  else if x.held then d.modCore c fun y => { y with stopping := true, released := false }
  else (d.holdCore c).modCore c fun y => { y with released := false }

/-- CORE_STAT. -/
def Dev.coreStat (d : Dev) : Word :=
  let bits := fun (f : Core → Bool) => bitsNat ((List.finRange 8).map fun c => f d.cores[c])
  pack [(0, bits (·.running)), (8, bits (·.retired)), (16, d.mainCore.val), (24, bits (·.wfi))]

/-- Reads of the identity page. -/
def Dev.coreRead (d : Dev) (o : Nat) : Word :=
  let bits := fun (f : Core → Bool) => BitVec.ofNat 32 (bitsNat ((List.finRange 8).map fun c => f d.cores[c]))
  if 0x1010 ≤ o ∧ o < 0x1030 then (d.cores[Fin.ofNat 8 ((o - 0x1010) / 4)]).entry
  else if 0x1030 ≤ o ∧ o < 0x1050 then (d.cores[Fin.ofNat 8 ((o - 0x1030) / 4)]).wake
  else match o with
    | 0x1000 => bits fun x => x.running && !x.stopping
    | 0x1004 => d.coreStat
    | 0x1008 => bits (·.msip)
    | _ => 0

/-- Writes of the identity page: a core in machine mode alone (R336). -/
def Dev.coreWrite (d : Dev) (i : Initiator) (o : Nat) (v : Word) : Dev :=
  let machine := match coreOf i with | some c => (d.cores[c]).mach | none => false
  if !machine then d
  else if 0x1010 ≤ o ∧ o < 0x1030 then d.modCore (Fin.ofNat 8 ((o - 0x1010) / 4)) fun x => { x with entry := clrBit v 0 }
  else if 0x1030 ≤ o ∧ o < 0x1050 then d.modCore (Fin.ofNat 8 ((o - 0x1030) / 4)) fun x => { x with wake := clrBit v 0 }
  else match o with
    | 0x1000 => (List.finRange 8).foldl (fun d c => d.setRun c (bit v c.val)) d
    | 0x1008 => (List.finRange 8).foldl (fun d c => d.modCore c fun x => { x with msip := bit v c.val }) d
    | _ => d

end Sys2Proof.Machine
end

