-- ==== Sys2Proof/Machine/PwrOps.lean ====
section
/-! DEFINITION. Power management (R404 to R413, R419): power states, domains, pace and voltage, the power page. Waking
from HOLD and STANDBY is in StartOps.lean. -/

namespace Sys2Proof.Machine

/-! ### NAP -/

/-- A port block at its reset state; retirements of its port, lanes and watchers stay, and so do the levels of its
front-end lines (R131).
(Log entry 34 DEDUCED.) -/
def Port.blank (p : Port) : Port :=
  { rx := { retired := p.rx.retired
            lanes := vmap p.rx.lanes fun l => if l.retired then { retired := true, due := none } else {}
            watchers := vmap p.rx.watchers fun w => { retired := w.retired } }
    tx := { femLevel := p.tx.femLevel, fem := p.tx.fem }
    cal := { tnow := p.cal.tnow } }

/-- NAP powers down every port block (R204, R406).
(Log entry 34 DEDUCED.) -/
def Dev.enterNap (d : Dev) : Dev :=
  let d := (List.finRange 24).foldl (fun d p => d.portCut p) d
  { d with ports := vmap d.ports Port.blank, pwr := { d.pwr with now := .nap } }

/-- A port block powers up and hops to PORT_RXFREQ, and a calibration is asked for (R137, R406). -/
def Dev.portRise (d : Dev) (p : PortId) : Dev :=
  if (d.ports[p]).rx.retired then d
  else
    let d := d.modSyn p fun s => { s with freq := (d.ports[p]).rx.rxfreq, hop := none, lock := false }
    let d := d.modGauge p fun g => { g with dueAt := d.now + 60 * secTicks }
    (d.relock p true).modCal p fun c => { c with calvalid := false, blocked := false, wanted := c.wanted || c.auto }

/-- NAP is left (R406). -/
def Dev.leaveNap (d : Dev) (src : Nat) : Dev :=
  let d := { d with pwr := { d.pwr with now := .on, wakeSrc := src } }
  ((List.finRange 24).foldl (fun d p => if d.portUp p then d.portRise p else d) d).serveCals

/-! ### HOLD and STANDBY -/

/-- A request for HOLD or STANDBY is refused (R408). -/
def Dev.entryRefused (d : Dev) : Bool :=
  d.flash.status = 1 || d.flash.status = 2 || d.keys.commits ≠ [] || d.otp.status = 1 || d.att.run.isSome ||
  d.cfg.queue ≠ [] || d.upd.holder.isSome ||
  d.anyRegion (fun r => (List.finRange 8).any fun c => (r.dma.chans[c]).active.isSome) ||
  (List.finRange 2).any fun l =>
    let k := d.links[l]
    k.admitted ≠ [] || k.parked ≠ [] || k.run.isSome

/-- What HOLD keeps of the latched causes of a port: OVER and NF_OVER (R110, R260, R408), beside its retirements.
(Log entry 33 DEDUCED.) -/
def Port.held (p : Port) : Port :=
  let q := p.blank
  { q with rx := { q.rx with gauge := { q.rx.gauge with isOver := p.rx.gauge.isOver, nfOver := p.rx.gauge.nfOver } } }

/-- What HOLD keeps of a region: retirements, fenced cells, the fault unit's flags, the power registers.
(Log entry 33 DEDUCED.) -/
def Region.held (x : Region) : Region :=
  let y : Region := {}
  { y with
    retired := x.retired
    banks := x.banks
    queues := if x.retired then vmap y.queues (fun q => { q with en := false })
      else Vector.ofFn fun i =>
        { y.queues[i] with en := !(List.range 8).any fun b => x.banks.getLsbD b && (y.queues[i]).inBank b }
    cipher := { y.cipher with fenced := x.cipher.fenced }
    second := { y.second with units := vmap x.second.units fun u => { fenced := u.fenced } }
    flt := { tflag := x.flt.tflag, pflag := x.flt.pflag }
    pwr := { x.pwr with waking := [] } }

/-- What is left when the module has entered HOLD (R408): the items of its table; the retirements, the fault log, the
secrets and the image's name are kept with them. Stakes end under R204, and the front-end lines go to OFFLVL (R131). The datum and the elapsed count are latched (R414).
(Log entry 33 DEDUCED.) -/
def Dev.enterHold (d : Dev) : Dev :=
  let d := (List.finRange 24).foldl (fun d p => d.portCut p) d
  let d0 : Dev := {}
  { d0 with
    now := d.now
    freeCtr := d.freeCtr
    ports := vmap d.ports Port.held
    regions := vmap d.regions Region.held
    datum := { d0.datum with now := d.datum.now, unsynced := d.datum.unsynced, refLost := d.datum.refLost, ppsLost := d.datum.ppsLost }
    cl := { d0.cl with ctx := d.cl.ctx, table := d.cl.table }
    errs := d.errs
    keys := { d0.keys with slots := d.keys.slots, lost := d.keys.lost, writes := d.keys.writes }
    otp := { d.otp with op := 0, sel := 0, status := 0, src := 0, run := none, taken := none }
    att := { c := d.att.c, lost := d.att.lost, last := d.att.last }
    drv := d.drv
    dbg := { d.dbg with src := 0, status := 0, jtagOut := [], boundary := [], extest := false }
    sec := { d0.sec with stat := d.sec.stat }
    trk := { d0.trk with cause := d.trk.cause, seq := d.trk.seq, lastAttn := d.trk.lastAttn }
    tdp := { d0.tdp with rwp := d.tdp.rwp }
    can := { straps := d.can.straps }
    cfg := d.cfg
    cores := vmap d.cores fun c => { retired := c.retired, wake := c.wake, released := c.released }
    flash := { mem := d.flash.mem, prog := d.flash.prog, blocks := d.flash.blocks, half := d.flash.half, errs := d.flash.errs, wp := d.flash.wp }
    evt := { d0.evt with gpioExt := d.evt.gpioExt, gpioOut := d.evt.gpioOut, gpioOe := d.evt.gpioOe, gpioWake := d.evt.gpioWake }
    rtc := { d.rtc with shadows := Vector.replicate 15 none, entry := some (d.datum.now.toNat, d.rtc.count) }
    pwr := { d.pwr with now := .hold, restartAt := none }
    flt := { d.flt with track := [], cntTrans := 0, cntPerm := 0, ctl := d0.flt.ctl }
    upd := { flags := d.upd.flags }
    img := d.img }

/-- Nothing but VKA and the backup domain has power (R404, R406, R416): registers and memories stand as at a start, and
every core is held. The wake detectors keep their configuration.
(Log entry 32 DEDUCED.) -/
def Dev.unpowered (d : Dev) (now : PwrNow) : Dev :=
  let x := d.beginStart 0
  { x with cores := Vector.replicate 8 {}, pwr := { x.pwr with now, wakecfg := d.pwr.wakecfg }
           rtc := { x.rtc with swPrev := d.rtc.swPrev } }

/-- STANDBY keeps the backup domain and what never has power (R12, R209, R406, R432).
(Log entry 32 DEDUCED.) -/
def Dev.enterStandby (d : Dev) : Dev :=
  { d with rtc := { d.rtc with entry := some (d.datum.now.toNat, d.rtc.count) } }.unpowered .standby

/-- A write of REQ (R406, R408, R417): taken while the device is up. SRAM keeps its content in HOLD alone.
(Log entry 34 DEDUCED.) -/
def pwrReq (v : Word) (s : State) : State :=
  let d := s.d
  if d.pwr.phase ≠ .up then s
  else match fld v 0 3 with
    | 1 => if d.pwr.now = .nap then { s with d := d.leaveNap 8 } else s
    | 2 => if d.pwr.now = .on then { s with d := d.enterNap } else s
    | 3 => { s with d := if d.entryRefused then d.pwrFlag 3 else d.enterHold }
    | 4 => if d.entryRefused then { s with d := d.pwrFlag 3 } else { s with d := d.enterStandby, ram := [] }
    | _ => s

/-! ### Domains -/

/-- The domain of a region is asleep: a port block only once no stake of it is ACTIVE (R204). -/
def Dev.domainAsleep (d : Dev) (r : RegionId) (dom : Nat) : Bool :=
  (d.regions[r]).pwr.domsleep.getLsbD dom && (6 ≤ dom || d.portAsleep (portOf r (Fin.ofNat 6 dom)))

/-- An awake port of the region has RXEN = 1 (R409). -/
def Dev.regionReceives (d : Dev) (r : RegionId) : Bool :=
  (portsOf r).any fun p => bit (d.ports[p]).rx.rxctl 0 && !(d.regions[r]).pwr.domsleep.getLsbD (localOfPort p).val

/-- A domain may not sleep now (R409). -/
def Dev.sleepRefused (d : Dev) (r : RegionId) (dom : Nat) : Bool :=
  let x := d.regions[r]
  match dom with
  | 6 => (List.finRange 8).any fun c => regionOfCore c = r && (d.cores[c]).running
  | 7 => (List.finRange 2).any (fun n => (x.cipher.chans[n]).status = 1) || d.regionReceives r
  | 8 => d.regionReceives r
  | 9 => (List.finRange 8).any fun c => (x.dma.chans[c]).active.isSome
  | _ => false

/-- A domain is asked to sleep, or woken. A port block sleeps once no stake of it is ACTIVE. A woken domain is ready when DOMAIN_READY says so. -/
def Dev.setDomain (d : Dev) (r : RegionId) (dom : Nat) (sleep : Bool) : Dev :=
  let on := (d.regions[r]).pwr.domsleep.getLsbD dom
  if on = sleep then d
  else if sleep then
    if d.sleepRefused r dom then d.pwrFlag 2
    else
      let d := d.modRegPwr r fun p => { p with domsleep := p.domsleep ||| (1#10 <<< dom), waking := p.waking.filter fun x => x ≠ dom }
      if dom < 6 then
        let p := portOf r (Fin.ofNat 6 dom)
        if d.portAsleep p then d.portSleep p else d
      else d
  else
    let really := d.domainAsleep r dom
    d.modRegPwr r fun p =>
      { p with domsleep := p.domsleep &&& ~~~(1#10 <<< dom), waking := if really then p.waking ++ [dom] else p.waking }

/-- A write of PWR_DOMSLEEP, domain by domain in rising order (R409).
(Log entry 34 DEDUCED.) -/
def Dev.writeDomsleep (d : Dev) (r : RegionId) (v : Word) : Dev :=
  (List.range 10).foldl (fun d k => d.setDomain r k (bit v k)) d

/-- A woken domain is ready (R410); a port block's synthesizer relocks. -/
def Dev.domainReady (d : Dev) (r : RegionId) (dom : Nat) : Dev :=
  if !(d.regions[r]).pwr.waking.contains dom then d
  else
    let d := d.modRegPwr r fun p => { p with waking := p.waking.filter fun x => x ≠ dom }
    if dom < 6 then
      let p := portOf r (Fin.ofNat 6 dom)
      if (d.ports[p]).rx.retired then d else ((d.relock p true).serveCal r).femIdle p
    else d

/-! ### Pace and voltage -/

/-- VSET code of a pace entry (R411). -/
def vsetCode (pace : Nat) : Nat := [0, 3, 6, 10, 14, 18, 24, 30].getD pace 30

/-- The code that VCORE moves to: VSET and the loop's boost. -/
def RegPower.target (p : RegPower) : Nat := p.vset + p.boost

/-- VCORE at an elapsed tick, 10 mV per 10 µs (R412). -/
def RegPower.at_ (p : RegPower) (now : Nat) : Nat :=
  let k := (now - p.vStart) / (10 * usTicks)
  if p.vnow ≤ p.target then min p.target (p.vnow + k) else max p.target (p.vnow - k)

/-- VBUSY. -/
def RegPower.busy (p : RegPower) (now : Nat) : Bool := p.at_ now ≠ p.target

/-- VSET and boost take values; a new move begins from where VCORE stands. -/
def RegPower.move (p : RegPower) (vset boost now : Nat) : RegPower :=
  if vset + boost = p.target then { p with vset, boost }
  else { p with vnow := p.at_ now, vStart := now, vset, boost }

/-- The elapsed tick at which VCORE arrives. -/
def RegPower.arrives (p : RegPower) : Nat :=
  p.vStart + (p.target - p.vnow + (p.vnow - p.target)) * (10 * usTicks)

/-- A write of VSET (R412): the boost never takes VCORE above the ceiling or 0.90 V (R413). -/
def Dev.writeVset (d : Dev) (r : RegionId) (v : Word) : Dev :=
  let p := (d.regions[r]).pwr
  let x := fld v 0 5
  if p.vceil < x ∨ 30 < x ∨ (x < p.vset ∧ x < vsetCode p.pace) then d.pwrFlag 0
  else d.modRegPwr r fun p => p.move x (min p.boost (min p.vceil 30 - x)) d.now

/-- A write of PACE (R412); a decrease takes effect at once, and PACENOW never stands above PACE (R413). -/
def Dev.writePace (d : Dev) (r : RegionId) (v : Word) : Dev :=
  let p := (d.regions[r]).pwr
  let x := fld v 0 3
  if p.pace < x ∧ (p.vset < vsetCode x ∨ p.busy d.now) then d.pwrFlag 0
  else (d.modRegPwr r fun p =>
    { p with pace := x, paceNow := if p.paceNow = p.pace then x else min x p.paceNow }).serveLanes r

/-- A write of VCEIL (R412). -/
def Dev.writeVceil (d : Dev) (r : RegionId) (v : Word) : Dev :=
  let p := (d.regions[r]).pwr
  let x := fld v 0 5
  if x < p.vset then d.pwrFlag 0
  else d.modRegPwr r fun p => { p with vceil := x }.move p.vset (min p.boost (min x 30 - p.vset)) d.now

/-- VCORE arrives (R412). -/
def Dev.vcoreSettled (d : Dev) (r : RegionId) : Dev :=
  let d := d.until_ (d.regions[r]).pwr.arrives
  d.modRegPwr r fun p => { p with vnow := p.at_ d.now, vStart := d.now }

/-- The boost cannot rise further (R413). -/
def RegPower.boosted (p : RegPower) : Bool := min p.vceil 30 ≤ p.vset + p.boost

/-- The margin is low: one step of boost (R413).
(Log entry 35 DEDUCED.) -/
def Dev.marginLow (d : Dev) (r : RegionId) : Dev :=
  let p := (d.regions[r]).pwr
  if p.boosted then d else d.modRegPwr r fun p => p.move p.vset (p.boost + 1) d.now

/-- With the boost at its limit PACENOW drops; AVS_CONFLICT sets at the first such step (R413).
(Log entry 35 DEDUCED.) -/
def Dev.paceStep (d : Dev) (r : RegionId) : Dev :=
  let p := (d.regions[r]).pwr
  if !p.boosted ∨ p.paceNow = 0 then d
  else
    let d := if p.paceNow = p.pace then d.pwrFlag 1 else d
    d.modRegPwr r fun p => { p with paceNow := p.paceNow - 1 }

/-- The margin has held for 10 ms (R413): PACENOW rises one entry toward PACE, and once there the boost goes.
(Log entry 35 DEDUCED.) -/
def Dev.marginHeld (d : Dev) (r : RegionId) : Dev :=
  let p := (d.regions[r]).pwr
  if p.paceNow < p.pace then (d.modRegPwr r fun p => { p with paceNow := p.paceNow + 1 }).serveLanes r
  else d.modRegPwr r fun p => p.move p.vset (p.boost - 1) d.now

/-! ### The page (R419) -/

/-- Every released core stalls in WFI (R406). -/
def Dev.dozing (d : Dev) : Bool :=
  (List.finRange 8).any (fun c => (d.cores[c]).running) &&
    (List.finRange 8).all fun c => !(d.cores[c]).running || (d.cores[c]).wfi

/-- PWR_STATE. -/
def Dev.pwrState (d : Dev) : Word :=
  pack [(4, if d.pwr.now = .nap then 2 else if d.pwr.phase = .up && d.dozing then 1 else 0), (8, d.pwr.wakeSrc)]

/-- Power management's interrupt: a flag of PWR_FLAG is set. -/
def Dev.pwrIrq (d : Dev) : Bool := d.pwr.flag ≠ 0

/-- Reads of the page. -/
def Dev.pwrRead (d : Dev) (o : Nat) : Word :=
  let r : RegionId := Fin.ofNat 4 (o % 16 / 4)
  let p := (d.regions[r]).pwr
  match o / 16 * 16 with
  | 0x10 => p.domsleep.setWidth 32
  | 0x20 => p.domerr.setWidth 32
  | 0x50 => pack [(0, p.vset), (8, p.at_ d.now), (16, b2n (p.busy d.now))]
  | 0x60 => pack [(0, p.pace), (4, p.paceNow), (8, d.laneCap r)]
  | 0x70 => pack [(0, p.vceil), (8, p.boost)]
  | _ => match o with
    | 0x00 => d.pwrState
    | 0x04 => d.pwr.flag.setWidth 32
    | 0x40 => d.pwr.wakecfg
    | 0x80 => pack [(0, d.pwr.vin), (16, sN 16 d.pwr.temp)]
    | 0x84 => pack [(0, b2n d.pwr.out33)]
    | _ => 0

/-- Writes of the page. -/
def pwrWrite (o : Nat) (v : Word) (s : State) : State :=
  let r : RegionId := Fin.ofNat 4 (o % 16 / 4)
  let dev := fun (f : Dev → Dev) => { s with d := f s.d }
  match o / 16 * 16 with
  | 0x10 => dev fun d => d.writeDomsleep r v
  | 0x20 => dev fun d => d.modRegPwr r fun p => { p with domerr := v.setWidth 10 }
  | 0x50 => dev fun d => d.writeVset r v
  | 0x60 => dev fun d => d.writePace r v
  | 0x70 => dev fun d => d.writeVceil r v
  | _ => match o with
    | 0x00 => pwrReq v s
    | 0x04 => dev fun d => { d with pwr := { d.pwr with flag := d.pwr.flag &&& ~~~(v.setWidth 9) } }
    | 0x40 => dev fun d => { d with pwr := { d.pwr with wakecfg := v &&& 0x1F } }
    | 0x84 => dev fun d => { d with pwr := { d.pwr with out33 := bit v 0 } }
    | _ => s

/-! ### Commands -/

/-- DOMAIN_READY (R410). -/
def execDomainReady (r : RegionId) (k : Fin 10) (s : State) : Host.Outcome State Fault Refusal :=
  .next (onDev (fun d => d.domainReady r k.val) s)

/-- VCORE_SETTLED (R412). -/
def execVcoreSettled (r : RegionId) (s : State) : Host.Outcome State Fault Refusal :=
  .next (onDev (fun d => d.vcoreSettled r) s)

/-- AVS_MARGIN_LOW (R413). -/
def execAvsMarginLow (r : RegionId) (s : State) : Host.Outcome State Fault Refusal :=
  .next (onDev (fun d => d.marginLow r) s)

/-- AVS_PACE_STEP (R413). -/
def execAvsPaceStep (r : RegionId) (s : State) : Host.Outcome State Fault Refusal :=
  .next (onDev (fun d => d.paceStep r) s)

/-- AVS_MARGIN_HELD (R413). -/
def execAvsMarginHeld (r : RegionId) (s : State) : Host.Outcome State Fault Refusal :=
  .next (onDev (fun d => d.marginHeld r) s)

/-- TEMP_HIGH (R419, R454): the die's temperature as measured; the flag sets above 105 °C. -/
def execTempHigh (t : Int) (s : State) : Host.Outcome State Fault Refusal :=
  .next (onDev (fun d =>
    let d := { d with pwr := { d.pwr with temp := t } }
    if 105 < t then d.pwrFlag 6 else d) s)

/-- OUT33_OVERLOAD (R405): V33OUT folds back. -/
def execOut33Overload (s : State) : Host.Outcome State Fault Refusal :=
  .next (onDev (fun d =>
    if d.pwr.out33 ∧ (d.pwr.now = .on ∨ d.pwr.now = .nap ∨ d.pwr.now = .hold) then
      { d with pwr := { d.pwr with overload := true } }.pwrFlag 7
    else d) s)

/-- V33OUT_RECOVERY (R405). -/
def execV33outRecovery (s : State) : Host.Outcome State Fault Refusal :=
  .next (onDev (fun d => { d with pwr := { d.pwr with overload := false } }) s)

/-- VIN takes a value of a range, in 0.1 V; which one is free (log entry 12).
(Log entry 12 UNVERIFIED.) -/
def Dev.vinIn (d : Dev) (lo hi : Nat) : Dev := { d with pwr := { d.pwr with vin := lo + d.freeNow % (hi + 1 - lo) } }.took

/-- The module runs with VIN from 32 V to below 36 V, or above 75 V to 82 V: VIN_LOW or VIN_HIGH sets (R404). -/
def Dev.vinFlag (d : Dev) : Dev :=
  if 320 ≤ d.pwr.vin ∧ d.pwr.vin < 360 then d.pwrFlag 4
  else if 750 < d.pwr.vin ∧ d.pwr.vin ≤ 820 then d.pwrFlag 5
  else d

/-- VIN_RANGE_FLAG (R404): VIN enters 32–36 V or 75–82 V. -/
def execVinRangeFlag (high : Bool) (s : State) : Host.Outcome State Fault Refusal :=
  .next (onDev (fun d =>
    if d.pwr.now = .off then d
    else (if high then d.vinIn 751 820 else d.vinIn 320 359).pwrFlag (if high then 5 else 4)) s)

end Sys2Proof.Machine
end

