-- ==== Sys2Proof/Machine/Transmit.lean ====
section
/-! DEFINITION. Hops, transmission, tuner, calibration and the life of stakes (R117 to R143, R195 to R208, R468), and
the registers of the port page from offset 0x8000 on. -/

namespace Sys2Proof.Machine

/-! ### Frame preparation (R125, R200) -/

/-- What a TX stake's source gives the encoder. -/
inductive Supplied where
  | bytes (b : List Byte)
  | badLen
  | discard
  deriving DecidableEq, Repr

/-- The source of a TX stake supplies its whole packet now, or cannot (R200); `mm` are the mismatches of the operation that
builds a link frame. -/
def Dev.supply (d : Dev) (p : PortId) (k : Stake) (mm : List Mismatch) : Option (Dev × Supplied) :=
  match k.link with
  | some lt => (d.linkSupply k lt mm).map fun y => (y.1, match y.2 with | some b => .bytes b | none => .discard)
  | none =>
    let len := fld k.param 0 8
    if len = 0 then some (d, .bytes [])
    else
      let q := queueOf (regionOfPort p) (Fin.ofNat 32 (fld k.w2 24 5))
      match (if d.queueUsable q then (d.queue q).packet else none) with
      | none => none
      | some ws =>
        let d := d.takeWords q ws.length
        if ws.length = (len + 7) / 8 then some (d, .bytes ((bytesOf64 (ws.map (·.value))).take len)) else some (d, .badLen)

/-- The BOOKED stakes in the order in which the encoder takes them (R200). -/
def SlotBook.toPrepare (b : SlotBook) : List (SlotId × Stake) :=
  sortBy (fun x y => decide (x.2.deadline < y.2.deadline) || (x.2.deadline = y.2.deadline && x.1 ≤ y.1))
    (b.used.filter fun x => x.2.action = 1 && x.2.state = .booked)

/-- The first of some stakes whose source can supply. -/
def Dev.firstSupplied (d : Dev) (p : PortId) (mm : List Mismatch) : List (SlotId × Stake) → Option (SlotId × Dev × Supplied)
  | [] => none
  | x :: l =>
    match d.supply p x.2 mm with
    | some y => some (x.1, y.1, y.2)
    | none => d.firstSupplied p mm l

/-- SYNC0 that a stake's frame carries: the port's, or the home port's in a group (R125, R140). -/
def Dev.syncOf (d : Dev) (p : PortId) (k : Stake) : Byte :=
  let h := if bit k.param 8 then Fin.ofNat 24 (fld k.param 9 5) else p
  BitVec.ofNat 8 (fld (d.ports[h]).rx.sync 0 8)

/-- The symbols of a stake's frame (R125). -/
def Dev.encodeFrame (d : Dev) (p : PortId) (n : SlotId) (k : Stake) (b : List Byte) : Prepared :=
  let m := w2Mode k.w2
  let h := { stakeHeader k.w2 k.param with len := b.length }
  { slot := n, mode := m, pre := w2Pre k.w2, syncSym := syncSymbols m.k (d.syncOf p k), fsync := fsyncSymbols m.k
    header := headerSymbols m.k h, payload := payloadSymbols m.k h b, phase := k.phase, power := k.power }

/-- The stakes of one JOIN_ACC are given up: it is not sent (R156). They end late with cause CANCELLED, the nearest of the
table's causes.
(Log entry 84 DESIGN CHOICE.) -/
def Dev.dropJoin (d : Dev) (home : PortId) (n : CtxId) : Dev :=
  (portsOf (regionOfPort home)).foldl (fun d q =>
    (d.ports[q]).sb.used.foldl (fun d x =>
      if x.2.state ≠ .active ∧ (x.2.link.any fun l => l.home = home && l.type = 5 && l.ctx = some n) then
        d.standDown q x.1 x.2 10
      else d) d) d

/-- The encoder finishes the first stake that can be supplied (R200). -/
def Dev.framePrepared (d : Dev) (p : PortId) (mm : List Mismatch) : Dev :=
  let x := d.ports[p]
  if 2 ≤ x.tx.buffer.length ∨ !d.portUp p then d
  else match d.firstSupplied p mm x.sb.toPrepare with
    | none => d
    | some (n, d, s) =>
      match d.stake p n with
      | none => d
      | some k =>
        match s with
        | .badLen => (d.endLate p n k 3).serveCal (regionOfPort p)
        | .discard => d
        | .bytes b =>
          let d := d.setStake p n (some
            { k with state := .ready, param := setFld k.param 0 8 b.length
                     onAir := airTicks (fld k.w2 8 3 + 6) (fld k.w2 6 2) (w2Pre k.w2)
                       { stakeHeader k.w2 k.param with len := b.length } })
          d.modTx p fun t => { t with buffer := t.buffer ++ [d.encodeFrame p n k b] }

/-- FRAME_PREPARED (R200), with the mismatches of the cipher pipes on the way (R212). -/
def execFramePrepared (p : Meets PortId Mismatch) (s : State) : Host.Outcome State Fault Refusal :=
  .next (onDevW (fun d => d.framePrepared p.at_ p.met) s)

/-! ### Arming and the lock check (R126 to R128, R194, R199, R201) -/

/-- The hop that a named entry asks for at the arming deadline; none is tried to an entry that is not usable under
CALSEL = 2 (R124). -/
def Dev.hopToEntry (d : Dev) (p : PortId) (e : Fin 64) : Dev :=
  let x := d.ports[p]
  if x.syn.calsel = 2 ∧ !x.usable e then d else d.hop p (x.syn.bm[e]).freq

/-- A READY stake is armed.
(Log entry 44 DEDUCED.) -/
def Dev.arm (d : Dev) (p : PortId) (n : SlotId) (k : Stake) : Dev :=
  let s := (d.ports[p]).syn
  let d := d.setStake p n (some { k with state := .armed, winF := if k.winsel then (s.bm[k.entry]).freq else s.freq })
  match k.action with
  | 1 =>
    let d := (d.suspendRx p).modTx p fun t => { t with
        interval := some n, endAt := none, rampDown := none, rampUs := k.ramp, retHop := k.winsel }
    if k.winsel then d.hopToEntry p k.entry else d
  | 2 => if k.winsel then d.hopToEntry p k.entry else d
  | _ => d

/-- The arming deadline of a stake (R199): armed, or late.
(Log entry 44 DEDUCED.) -/
def Dev.armingDeadline (d : Dev) (p : PortId) (n : SlotId) : Dev :=
  match d.stake p n with
  | none => d
  | some k =>
    if k.state = .armed ∨ k.state = .active then d
    else
      let d := d.untilDatum k.deadline
      let late := fun (c : Nat) => (d.endLate p n k c).serveCal (regionOfPort p)
      if k.state = .booked then late 0
      else if originGrid k.origin ∧ d.datum.unsynced then late 7
      else if k.action = 1 ∧ !bit (d.ports[p]).tx.ctl 0 then late 2
      else if !d.portUp p then late 11
      else d.arm p n k

/-- STAKE_ARMING_DEADLINE (R199). -/
def execStakeArmingDeadline (p : PortId) (n : SlotId) (s : State) : Host.Outcome State Fault Refusal :=
  .next (onDev (fun d => d.armingDeadline p n) s)

/-- The F at which a stake's window lies at the lock check (R127). -/
def Port.windowF (x : Port) (k : Stake) : Nat := if k.winsel then (x.syn.bm[k.entry]).freq else k.winF

/-- The lock check (R127, R201). When a TX stake fails it, the rest of its interval stays reserved. -/
def Dev.lockCheck (d : Dev) (p : PortId) (n : SlotId) : Dev :=
  match d.stake p n with
  | none => d
  | some k =>
    if k.state ≠ .armed ∨ k.checked ∨ !(k.action = 1 ∨ (k.action = 2 ∧ k.winsel)) then d
    else
      let d := d.untilDatum (k.release - us ((if k.action = 1 then k.ramp else 0) + 20))
      let x := d.ports[p]
      if x.syn.lock ∧ x.syn.freq = x.windowF k then d.setStake p n (some { k with checked := true })
      else
        let d := if k.action = 1 then
          d.modSb p fun b => { b with reserved := b.blocked d.datum.now.toNat ++ [((d.datum.now.toNat : Int), k.interval.2)] }
          else d
        (d.endLate p n k 1).serveCal (regionOfPort p)

/-- STAKE_LOCK_CHECK (R127). -/
def execStakeLockCheck (p : PortId) (n : SlotId) (s : State) : Host.Outcome State Fault Refusal :=
  .next (onDev (fun d => d.lockCheck p n) s)

/-! ### The timed sequence of a transmission (R126) -/

/-- The transmission of entry n goes on: it holds the interval, it is not ramping down and not over. -/
def Tx.alive (t : Tx) (n : SlotId) : Bool := t.interval = some n && t.endAt.isNone && t.rampDown.isNone

/-- The armed TX stake of entry n whose lock check has passed and whose transmission goes on. -/
def Dev.goingOn (d : Dev) (p : PortId) (n : SlotId) : Option Stake :=
  match d.stake p n with
  | some k => if k.action = 1 ∧ k.state = .armed ∧ k.checked ∧ (d.ports[p]).tx.alive n then some k else none
  | none => none

/-- The tuner takes a state (R133): a change advances the phase epoch.
(Log entry 46 DEDUCED.) -/
def Dev.applyTune (d : Dev) (p : PortId) (w : Word) : Dev :=
  if (d.ports[p]).tun.tune = w then d
  else (d.modTun p fun t => { t with tune := w }).advanceEpoch p true

/-- The lines take TXLVL; a pending tuner change takes effect. -/
def Dev.femLevels (d : Dev) (p : PortId) (n : SlotId) : Dev :=
  match d.goingOn p n with
  | none => d
  | some k =>
    let d := (d.untilDatum (k.release - us (k.ramp + 2 + k.femlead))).femTo p .tx
    match (d.ports[p]).tun.next with
    | some w => (d.modTun p fun t => { t with next := none }).applyTune p w
    | none => d

/-- TX_FEM_LEVELS (R126). -/
def execTxFemLevels (p : PortId) (n : SlotId) (s : State) : Host.Outcome State Fault Refusal :=
  .next (onDev (fun d => d.femLevels p n) s)

/-- The T/R switch goes to transmit. -/
def Dev.switchToTx (d : Dev) (p : PortId) (n : SlotId) : Dev :=
  match d.goingOn p n with
  | none => d
  | some k => (d.untilDatum (k.release - us (k.ramp + 2))).modTx p fun t => { t with toTx := true }

/-- TX_SWITCH_TO_TX (R126). -/
def execTxSwitchToTx (p : PortId) (n : SlotId) (s : State) : Host.Outcome State Fault Refusal :=
  .next (onDev (fun d => d.switchToTx p n) s)

/-- Ramp-up starts: the port is on air, MARI reads 1 in a group (R141). -/
def Dev.rampUp (d : Dev) (p : PortId) (n : SlotId) : Dev :=
  match d.goingOn p n with
  | none => d
  | some k =>
    let d := d.untilDatum (k.release - us k.ramp)
    d.modTx p fun t => { t with onSince := some (t.onSince.getD d.now), mari := t.mari || bit k.param 8 }

/-- TX_RAMP_UP (R126). -/
def execTxRampUp (p : PortId) (n : SlotId) (s : State) : Host.Outcome State Fault Refusal :=
  .next (onDev (fun d => d.rampUp p n) s)

/-! ### Release (R199, R201) -/

/-- A FILL stake goes on with its next entry, or hops back when none is left (R120). An entry whose FREQ R72 no longer
allows is skipped. -/
def Dev.fillNext (d : Dev) (p : PortId) (n : SlotId) (k : Stake) : Dev :=
  let s := (d.ports[p]).syn
  match k.fill.filter fun e => freqOk (s.bm[e]).freq with
  | [] => (d.setStake p n (some { k with fill := [] })).hop p (d.ports[p]).rx.rxfreq
  | e :: l => (d.setStake p n (some { k with fill := l })).beginHop p (s.bm[e]).freq (.full, some e) false

/-- A calibration begins (R136): receive stops, the lines take CALLVL.
(Log entry 21 DEDUCED.) -/
def Dev.calBegin (d : Dev) (p : PortId) : Dev :=
  let d := d.modCal p fun c =>
    { c with step := some .cold, startAt := d.now, calT := d.datum.now, freq := (d.ports[p]).syn.freq }
  (d.suspendRx p).femTo p .cal

/-- A TX stake fires: its frame goes on air, unless the transmission was cut before (R127). -/
def Dev.fireTx (d : Dev) (p : PortId) (n : SlotId) (k : Stake) : Dev :=
  if (d.ports[p]).tx.alive n then
    let d := d.modTun p fun t => { t with measured := false }
    let d := if bit k.param 8 then d.countTx p .marijoin else d
    match k.link with
    | some lt => if lt.home = p then d.linkReleased lt else d
    | none => d
  else match k.link with
    | some lt => if lt.home = p then d.linkCut lt else d
    | none => d

/-- At the release of a JOIN_ACC its new SADDR is looked up: one that another context has by now is not sent (R156). -/
def Dev.joinBlocked (d : Dev) (p : PortId) (k : Stake) : Dev × Option (CtxId × DnPacket) :=
  match k.link with
  | some lt =>
    match lt.ctx, d.stakePacket lt with
    | some n, some y =>
      if lt.type = 5 ∧ lt.home = p then
        let x := d.joinClash lt.region n y
        (x.1, if x.2 then some (n, y) else none)
      else (d, none)
    | _, _ => (d, none)
  | none => (d, none)

/-- An ACTIVE stake's action (R201). -/
def Dev.fireAction (d : Dev) (p : PortId) (n : SlotId) (k : Stake) : Dev :=
  match k.action with
  | 1 => d.fireTx p n k
  | 3 => d.writeRxfreq p (BitVec.ofNat 32 (fld k.param 0 30))
  | 4 =>
    let d := d.modTun p fun t => { t with frozen := true, next := none, trial := false }
    d.applyTune p (BitVec.ofNat 32 (fld k.param 0 14))
  | 5 => if bit k.param 0 then (d.fillNext p n k).femTo p .cal else d.calBegin p
  | _ => d

/-- The armed stake of entry n can be released: what must come before has come. -/
def Dev.releasable (d : Dev) (p : PortId) (n : SlotId) : Option Stake :=
  match d.stake p n with
  | some k =>
    let x := d.ports[p]
    let ok : Bool := match k.action with
      | 1 => k.checked && (!x.tx.alive n || x.tx.onSince.isSome)
      | 2 => k.checked || !k.winsel
      | _ => true
    if k.state = .armed ∧ ok then some k else none
  | none => none

/-- A stake reaches its release tick: ACTIVE (R199). -/
def Dev.release (d : Dev) (p : PortId) (n : SlotId) : Dev :=
  match d.releasable p n with
  | none => d
  | some k =>
    let d := d.untilDatum k.release
    match d.joinBlocked p k with
    | (d, some (c, y)) => ((d.dropJoin p c).endPacket c y 7).serveCal (regionOfPort p)
    | (d, none) =>
      let k := { k with state := .active, firedAt := d.now }
      ((d.setStake p n (some k)).countSb p .fired).fireAction p n k

/-- STAKE_RELEASE (R199).
(Log entry 2 DESIGN CHOICE.) -/
def execStakeRelease (p : PortId) (n : SlotId) (s : State) : Host.Outcome State Fault Refusal :=
  .next (onDev (fun d => d.release p n) s)

/-! ### The end of a transmission (R126) -/

/-- Frame end: TXDONE, ramp-down starts. -/
def Dev.txFrameEnd (d : Dev) (p : PortId) (n : SlotId) : Dev :=
  match d.stake p n with
  | none => d
  | some k =>
    if k.action = 1 ∧ k.state = .active ∧ (d.ports[p]).tx.alive n then
      let d := d.until_ (k.firedAt + k.onAir)
      (d.countTx p .txdone).modTx p fun t => { t with rampDown := some d.now }
    else d

/-- TX_FRAME_END (R126). -/
def execTxFrameEnd (p : PortId) (n : SlotId) (s : State) : Host.Outcome State Fault Refusal :=
  .next (onDev (fun d => d.txFrameEnd p n) s)

/-- Frame end + RAMP: the transmitter goes off; switch and lines return; the return hop starts if one is due. RAMP is that
of the stake, even where the stake has been stood down meanwhile.
(Log entry 84 DESIGN CHOICE.) -/
def Dev.txOff (d : Dev) (p : PortId) (n : SlotId) : Dev :=
  let t := (d.ports[p]).tx
  match t.interval, t.rampDown with
  | some m, some x =>
    if m ≠ n ∨ t.endAt.isSome then d
    else
      let d := d.until_ (x + us t.rampUs)
      let d := (d.releaseBuffer p n).modTx p fun t =>
        { t.stopClock d.now with rampDown := none, toTx := false, mari := false }
      (d.femIdle p).returnHop p
  | _, _ => d

/-- TX_OFF (R126). -/
def execTxOff (p : PortId) (n : SlotId) (s : State) : Host.Outcome State Fault Refusal :=
  .next (onDev (fun d => d.txOff p n) s)

/-- The transmission interval ends, at the end of the return hop if there is one. -/
def Dev.txIntervalEnd (d : Dev) (p : PortId) (n : SlotId) : Dev :=
  let x := d.ports[p]
  match x.tx.endAt with
  | some e =>
    if x.tx.interval = some n ∧ (!x.tx.retHop ∨ x.syn.hop.isNone) then ((d.until_ e).endTxInterval p).serveCal (regionOfPort p) else d
  | none => d

/-- TX_INTERVAL_END (R126). -/
def execTxIntervalEnd (p : PortId) (n : SlotId) (s : State) : Host.Outcome State Fault Refusal :=
  .next (onDev (fun d => d.txIntervalEnd p n) s)

/-- The end of a receive window on an entry (R201): the port hops back, frames not ended are aborted. -/
def Dev.rxwinEnd (d : Dev) (p : PortId) (n : SlotId) : Dev :=
  match d.stake p n with
  | none => d
  | some k =>
    if k.action = 2 ∧ k.winsel ∧ k.state = .active ∧ k.checked then
      let d := d.until_ (k.firedAt + us (fld k.param 0 22))
      ((d.setStake p n (some { k with checked := false })).retuneRx p).hop p (d.ports[p]).rx.rxfreq
    else d

/-- RXWIN_END (R201). -/
def execRxwinEnd (p : PortId) (n : SlotId) (s : State) : Host.Outcome State Fault Refusal :=
  .next (onDev (fun d => d.rxwinEnd p n) s)

/-- Nothing of an ACTIVE stake's action is still to come.
(Log entry 45 DEDUCED.) -/
def Dev.actionOver (d : Dev) (p : PortId) (n : SlotId) (k : Stake) : Bool :=
  let x := d.ports[p]
  match k.action with
  | 1 => x.tx.interval ≠ some n
  | 2 => !(k.winsel && k.checked)
  | 5 => x.cal.step.isNone && k.fill = [] && !(bit k.param 0 && x.syn.hop.isSome)
  | _ => true

/-- The end of an ACTIVE stake's interval: FREE. A port that was asked to sleep sleeps now (R204). -/
def Dev.intervalEnd (d : Dev) (p : PortId) (n : SlotId) : Dev :=
  match d.stake p n with
  | none => d
  | some k =>
    if k.state = .active ∧ d.actionOver p n k then
      let d := (d.until_ (k.firedAt + k.span)).setStake p n none
      let d := if k.action = 5 ∧ bit k.param 0 then d.femIdle p else d
      (if d.portAsleep p then d.portSleep p else d).serveCal (regionOfPort p)
    else d

/-- STAKE_INTERVAL_END (R199). -/
def execStakeIntervalEnd (p : PortId) (n : SlotId) (s : State) : Host.Outcome State Fault Refusal :=
  .next (onDev (fun d => d.intervalEnd p n) s)

/-! ### Hops (R118, R127, R468) -/

/-- The ACTIVE stake of the FILL form, if one is. -/
def SlotBook.filling (b : SlotBook) : Option (SlotId × Stake) :=
  b.used.find? fun x => x.2.state = .active && x.2.action = 5 && bit x.2.param 0

/-- A hop sets LOCK; a FILL stake goes on (R120). -/
def Dev.hopLock (d : Dev) (p : PortId) : Dev :=
  match (d.ports[p]).syn.hop with
  | none => d
  | some h =>
    let d := (d.until_ h.endAt).lockNow p h
    let d := match (d.ports[p]).sb.filling with
      | some (n, k) => if h.kind = HopKind.full ∧ h.entry.isSome then d.fillNext p n k else d
      | none => d
    d.serveCal (regionOfPort p)

/-- HOP_LOCK (R118).
(Log entry 2 DESIGN CHOICE.) -/
def execHopLock (p : PortId) (s : State) : Host.Outcome State Fault Refusal :=
  .next (onDev (fun d => d.hopLock p) s)

/-- A hop has not locked within twice its settle time (R468): a failure is charged, and a full calibration at the same
target starts, which is no relock on wake. -/
def Dev.hopFail (d : Dev) (p : PortId) : Dev :=
  match (d.ports[p]).syn.hop with
  | none => d
  | some h =>
    let d := d.until_ (h.startAt + 2 * us h.kind.settle)
    let d := d.modSyn p fun s =>
      { s with unlock := true
               bm := match h.kind, h.entry with
                 | .table, some e => s.bm.set e { s.bm[e] with valid := false }
                 | _, _ => s.bm }
    let d := (d.advanceEpoch p false).charge (.unit (.port p)) 10
    if (d.ports[p]).rx.retired then d
    else
      let q := (d.ports[p]).syn.queued
      let e := match h.kind with | .full => h.entry | .table => none
      (((d.beginHop p h.target (.full, e) false)).modSyn p fun s => { s with queued := q }).serveCal (regionOfPort p)

/-- HOP_FAIL (R468). -/
def execHopFail (p : PortId) (s : State) : Host.Outcome State Fault Refusal :=
  .next (onDevW (fun d => d.hopFail p) s)

/-- The stake whose frame a loss of lock would cut: its lock check has passed, its frame has not ended. -/
def Dev.cuttable (d : Dev) (p : PortId) : Option (SlotId × Stake) :=
  match (d.ports[p]).tx.interval with
  | none => none
  | some n =>
    match d.stake p n with
    | some k => if k.checked ∧ (d.ports[p]).tx.alive n then some (n, k) else none
    | none => none

/-- A frame that a loss of lock cuts (R127).
(Log entry 45 DEDUCED.) -/
def Dev.cutFrame (d : Dev) (p : PortId) : Dev :=
  match d.cuttable p with
  | some _ => ((d.modTx p fun t => { t with cut := true }).countTx p .txcut).abandonTx p
  | none => d

/-- A relock, unless a hop is under way or the datum runs on holdover (R183). -/
def Dev.relockNow (d : Dev) (p : PortId) : Dev :=
  if (d.ports[p]).syn.hop.isNone && !d.datum.holdover then d.relock p false else d

/-- Lock is lost (R127): a frame before its end is cut; the synthesizer relocks, but not without REFIN (R183). -/
def Dev.lockLost (d : Dev) (p : PortId) : Dev :=
  if !(d.ports[p]).syn.lock then d
  else
    let d := (d.loseLock p).hopRx p
    ((d.cutFrame p).relockNow p).serveCal (regionOfPort p)

/-- LOCK_LOST (R127). -/
def execLockLost (p : PortId) (s : State) : Host.Outcome State Fault Refusal :=
  .next (onDev (fun d => d.lockLost p) s)

/-! ### The tuner (R132, R133) -/

/-- The state one trial away (R132): trials 0 to 5 of the cycle; none beyond a bank's range. -/
def trialOf (w : Word) (i : Nat) : Option Word :=
  let lo := if i / 2 = 0 then 0 else if i / 2 = 1 then 5 else 9
  let len := if i / 2 = 1 then 4 else 5
  let v := fld w lo len
  if i % 2 = 0 then (if v + 1 < 2 ^ len then some (setFld w lo len (v + 1)) else none)
  else if 0 < v then some (setFld w lo len (v - 1)) else none

/-- RESUME (R133): the loop goes on from the state in effect, which becomes BEST; its return loss is known if it was
measured in that state. -/
def Tuner.resume (t : Tuner) : Tuner :=
  { t with frozen := false, best := if t.rlTune = some t.tune then t.rl else 0, bestTune := t.tune, next := none
           trial := false }

/-- The loop takes its next trial, for the next transmission interval.
(Log entry 46 DEDUCED.) -/
def Tuner.tryNext (t : Tuner) : Tuner :=
  match ((List.range 6).map fun j => (t.cycle + j) % 6).find? fun i => (trialOf t.tune i).isSome with
  | some i => { t with next := trialOf t.tune i, trial := true, cycle := (i + 1) % 6 }
  | none => t

/-- What the loop does with a return loss (R132), in steps of 0.5 dB.
(Log entry 46 DEDUCED.) -/
def Tuner.measure (t : Tuner) (rl : Nat) : Tuner :=
  let t := { t with rl, rlTune := some t.tune, valid := true, measured := true, mismatch := t.mismatch || rl < fld t.ctl 8 6 }
  let goal := fld t.ctl 16 6
  if t.frozen then (if rl < goal then { t with held := true } else t)
  else if t.trial ∧ t.next = none then
    if t.best + 1 ≤ rl then
      let t := { t with best := rl, bestTune := t.tune, trial := false }
      if rl < goal then t.tryNext else t
    else { t with next := some t.bestTune, trial := false }
  else
    let t := { t with best := if t.bestTune = t.tune then max t.best rl else rl, bestTune := t.tune }
    if rl < goal ∧ t.next = none then t.tryNext else t

/-- Return loss is measured 64 µs after full power; a mismatch fires the port's producer (R376). -/
def Dev.tunerMeasured (d : Dev) (p : PortId) (rl : Nat) : Dev :=
  let x := d.ports[p]
  match x.tx.interval.bind fun n => d.stake p n with
  | some k =>
    if k.state = .active ∧ x.tx.onSince.isSome ∧ x.tx.rampDown = none ∧ !x.tun.measured then
      let d := d.until_ (k.firedAt + us 64)
      let rl := min 63 rl
      let d := d.modTun p fun t => t.measure rl
      if rl < fld x.tun.ctl 8 6 ∧ d.portAwake p then d.fire [⟨0x48 + p.val, 0⟩] else d
    else d
  | none => d

/-- TUNER_RL_MEASURED (R132). -/
def execTunerRlMeasured (p : PortId) (rl : Nat) (s : State) : Host.Outcome State Fault Refusal :=
  .next (onDev (fun d => d.tunerMeasured p rl) s)

/-! ### Calibration (R136, R137) -/

/-- A step of a calibration ends at a time after its start, in µs; the next step begins. -/
def Dev.calStep (d : Dev) (p : PortId) (at_ : CalStep) (t : Nat) (next : Option CalStep) (f : Dev → Dev) : Dev :=
  let c := (d.ports[p]).cal
  if c.step = some at_ then f ((d.until_ (c.startAt + us t)).modCal p fun c => { c with step := next }) else d

/-- CAL_NOISE_COLD_END (R136): the power measured enters only NF, which comes with the hot measurement. -/
def execCalNoiseColdEnd (p : PortId) (_power : Int) (s : State) : Host.Outcome State Fault Refusal :=
  .next (onDev (fun d => d.calStep p .cold 2020 (some .hot) id) s)

/-- CAL_NOISE_HOT_END (R109, R110, R136): NF, and NF_OVER above NFTHRESH. -/
def execCalNoiseHotEnd (p : PortId) (nf : Nat) (s : State) : Host.Outcome State Fault Refusal :=
  .next (onDev (fun d => d.calStep p .hot 4020 (some .loop) fun d => d.modGauge p fun g =>
    { g with nf := BitVec.ofNat 16 nf, nfOver := g.nfOver || decide (fld g.ctl 16 8 < nf) }) s)

/-- CAL_TONE_START (R136). -/
def execCalToneStart (p : PortId) (s : State) : Host.Outcome State Fault Refusal :=
  .next (onDev (fun d => d.calStep p .loop 4040 (some .tone) id) s)

/-- CAL_TONE_END (R135, R136): CALPH and CALGAIN; the lines return, at the start of the last 20 µs.
(Log entry 84 DESIGN CHOICE.) -/
def execCalToneEnd (p : PortId) (calph calgain : BitVec 8) (s : State) : Host.Outcome State Fault Refusal :=
  .next (onDev (fun d => d.calStep p .tone 5040 (some .ending) fun d =>
    (d.modCal p fun c => { c with calph, calgain }).femIdle p) s)

/-- CAL_COMPLETE (R136, R137): CALVALID sets and receive resumes. -/
def execCalComplete (p : PortId) (s : State) : Host.Outcome State Fault Refusal :=
  .next (onDev (fun d => d.calStep p .ending 5060 none fun d =>
    d.modCal p fun c => { c with calvalid := true, tcal := c.tnow, wanted := false, blocked := false }) s)

/-- The port's temperature is t (R137): CALVALID clears more than 8 °C from TCAL. -/
def Dev.tempDrift (d : Dev) (p : PortId) (t : Int) : Dev :=
  let d := d.modCal p fun c => { c with tnow := t }
  let c := (d.ports[p]).cal
  if 8 < t - c.tcal ∨ 8 < c.tcal - t then (d.clearCal p).serveCal (regionOfPort p) else d

/-- CAL_TEMP_DRIFT (R137). -/
def execCalTempDrift (p : PortId) (t : Int) (s : State) : Host.Outcome State Fault Refusal :=
  .next (onDev (fun d => d.tempDrift p t) s)

/-! ### Registers (R142, R143, R208) -/

/-- A word from a signed temperature. -/
def i8 (t : Int) : Nat := sN 8 t

/-- PORT_SYNSTAT (R142). -/
def Port.synstat (x : Port) : Word :=
  let s := x.syn
  let e := s.findEntry fun b => b.freq = s.freq
  pack [(0, b2n s.lock), (1, b2n s.hop.isSome), (2, s.lasthop), (4, b2n s.unlock), (5, b2n s.noentry), (6, b2n s.bmfull),
        (8, match e with | some e => e.val | none => 0), (14, b2n e.isSome), (16, s.epoch.toNat)]

/-- Transmit-side registers: the word at an offset of 0x8000 to 0xBFFF. -/
def Dev.txRead (d : Dev) (p : PortId) (o : Nat) : Option Word :=
  let x := d.ports[p]
  if 0x8100 ≤ o ∧ o < 0x8300 then
    let b := x.syn.bm[Fin.ofNat 64 ((o - 0x8100) / 8)]
    if o % 8 = 0 then some (BitVec.ofNat 32 b.freq)
    else some (pack [(0, b2n b.valid), (1, b2n b.pin), (8, i8 b.temp)])
  else if 0x8440 ≤ o ∧ o < 0x8454 then some (x.tx.cnt[Fin.ofNat 5 ((o - 0x8440) / 4)])
  else match o with
    | 0x8000 => some x.syn.ctl
    | 0x8004 => some x.synstat
    | 0x8008 => some (lo32 x.syn.epochT)
    | 0x800C => some (hi32 x.syn.epochT)
    | 0x8010 => some 0
    | 0x8400 => some x.tx.ctl
    | 0x8404 => some (x.tx.pwr.setWidth 32)
    | 0x8408 => some x.tx.femctl
    | 0x840C => some (pack [(0, b2n x.tx.interval.isSome), (1, b2n x.tx.onSince.isSome), (2, b2n x.tx.mari)])
    | 0x8410 => some (pack [(0, b2n x.tx.pwrBad), (1, b2n x.tx.cut)])
    | 0x8414 => some 0
    | 0x8458 => some (lo32 (x.tx.airtime d.now))
    | 0x845C => some (hi32 (x.tx.airtime d.now))
    | 0x8800 => some x.tun.tune
    | 0x8804 => some (x.tun.ctl ||| pack [(0, b2n x.tun.frozen), (2, b2n x.tun.held), (3, b2n x.tun.mismatch)])
    | 0x8808 => some (pack [(0, x.tun.rl), (8, x.tun.best), (16, b2n x.tun.valid)])
    | 0x8C00 => some (pack [(1, b2n x.cal.auto), (2, b2n x.cal.busy), (3, b2n x.cal.calvalid), (8, i8 x.cal.tnow), (16, i8 x.cal.tcal)])
    | 0x8C04 => some (pack [(0, x.cal.calph.toNat), (8, x.cal.calgain.toNat)])
    | 0x8C08 => some (lo32 x.cal.calT)
    | 0x8C0C => some (hi32 x.cal.calT)
    | 0x8C10 => some x.cal.mari
    | _ => none

/-- A write of a benchmark entry (R120, R142). -/
def Dev.bmWrite (d : Dev) (p : PortId) (o : Nat) (v : Word) : Dev :=
  let e : Fin 64 := Fin.ofNat 64 ((o - 0x8100) / 8)
  d.modSyn p fun s =>
    { s with bm := s.bm.set e (if o % 8 = 0 then { s.bm[e] with freq := fld v 0 30, valid := false }
                               else { s.bm[e] with pin := bit v 1 }) }

/-- A write of PORT_TXPWR (R130): outside −20 to +28 it is ignored and sets PWR_BAD. -/
def Tx.writePwr (t : Tx) (v : Word) : Tx :=
  let b : BitVec 8 := v.setWidth 8
  if -20 ≤ b.toInt ∧ b.toInt ≤ 28 then { t with pwr := b } else { t with pwrBad := true }

/-- Writes of the transmit-side registers. -/
def Dev.txWrite (d : Dev) (p : PortId) (o : Nat) (v : Word) : Dev :=
  if 0x8100 ≤ o ∧ o < 0x8300 then d.bmWrite p o v
  else match o with
    | 0x8000 => d.modSyn p fun s => { s with ctl := v &&& 0x00001F03 }
    | 0x8004 => d.modSyn p fun s =>
        { s with unlock := s.unlock && !bit v 4, noentry := s.noentry && !bit v 5, bmfull := s.bmfull && !bit v 6 }
    | 0x8010 =>
      let d := if bit v 1 then d.modSyn p fun s => { s with bm := vmap s.bm fun b => { b with valid := false } } else d
      if bit v 0 then d.bmFill p else d
    | 0x8400 => d.modTx p fun t => { t with ctl := v &&& 0x000F3F01 }
    | 0x8404 => d.modTx p fun t => t.writePwr v
    | 0x8408 => d.modTx p fun t => { t with femctl := v &&& 0xFF }
    | 0x8410 => d.modTx p fun t => { t with pwrBad := t.pwrBad && !bit v 0, cut := t.cut && !bit v 1 }
    | 0x8414 => if bit v 0 then d.modTx p fun t => { t with cnt := Vector.replicate 5 0, txtime := 0, onSince := t.onSince.map fun _ => d.now } else d
    | 0x8800 =>
      let d := d.modTun p fun t => { t with frozen := true, next := none, trial := false }
      d.applyTune p (v &&& 0x3FFF)
    | 0x8804 => d.modTun p fun t =>
        let t := { t with ctl := v &&& 0x003F3F00, held := t.held && !bit v 2, mismatch := t.mismatch && !bit v 3 }
        if bit v 1 then t.resume else t
    | 0x8C00 =>
      let d := d.modCal p fun c => { c with auto := bit v 1 }
      if bit v 0 then d.calRunNow p else d
    | 0x8C10 => d.modCal p fun c => { c with mari := v &&& 0xFF01 }
    | _ => d

/-- STATE of an entry (R199). -/
def StakeState.code : StakeState → Nat
  | .booked => 1 | .ready => 2 | .armed => 3 | .active => 4

/-- Word j of a stake's entry (R208). -/
def Stake.word (k : Stake) (j : Nat) : Word :=
  match j with
  | 0 => BitVec.ofNat 32 (datum48 k.release % 2 ^ 32)
  | 1 => pack [(0, datum48 k.release / 2 ^ 32), (16, k.action), (20, b2n k.winsel), (21, k.entry.val)]
  | 2 => k.w2
  | 3 => k.param
  | 4 => k.tag
  | 5 => pack [(0, k.state.code), (4, k.origin), (7, b2n (originRelative k.origin)), (16, k.prep)]
  | 6 => BitVec.ofNat 32 (datum48 k.deadline % 2 ^ 32)
  | _ => BitVec.ofNat 32 (datum48 k.deadline / 2 ^ 32)

/-- Slot-book registers: the word at an offset of 0xC000 to 0xFFFF. -/
def Dev.sbRead (d : Dev) (p : PortId) (o : Nat) : Option Word :=
  let b := (d.ports[p]).sb
  if o < 0xE000 then
    match b.stakes[Fin.ofNat 256 ((o - 0xC000) / 32)] with
    | some k => some (k.word (o % 32 / 4))
    | none => some 0
  else if 0xF000 ≤ o ∧ o < 0xF014 then some (b.new[Fin.ofNat 5 ((o - 0xF000) / 4)])
  else if 0xF040 ≤ o ∧ o < 0xF058 then some (b.cnt[Fin.ofNat 6 ((o - 0xF040) / 4)])
  else match o with
    | 0xF014 => some (pack [(0, b.cmdSlot), (8, b.cmdOp), (11, b2n b.earliest), (16, b.result)])
    | 0xF018 => some b.ctl
    | 0xF01C => some (pack [(0, b.used.length), (9, b2n d.datum.unsynced), (10, b2n b.txLate), (11, b2n b.late)])
    | _ => none

/-- The bits of a NEW word that the layout uses. -/
def newMask (j : Nat) : Word := match j with | 1 => 0x07F7FFFF | 2 => 0x3F3F3FFF | _ => 0xFFFFFFFF

/-- Writes of the slot-book registers. -/
def Dev.sbWrite (d : Dev) (p : PortId) (o : Nat) (v : Word) : Dev :=
  if 0xF000 ≤ o ∧ o < 0xF014 then
    let j := (o - 0xF000) / 4
    d.modSb p fun b => { b with new := b.new.set (Fin.ofNat 5 j) (v &&& newMask j) }
  else match o with
    | 0xF014 => d.sbCmd p v
    | 0xF018 => d.modSb p fun b => { b with ctl := v &&& 0xFFFF003F }
    | 0xF01C => d.modSb p fun b => { b with txLate := b.txLate && !bit v 10, late := b.late && !bit v 11 }
    | _ => d

end Sys2Proof.Machine
end

