-- ==== Sys2Proof/Machine/DatumOps.lean ====
section
/-! DEFINITION. The datum (R182 to R193, R207): REFIN, rate trim, PPS capture and lock, phase steps, its registers. -/

namespace Sys2Proof.Machine

/-- All ports in rising order. -/
def allPorts : List PortId := List.finRange 24

/-- The synthesizer of one port loses lock (R127, R183, R186); its epoch advances once. -/
def Dev.unlockPort (d : Dev) (p : PortId) : Dev :=
  let s := (d.ports[p]).syn
  if (d.ports[p]).rx.retired then d
  else if s.lock || s.hop.isSome then ((d.loseLock p).hopRx p).cutFrame p
  else d.advanceEpoch p false

/-- REFIN is lost (R183, R193).
(Log entry 54 DEDUCED.) -/
def Dev.loseRef (d : Dev) : Dev :=
  if d.datum.holdover then d
  else
    let d := { d with datum := { d.datum with refLost := true, holdover := true, seeded := false, reff := 0 } }
    ((allPorts.foldl (fun d p => d.unlockPort p) d).setUnsynced true).serveCals

/-- A port relocks after the return of REFIN; its epoch advances (R122, R183). -/
def Dev.returnPort (d : Dev) (p : PortId) : Dev :=
  if (d.ports[p]).rx.retired then d
  else
    let d := d.advanceEpoch p false
    if (d.ports[p]).syn.lock || (d.ports[p]).syn.hop.isSome then d else d.relock p false

/-- A measurement window of REFIN ends (R183). The first valid one after a wake ends the holdover of R414; nothing had been
lost, so no synthesizer relocks for it.
(Log entry 55 DESIGN CHOICE.) -/
def Dev.refWindow (d : Dev) (m : RefMeasure) : Dev :=
  match m with
  | .invalid => d.loseRef
  | .valid f =>
    let back := d.datum.holdover
    let d := { d with datum := { d.datum with reff := f.val, holdover := false, seeded := false } }
    if back then (allPorts.foldl (fun d p => d.returnPort p) d).serveCals else d

/-- REFIN_WINDOW_END (R183). -/
def execRefinWindowEnd (m : RefMeasure) (s : State) : Host.Outcome State Fault Refusal :=
  .next (onDev (fun d => d.refWindow m) s)

/-- REFIN_EDGE_LOSS (R183). -/
def execRefinEdgeLoss (s : State) : Host.Outcome State Fault Refusal := .next (onDev Dev.loseRef s)

/-! ### PPS (R187, R188, R193) -/

/-- LOCKWIN. -/
def Pps.lockwin (p : Pps) : Int := fld p.ctl 8 8

/-- PPSERR of a PPS_T (R187). -/
def ppsErr (t : Word64) : Int := ((t.toNat + 100000000) % 200000000 : Nat) - 100000000

/-- The counts of consecutive edges inside and outside LOCKWIN, and PPSLOCK (R188). -/
def Datum.judgeLock (x : Datum) (err : Int) : Datum :=
  let ok := -x.pps.lockwin ≤ err ∧ err ≤ x.pps.lockwin
  let p := { x.pps with good := if ok then x.pps.good + 1 else 0, bad := if ok then 0 else x.pps.bad + 1 }
  { x with pps := p, ppslock := if 4 ≤ p.good then true else if 2 ≤ p.bad then false else x.ppslock }

/-- An edge is accepted: PPS_T and PPSERR, in the new scale when it applies a step (R187, R190). -/
def Dev.acceptPps (d : Dev) : Dev :=
  let t := d.datum.now - d.datum.pps.dly.signExtend 64
  let d := { d with datum := { d.datum with pps :=
    { d.datum.pps with lastEdge := some d.now, lostAt := none, lostLong := false } } }
  let x := match d.datum.pend with
    | some st => if d.datum.stepAtPps then (d.applyStep st, t + st) else (d, t)
    | none => (d, t)
  let d := x.1
  let err := ppsErr x.2
  let was := d.datum.ppslock
  let d := { d with datum := { d.datum with pps := { d.datum.pps with t := x.2, err } }.judgeLock err }
  let d := if d.datum.ppslock && !was then d.setUnsynced false else d
  d.fire [⟨0x40, 0⟩]

/-- An edge of PPS_IN (R187).
(Log entry 54 DEDUCED.) -/
def Dev.ppsEdge (d : Dev) (falling : Bool) : Dev :=
  let p := d.datum.pps
  if !bit p.ctl 0 || bit p.ctl 1 != falling || !d.datumCounts then d
  else
    let ok := match p.lastEdge with
      | none => true
      | some e => 199800000 ≤ d.now - e && d.now - e ≤ 200200000
    if ok then d.acceptPps else { d with datum := { d.datum with ppsGlitch := true } }

/-- PPS_EDGE (R187). -/
def execPpsEdge (falling : Bool) (s : State) : Host.Outcome State Fault Refusal :=
  .next (onDev (fun d => d.ppsEdge falling) s)

/-- The elapsed tick from which PPS_LOST counts: the later of the last accepted edge and the last write that set EN.
(Log entry 54 DEDUCED.) -/
def Pps.countFrom (p : Pps) : Option Nat :=
  match p.lastEdge, p.since with
  | some a, some b => some (max a b)
  | some a, none => some a
  | none, b => b

/-- 220 000 000 ticks pass with no accepted edge (R188). -/
def Dev.losePps (d : Dev) : Dev :=
  match d.datum.pps.countFrom with
  | none => d
  | some t =>
    if !bit d.datum.pps.ctl 0 then d
    else
      let d := d.until_ (t + 220000000)
      { d with datum := { d.datum with ppsLost := true, ppslock := false, pps :=
          { d.datum.pps with good := 0, bad := 0, lastEdge := none, since := none, lostAt := some d.now, lostLong := false } } }

/-- PPS_LOST (R188). -/
def execPpsLost (s : State) : Host.Outcome State Fault Refusal := .next (onDev Dev.losePps s)

/-- A loss of PPS has lasted HOLDOVER seconds (R193). -/
def Dev.ppsHoldoverEnd (d : Dev) : Dev :=
  let p := d.datum.pps
  match p.lostAt with
  | none => d
  | some t =>
    if fld p.ctl 16 16 = 0 ∨ p.lostLong then d
    else
      let d := d.until_ (t + fld p.ctl 16 16 * secTicks)
      ({ d with datum := { d.datum with pps := { d.datum.pps with lostLong := true } } }).setUnsynced true

/-- PPS_HOLDOVER_EXPIRED (R193). -/
def execPpsHoldoverExpired (s : State) : Host.Outcome State Fault Refusal := .next (onDev Dev.ppsHoldoverEnd s)

/-! ### Registers (R184, R186, R190, R207) -/

/-- A port that stands without lock relocks. -/
def Dev.relockUnlocked (d : Dev) (p : PortId) : Dev :=
  if (d.ports[p]).rx.retired || (d.ports[p]).syn.lock || (d.ports[p]).syn.hop.isSome then d else d.relock p false

/-- A write of DATUM_TRIM (R186).
(Log entry 54 DEDUCED.) -/
def Dev.writeTrim (d : Dev) (v : Word) : Dev :=
  let t := v.toInt
  if t < -100000 ∨ 100000 < t then { d with datum := { d.datum with trimBad := true } }
  else
    let jump := t - d.datum.trim
    let d := { d with datum := { d.datum with trim := t } }
    if !d.datum.onHoldover && (decide (1000 < jump) || decide (jump < -1000)) then
      (allPorts.foldl (fun d p => (d.unlockPort p).relockUnlocked p) d).serveCals
    else d

/-- A write of DATUM_CTL (R190, R193). -/
def Dev.writeDatumCtl (d : Dev) (v : Word) : Dev :=
  let d := { d with datum := { d.datum with stepAtPps := bit v 2 } }
  let d := if bit v 0 then d.setUnsynced false else d
  let d := if bit v 1 ∧ d.datum.pend.isNone then { d with datum := { d.datum with pend := some d.datum.step } } else d
  match d.datum.pend with
  | some st => if d.datum.stepAtPps then d else d.applyStep st
  | none => d

/-- A write of DATUM_PPSCTL (R187, R188, R193). -/
def Dev.writePpsctl (d : Dev) (v : Word) : Dev :=
  let p := d.datum.pps
  let en := bit v 0
  let fresh := en && (!bit p.ctl 0 || bit p.ctl 1 != bit v 1)
  let p := { p with ctl := v &&& 0xFFFFFF03 }
  let p := if fresh then { p with lastEdge := none, since := some d.now, good := 0, bad := 0 }
           else if en then p
           else { p with lastEdge := none, since := none, good := 0, bad := 0, lostAt := none, lostLong := false }
  { d with datum := { d.datum with pps := p, ppslock := d.datum.ppslock && en } }

/-- DATUM_STAT (R207). -/
def Datum.stat (x : Datum) : Word :=
  pack [(0, b2n x.unsynced), (1, b2n x.ppslock), (2, b2n x.ppsLost), (3, b2n x.refLost), (4, b2n x.onHoldover),
        (5, b2n x.pend.isSome), (6, b2n x.trimBad), (7, b2n x.ppsGlitch), (8, x.reff), (16, x.steps.toNat)]

/-- The datum registers as initiator i reads them: offsets 0x8000 to 0x80FF of the timer page. -/
def Dev.datumRead (d : Dev) (i : Initiator) (o : Nat) : Option Word :=
  let x := d.datum
  match o with
  | 0x8000 => some (lo32 x.now)
  | 0x8004 => some (hi32 (d.latch[i]).datum)
  | 0x8008 => some (pack [(2, b2n x.stepAtPps)])
  | 0x800C => some x.stat
  | 0x8010 => some (BitVec.ofInt 32 x.trim)
  | 0x8018 => some (lo32 x.step)
  | 0x801C => some (hi32 x.step)
  | 0x8020 => some (lo32 x.stepT)
  | 0x8024 => some (hi32 x.stepT)
  | 0x8028 => some (lo32 x.pps.t)
  | 0x802C => some (hi32 x.pps.t)
  | 0x8030 => some (BitVec.ofInt 32 x.pps.err)
  | 0x8034 => some x.pps.ctl
  | 0x8038 => some (x.pps.dly.setWidth 32)
  | _ => none

/-- What a read does: DATUM_NOW_LO fills the reader's latch (R184). -/
def Dev.datumReadEffect (d : Dev) (i : Initiator) (o : Nat) : Dev :=
  if o = 0x8000 then d.modLatch i fun l => { l with datum := d.datum.now } else d

/-- Writes of the datum registers. -/
def Dev.datumWrite (d : Dev) (o : Nat) (v : Word) : Dev :=
  let x := d.datum
  match o with
  | 0x8008 => d.writeDatumCtl v
  | 0x800C => { d with datum := { x with ppsLost := x.ppsLost && !bit v 2, refLost := x.refLost && !bit v 3
                                         trimBad := x.trimBad && !bit v 6, ppsGlitch := x.ppsGlitch && !bit v 7 } }
  | 0x8010 => d.writeTrim v
  | 0x8018 => { d with datum := { x with step := join64 (hi32 x.step) v } }
  | 0x801C => { d with datum := { x with step := join64 v (lo32 x.step) } }
  | 0x8034 => d.writePpsctl v
  | 0x8038 => { d with datum := { x with pps := { x.pps with dly := v.setWidth 16 } } }
  | _ => d

end Sys2Proof.Machine
end

