-- ==== Sys2Proof/Machine/Hss.lean ====
section
/-! DEFINITION. LMS and HSS signing (RFC 8554) as the attestation engine does it (R226, R227): key generation from the
attestation seed, LMOTS and LMS signatures, the two-level HSS key. How the seed gives the secret elements, the
identifiers and the randomizers the spec leaves open (log entry 11); all the rest follows from them. These definitions say
what the bytes are; they are far too long to evaluate. -/

namespace Sys2Proof.Machine

/-- A tree of the attestation key: its number (0 the top one, 1 + t the lower tree t), its height, its LMS type code. -/
structure HssTree where
  no : Nat
  height : Nat
  typ : Nat

/-- The top-level tree: LMS_SHA256_M32_H15. -/
def topTree : HssTree := { no := 0, height := 15, typ := 7 }

/-- Lower tree t: LMS_SHA256_M32_H10. -/
def lowTree (t : Nat) : HssTree := { no := 1 + t, height := 10, typ := 6 }

/-- The 16-byte identifier I of a tree.
(Log entry 11 UNVERIFIED.) -/
def HssTree.id (seed : List Byte) (t : HssTree) : List Byte := padTo 16 (Config.hssId seed t.no)

/-- Element i of the LMOTS private key of a leaf.
(Log entry 11 UNVERIFIED.) -/
def HssTree.secret (seed : List Byte) (t : HssTree) (leaf i : Nat) : List Byte := padTo 32 (Config.hssSecret seed t.no leaf i)

/-- I and the leaf number, which every hash of a leaf begins with. -/
def HssTree.leafPre (seed : List Byte) (t : HssTree) (leaf : Nat) : List Byte := t.id seed ++ natBytesBE 4 leaf

/-- The LMOTS public key of a leaf (RFC 8554 Algorithm 1). -/
def HssTree.otsPub (seed : List Byte) (t : HssTree) (leaf : Nat) : List Byte :=
  let pre := t.leafPre seed leaf
  sha256 (pre ++ [0x80#8, 0x80#8] ++
    ((List.range 67).map fun i => otsChain (pre ++ natBytesBE 2 i) 15 0 (t.secret seed leaf i)).flatten)

/-- The node r of a tree that lies n levels above the leaves. -/
def HssTree.node (seed : List Byte) (t : HssTree) : Nat → Nat → List Byte
  | 0, r => sha256 (t.id seed ++ natBytesBE 4 r ++ [0x82#8, 0x82#8] ++ t.otsPub seed (r - 2 ^ t.height))
  | n + 1, r =>
    sha256 (t.id seed ++ natBytesBE 4 r ++ [0x83#8, 0x83#8] ++ HssTree.node seed t n (2 * r) ++ HssTree.node seed t n (2 * r + 1))

/-- The LMS public key of a tree: its type codes, I, T[1]; 56 bytes. -/
def HssTree.pub (seed : List Byte) (t : HssTree) : List Byte :=
  natBytesBE 4 t.typ ++ natBytesBE 4 3 ++ t.id seed ++ t.node seed t.height 1

/-- The LMOTS signature of a leaf over a message (RFC 8554 Algorithm 3): type, randomizer, 67 elements; 2180 bytes.
(Log entry 11 UNVERIFIED.) -/
def HssTree.otsSign (seed : List Byte) (t : HssTree) (leaf : Nat) (msg : List Byte) : List Byte :=
  let pre := t.leafPre seed leaf
  let c := padTo 32 (Config.hssRandom seed t.no leaf msg)
  let a := otsCoefs (sha256 (pre ++ [0x81#8, 0x81#8] ++ c ++ msg))
  natBytesBE 4 3 ++ c ++
    ((List.range 67).map fun i => otsChain (pre ++ natBytesBE 2 i) (a.getD i 0) 0 (t.secret seed leaf i)).flatten

/-- The LMS signature of a leaf over a message: leaf number, LMOTS signature, type, authentication path. -/
def HssTree.sign (seed : List Byte) (t : HssTree) (leaf : Nat) (msg : List Byte) : List Byte :=
  natBytesBE 4 leaf ++ t.otsSign seed leaf msg ++ natBytesBE 4 t.typ ++
    ((List.range t.height).map fun k =>
      let r := (2 ^ t.height + leaf) / 2 ^ k
      t.node seed k (if r % 2 = 0 then r + 1 else r - 1)).flatten

/-- The HSS public key that a seed gives: L = 2, then the top-level LMS key; 60 bytes (R226). -/
def hssPub (seed : List Byte) : List Byte := natBytesBE 4 2 ++ topTree.pub seed

/-- The HSS signature with index q (R226, R227): Nspk = 1, the top-level signature of leaf q div 1024 over the lower
public key, that key, the signature of lower leaf q mod 1024 over the message. -/
def hssSign (seed : List Byte) (q : Nat) (msg : List Byte) : List Byte :=
  let low := lowTree (q / 1024)
  natBytesBE 4 1 ++ topTree.sign seed (q / 1024) (low.pub seed) ++ low.pub seed ++ low.sign seed (q % 1024) msg

end Sys2Proof.Machine
end

