-- ==== Sys2Proof/Machine/Security.lean ====
section
/-! DEFINITION. The SHA-256 and LMS page (R219 to R239): hash operations, plain key operations, OTP, attestation, debug
tokens, SEC attention. -/

namespace Sys2Proof.Machine

/-! ### Public keys (R222, R224) -/

/-- The Skastad root key. -/
def rootPub : List Byte := (List.range 56).map Config.rootKey

/-- A customer key that is written and whose check holds. -/
def Otp.custKey (o : Otp) (i : Fin 2) : Option (List Byte) :=
  match o.cust[i] with | some (k, true) => some k | _ => none

/-- A customer key that is written, valid and not revoked. -/
def Otp.custGood (o : Otp) (i : Fin 2) : Bool := (o.custKey i).isSome && !o.rev[i]

/-- The root key, unless its check fails: then it is absent and revoked (R222). -/
def Otp.rootKey (o : Otp) : Option (List Byte) := if o.rootGood then some rootPub else none

/-- The key that KEYSEL names, neither absent nor revoked: 0 ROOT, 1 CUST0, 2 CUST1. -/
def Otp.usable (o : Otp) (sel : Nat) : Option (List Byte) :=
  match sel with
  | 0 => o.rootKey
  | 1 => if o.custGood 0 then o.custKey 0 else none
  | 2 => if o.custGood 1 then o.custKey 1 else none
  | _ => none

/-- The key that an image or a token names, where the table of R224 permits it. -/
def Otp.permitted (o : Otp) (sel : Nat) : Option (List Byte) :=
  if sel = 0 then (if o.provisioned ∧ !o.rootok then none else o.rootKey)
  else if o.provisioned then o.usable sel else none

/-! ### HASH (R225) -/

/-- The outcome of an operation, STATUS and digest, once its operands can be read; `none` while a flash bank holds the
read (R343). A read that ends with a bus error ends the operation with BADADDR.
(Log entries 57 DEDUCED, 82 DESIGN CHOICE.) -/
def Dev.hashRun (d : Dev) (ram : Memory) (j : HashJob) : Dev × Option (Nat × List Byte) :=
  if j.op = 2 ∧ j.keysel ≠ 3 ∧ (d.otp.usable j.keysel).isNone then (d, some (5, []))
  else
    match d.strRead ram j.src.toNat j.len with
    | (d, .held) => (d, none)
    | (d, .data msg) =>
      if j.op = 1 then (d, some (2, sha256 msg))
      else
        match d.strRead ram j.sig.toNat 2668 with
        | (d, .held) => (d, none)
        | (d, .data sg) =>
          if j.keysel = 3 then
            match d.strRead ram j.pub.toNat 56 with
            | (d, .held) => (d, none)
            | (d, .data k) => (d, some (if lmsVerify k sg msg then 2 else 3, []))
            | (d, _) => (d, some (4, []))
          else (d, some (if lmsVerify ((d.otp.usable j.keysel).getD []) sg msg then 2 else 3, []))
        | (d, _) => (d, some (4, []))
    | (d, _) => (d, some (4, []))

/-! ### Plain key operations (R219, R221) -/

/-- The operation ends: the KEY_LOAD words clear. -/
def Keys.ended (k : Keys) (status : Nat) : Keys := { k with status, load := Vector.replicate 8 0 }

/-- The slot write that KEY_CTL spells. -/
def Keys.asked (k : Keys) : Option KeyWrite :=
  let slot := fld k.ctl 0 13
  match fld k.ctl 17 2 with
  | 1 => some (.put { slot, key := (bytesOf32 k.load.toList).take (if bit k.ctl 13 then 32 else 16), role := fld k.ctl 14 2
                      export_ := bit k.ctl 16 })
  | 2 => some (.erase slot)
  | 3 => some .eraseAll
  | _ => none

/-- A write of KEY_CTL: ROLE 2 and 3 of a plain load are refused. -/
def Keys.command (k : Keys) (v : Word) : Keys :=
  let k := { k with ctl := v &&& 0x0007FFFF }
  if !bit v 19 ∨ k.status = 1 then k
  else match k.asked with
    | none => k
    | some w =>
      if fld k.ctl 17 2 = 1 ∧ 2 ≤ fld k.ctl 14 2 then k.ended 3
      else { k with status := 1, commits := k.commits ++ [(.keyPage, w)] }

/-- A commit ends (R219). Read back, the write takes effect and its operation is DONE; otherwise a plain operation ends
with STOREFAIL and a cipher channel's commit is tried again.
(Log entry 56 DEDUCED.) -/
def Dev.commitDone (d : Dev) (ok : Bool) : Dev :=
  match d.keys.commits with
  | [] => d
  | (who, w) :: l =>
    if ok then
      let d := { d with keys := { d.keys.apply w with commits := l } }
      match who with
      | .keyPage => { d with keys := d.keys.ended 2 }
      | .cipher r n => d.cipherEnd r n 2
    else match who with
      | .keyPage => { d with keys := { d.keys with commits := l }.ended 4 }
      | .cipher _ _ => d

/-- KEY_COMMIT_DONE (R219). -/
def execKeyCommitDone (ok : Bool) (s : State) : Host.Outcome State Fault Refusal :=
  .next (onDev (fun d => d.commitDone ok) s)

/-- KEY_INFO (R239). -/
def Keys.info (k : Keys) : Word :=
  let lost := b2n (k.lost.contains k.query)
  match k.slotOf k.query with
  | some s => pack [(0, if s.key.length = 32 then 2 else 1), (2, s.role), (4, b2n s.export_), (5, lost)]
  | none => pack [(5, lost)]

/-! ### OTP (R222, R223) -/

/-- The refusals of R223. -/
def Otp.denied (o : Otp) (op : Nat) (sel : Fin 2) : Bool :=
  match op with
  | 1 => o.cust[sel].isSome
  | 2 => (o.custKey sel).isNone || (o.provisioned && !o.rootok && !o.custGood (1 - sel))
  | _ => !o.provisioned || !(o.custGood 0 || o.custGood 1)

/-- The 56 bytes of a PROGKEY that runs are read (R223): where they cannot be read it ends FAILED; while a flash bank
holds the read, it waits (R343). -/
def Dev.otpTake (d : Dev) (ram : Memory) : Dev :=
  match d.otp.run, d.otp.taken with
  | some (1, _), none =>
    match d.strRead ram d.otp.src.toNat 56 with
    | (d, .data k) => { d with otp := { d.otp with taken := some k } }
    | (d, .held) => d
    | (d, _) => { d with otp := { d.otp with status := 4, run := none } }
  | _, _ => d

/-- A write of OTP_CTL (R223): OP and SEL take their values; GO starts the operation they name, but while one runs it is
ignored.
(Log entry 57 DEDUCED.) -/
def Dev.otpCommand (d : Dev) (ram : Memory) (v : Word) : Dev :=
  let o := { d.otp with op := fld v 0 2, sel := fld v 2 1 }
  let sel : Fin 2 := Fin.ofNat 2 o.sel
  if !bit v 3 ∨ o.run.isSome ∨ o.op = 0 then { d with otp := o }
  else if o.denied o.op sel then { d with otp := { o with status := 3 } }
  else Dev.otpTake { d with otp := { o with status := 1, run := some (o.op, sel), taken := none } } ram

/-- An OTP operation ends: read back right, or FAILED, which leaves a field that fails its check (R223).
(Log entry 57 DEDUCED.) -/
def Dev.otpEnd (d : Dev) (ram : Memory) (ok : Bool) : Dev :=
  let d := d.otpTake ram
  match d.otp.run, d.otp.taken with
  | none, _ => d
  | some (1, _), none => d
  | some (op, sel), t =>
    let o := { d.otp with run := none, taken := none, status := if ok then 2 else 4 }
    let o := match op with
      | 1 => { o with cust := o.cust.set sel (some (t.getD [], ok)), provisioned := o.provisioned || ok }
      | 2 => if ok then { o with rev := o.rev.set sel true } else o
      | _ => if ok then { o with rootok := false } else o
    let d := { d with otp := o }
    if ok then d.secCause 3 else d

/-- OTP_OPERATION_END (R223). -/
def execOtpOperationEnd (ok : Bool) (s : State) : Host.Outcome State Fault Refusal :=
  .next (onDevW (fun d => d.otpEnd s.ram ok) s)

/-- OTP_STAT (R222, R239): a key whose check fails is absent and revoked. -/
def Otp.stat (o : Otp) : Word :=
  let rev := fun (i : Fin 2) => o.rev[i] || (o.cust[i].isSome && (o.custKey i).isNone)
  pack [(0, b2n o.provisioned), (1, b2n o.rootok), (2, b2n (o.custKey 0).isSome), (3, b2n (o.custKey 1).isSome),
        (4, b2n (rev 0)), (5, b2n (rev 1))]

/-! ### Attestation (R226 to R230) -/

/-- The number of indices. -/
def attBudget : Nat := 33554432

/-- The report of R227, signed with index q at this moment. -/
def Dev.report (d : Dev) (challenge : List Byte) (q : Nat) : List Byte :=
  let o := d.otp
  let flags := bitsNat [o.provisioned, o.rootok, bit o.stat 4, bit o.stat 5, d.dbg.unlocked, d.degraded, d.cfg.foreignSeen]
  [0x01#8, 0, 0, 0] ++ natBytes 8 Config.serial.toNat ++ padTo 32 challenge ++ padTo 32 d.img.hash ++ natBytes 4 flags ++
    natBytes 8 d.datum.now.toNat ++ natBytes 4 q ++ natBytes 4 d.flt.list.length

/-- Counts of the RTC crystal in 16 s (R228).
(Log entry 58 DEDUCED.) -/
def attSpacing : Nat := 16 * 65536

/-- Why a request is refused (R227 to R229), as a STATUS; `addrOk`: its addresses lie in chip SRAM.
(Log entry 58 DEDUCED.) -/
def Dev.attRefusal (d : Dev) (addrOk : Bool) : Option Nat :=
  let a := d.att
  if a.lost then some 5
  else if attBudget ≤ a.c then some 4
  else if d.pwr.phase ≠ .up ∨ d.rtc.count < a.last + attSpacing then some 3
  else if !addrOk then some 6
  else none

/-- A request is accepted (R229): index q is committed, and the signature waits for the engine. -/
def Dev.attStart (d : Dev) (src : AttFrom) (challenge : List Byte) : Dev :=
  let a := d.att
  let d := { d with att := { a with c := a.c + 1, last := d.rtc.count, run := some { from_ := src, challenge, q := a.c } } }
  if attBudget ≤ a.c + 1 then d.secCause 5 else d

/-- A request is refused: SPENT and LOST set the ATTLOST cause (R229, R230). -/
def Dev.attRefused (d : Dev) (c : Nat) : Dev :=
  let d := { d with att := { d.att with status := c } }
  if c = 4 ∨ c = 5 then d.secCause 5 else d

/-- A write of ATT_CTL with GO (R227): ignored while a request is PENDING. A challenge that cannot be read ends it with
BADADDR.
(Log entry 82 DESIGN CHOICE.) -/
def Dev.attGo (d : Dev) (ram : Memory) : Dev :=
  let a := d.att
  if a.run.isSome then d
  else
    match d.attRefusal (inChipSram a.src.toNat 32 && inChipSram a.dst.toNat (96 + 5236)) with
    | some c => d.attRefused c
    | none =>
      match d.strRead ram a.src.toNat 32 with
      | (d, .data ch) => let d := d.attStart (.regs a.src a.dst) ch; { d with att := { d.att with status := 1 } }
      | (d, _) => d.attRefused 6

/-- Report and signature leave the engine (R227, R229). -/
def attSigned (s : State) : State :=
  match s.d.att.run with
  | none => s
  | some u =>
    let rep := s.d.report u.challenge u.q
    let out := rep ++ hssSign s.d.drv.attSeed u.q rep
    let s := { s with d := { s.d with att := { s.d.att with run := none } } }
    match u.from_ with
    | .regs _ dst =>
      let x := s.sramWrite dst.toNat out
      { x.1 with d := { x.1.d with att := { x.1.d.att with status := if x.2 = .done then 2 else 6 } } }
    | .dict _ => { s with d := { s.d with att := { s.d.att with dictStatus := 2, dictReport := some out } } }

/-! ### Debug lock (R234, R235) -/

/-- The challenge: 16 free bytes.
(Log entry 12 UNVERIFIED.) -/
def Dev.challenge (d : Dev) : List Byte := natBytes 16 (Config.freeValue d.dbg.chal)

/-- A token is accepted (R235). -/
def Dev.tokenOk (d : Dev) (t : List Byte) : Bool :=
  t.length = 2696 && byteAt t 0 = 1 && (byteAt t 2).toNat < 4 && byteAt t 3 = 0 &&
  slice t 4 8 = natBytes 8 Config.serial.toNat && slice t 12 16 = d.challenge &&
  (match d.otp.permitted (byteAt t 1).toNat with
   | some k => lmsVerify k (t.drop 28) (t.take 28)
   | none => false)

/-- A token is checked: accepted or rejected, and a fresh challenge is drawn. -/
def Dev.submitToken (d : Dev) (t : List Byte) : Dev :=
  let ok := d.tokenOk t
  let d := if ok then
      { d with dbg := { d.dbg with status := 2, unlocked := true, scope := d.dbg.scope ||| (byteAt t 2).toNat % 4 } }.secCause 1
    else { d with dbg := { d.dbg with status := 3 } }.secCause 2
  { d with dbg := { d.dbg with chal := d.freeCtr } }.took

/-- The debug port reaches a scope: open, or unlocked (R234, R235). -/
def Dbg.opens (x : Dbg) (bit_ : Nat) : Bool := !x.locked || x.scope.testBit bit_

/-! ### The engine (R225) -/

/-- A user of the engine has work for it. -/
def Dev.engWaits (d : Dev) (u : EngUser) : Bool :=
  match u with
  | .hash => d.hash.job.isSome
  | .att => d.att.run.isSome
  | .token => d.eng.tokens ≠ []

/-- The users in the order in which they are served after the last one (R28). -/
def EngUser.after (u : EngUser) : List EngUser :=
  match u with
  | .hash => [.att, .token, .hash]
  | .att => [.token, .hash, .att]
  | .token => [.hash, .att, .token]

/-- The engine is free again. -/
def Dev.engFree (d : Dev) (u : EngUser) : Dev := { d with eng := { d.eng with user := none, last := u } }

/-- The engine works for a user: a hash operation reads its operands, a token is checked at once. While a flash bank
holds their reads, they wait in the engine. -/
def Dev.engWork (d : Dev) (ram : Memory) (u : EngUser) : Dev :=
  let d := { d with eng := { d.eng with user := some u } }
  match u with
  | .hash =>
    match d.hash.job, d.hash.result with
    | some j, none => let x := d.hashRun ram j; { x.1 with hash := { x.1.hash with result := x.2 } }
    | _, _ => d
  | .att => d
  | .token =>
    let check := fun (d : Dev) (t : List Byte) =>
      ({ d with eng := { d.eng with tokens := d.eng.tokens.drop 1 } }.submitToken t).engFree .token
    match d.eng.tokens with
    | [] => d.engFree .token
    | .bytes t :: _ => check d t
    | .at_ a :: _ =>
      match d.strRead ram a.toNat 2696 with
      | (d, .data t) => check d t
      | (d, .held) => d
      | (d, _) => check d []

/-- The engine goes on: with what it has, or with the next user that waits, one operation at a time. `fuel` bounds the
tokens that it checks in one go.
(Log entry 82 DESIGN CHOICE.) -/
def Dev.engServe (ram : Memory) : Nat → Dev → Dev
  | 0, d => d
  | n + 1, d =>
    match d.eng.user with
    | some .token => (d.engWork ram .token).engServe ram n
    | some u => d.engWork ram u
    | none =>
      match d.eng.last.after.find? fun u => d.engWaits u with
      | some u => (d.engWork ram u).engServe ram n
      | none => d

/-- Rounds of `engServe` that leave nothing undone. -/
def Dev.engRounds (d : Dev) : Nat := 2 * d.eng.tokens.length + 4

/-- The engine serves what waits. -/
def Dev.engGo (d : Dev) (ram : Memory) : Dev := d.engServe ram d.engRounds

/-- A write of HASH_CMD: GO is ignored while PENDING, and without an operation. -/
def Dev.hashCmd (d : Dev) (ram : Memory) (v : Word) : Dev :=
  let d := { d with hash := { d.hash with op := fld v 0 2, keysel := fld v 8 2 } }
  if bit v 2 ∧ d.hash.status ≠ 1 ∧ (d.hash.op = 1 ∨ d.hash.op = 2) then
    let h := d.hash
    let j : HashJob := { op := h.op, keysel := h.keysel, src := h.src, len := h.len.toNat, sig := h.sig, pub := h.pub }
    Dev.engGo { d with hash := { h with status := 1, ended := false, job := some j, result := none } } ram
  else d

/-- The operation that the engine has ends (R225), and the next is served; while its operands are held it goes on. -/
def Dev.hashDone (d : Dev) (ram : Memory) : Dev :=
  let d := d.engGo ram
  match d.eng.user, d.hash.result with
  | some .hash, some (st, dg) =>
    let w := wordsOf 8 dg
    let h := { d.hash with
        status := st, job := none, result := none, ended := true
        digest := if dg = [] then d.hash.digest else Vector.ofFn fun i => w.getD i.val 0 }
    ({ d with hash := h }.engFree .hash).engGo ram
  | _, _ => d

/-- HASH_DONE (R225). -/
def execHashDone (s : State) : Host.Outcome State Fault Refusal := .next (onDevW (fun d => d.hashDone s.ram) s)

/-- A token goes to the engine: STATUS is PENDING until it has been checked. -/
def Dev.tokenGo (d : Dev) (ram : Memory) (t : Token) : Dev :=
  Dev.engGo { d with dbg := { d.dbg with status := 1 }, eng := { d.eng with tokens := d.eng.tokens ++ [t] } } ram

/-- JTAG_TOKEN (R235). -/
def execJtagToken (token : List Byte) (s : State) : Host.Outcome State Fault Refusal :=
  .next (onDevW (fun d => { d with dbg := { d.dbg with extest := false } }.tokenGo s.ram (.bytes token)) s)

/-- JTAG_GETCHAL (R234, R235). -/
def execJtagGetchal (s : State) : Host.Outcome State Fault Refusal :=
  .next (onDev (fun d => { d with dbg := { d.dbg with jtagOut := d.challenge, extest := false } }) s)

/-! ### SEC (R237) -/

/-- The present window ends. -/
def Dev.authWindowEnd (d : Dev) : Dev :=
  let d := d.authRoll
  (d.untilDatum ((d.sec.winStart + d.sec.window) * secTicks : Nat)).authRoll

/-- SEC_AUTH_WINDOW_END (R237). -/
def execSecAuthWindowEnd (s : State) : Host.Outcome State Fault Refusal := .next (onDev Dev.authWindowEnd s)

/-! ### The page (R239) -/

/-- Word i of a public key as it reads. -/
def keyWord (k : Option (List Byte)) (i : Nat) : Word :=
  match k with | some b => BitVec.ofNat 32 (bytesNat (slice b (4 * i) 4)) | none => 0

/-- An initiator that may use the KEY and OTP controls: a core in machine mode (R221, R223). -/
def Dev.machineCore (d : Dev) (i : Initiator) : Bool := match coreOf i with | some c => (d.cores[c]).mach | none => false

/-- Registers that only a core in machine mode reaches. -/
def coreOnly (o : Nat) : Bool := (0x1000 ≤ o && o ≤ 0x1020) || o = 0x2004

/-- The word at an offset of the page. -/
def Dev.secRead (d : Dev) (o : Nat) : Option Word :=
  let h := d.hash
  if 0x20 ≤ o ∧ o < 0x40 then some (h.digest[Fin.ofNat 8 ((o - 0x20) / 4)])
  else if 0x1000 ≤ o ∧ o < 0x1020 then some 0
  else if 0x2100 ≤ o ∧ o < 0x2138 then some (keyWord d.otp.rootKey ((o - 0x2100) / 4))
  else if 0x2140 ≤ o ∧ o < 0x2178 then some (keyWord (d.otp.custKey 0) ((o - 0x2140) / 4))
  else if 0x2180 ≤ o ∧ o < 0x21B8 then some (keyWord (d.otp.custKey 1) ((o - 0x2180) / 4))
  else if 0x3100 ≤ o ∧ o < 0x313C then some (keyWord (some (hssPub d.drv.attSeed)) ((o - 0x3100) / 4))
  else if 0x4000 ≤ o ∧ o < 0x4010 then some (keyWord (some d.challenge) ((o - 0x4000) / 4))
  else match o with
    | 0x0000 => some h.src
    | 0x0004 => some h.len
    | 0x0008 => some (pack [(0, h.op), (4, h.status), (8, h.keysel)])
    | 0x000C => some h.sig
    | 0x0010 => some h.pub
    | 0x1020 => some (d.keys.ctl ||| pack [(20, d.keys.status)])
    | 0x1024 => some (BitVec.ofNat 32 d.keys.query)
    | 0x1028 => some d.keys.info
    | 0x102C => some (BitVec.ofNat 32 d.keys.slots.length)
    | 0x1030 => some d.keys.writes
    | 0x2000 => some d.otp.stat
    | 0x2004 => some (pack [(0, d.otp.op), (2, d.otp.sel), (4, d.otp.status)])
    | 0x2008 => some d.otp.src
    | 0x3000 => some (pack [(4, d.att.status)])
    | 0x3004 => some d.att.src
    | 0x3008 => some d.att.dst
    | 0x300C => some (BitVec.ofNat 32 d.att.c)
    | 0x3010 => some (BitVec.ofNat 32 (attBudget - d.att.c))
    | 0x4010 => some d.dbg.src
    | 0x4014 => some (pack [(4, d.dbg.status), (8, b2n (d.dbg.locked && d.dbg.scope = 0)), (9, d.dbg.scope)])
    | 0x5000 => some (d.sec.stat.setWidth 32)
    | 0x5004 => some d.sec.authctl
    | 0x5008 => some (BitVec.ofNat 32 d.authRoll.sec.cnt)
    | _ => none

/-- Writes of the page. -/
def Dev.secWrite (d : Dev) (ram : Memory) (o : Nat) (v : Word) : Dev :=
  if 0x1000 ≤ o ∧ o < 0x1020 then
    { d with keys := { d.keys with load := d.keys.load.set (Fin.ofNat 8 ((o - 0x1000) / 4)) v } }
  else match o with
    | 0x0000 => { d with hash := { d.hash with src := v } }
    | 0x0004 => { d with hash := { d.hash with len := v &&& 0x00FFFFFF } }
    | 0x0008 => d.hashCmd ram v
    | 0x000C => { d with hash := { d.hash with sig := v } }
    | 0x0010 => { d with hash := { d.hash with pub := v } }
    | 0x1020 => { d with keys := d.keys.command v }
    | 0x1024 => { d with keys := { d.keys with query := fld v 0 13 } }
    | 0x2004 => d.otpCommand ram v
    | 0x2008 => { d with otp := { d.otp with src := v } }
    | 0x3000 => if bit v 0 then (d.attGo ram).engGo ram else d
    | 0x3004 => { d with att := { d.att with src := v } }
    | 0x3008 => { d with att := { d.att with dst := v } }
    | 0x4010 => { d with dbg := { d.dbg with src := v } }
    | 0x4014 => if bit v 0 then d.tokenGo ram (.at_ d.dbg.src) else d
    | 0x5000 => { d with sec := { d.sec with stat := d.sec.stat &&& ~~~(v.setWidth 7) } }
    | 0x5004 => { d with sec := { d.authRoll.sec with authctl := v &&& 0x00FFFFFF } }
    | _ => d

end Sys2Proof.Machine
end

