-- ==== Sys2Proof/Machine/UpdateOps.lean ====
section
/-! DEFINITION. The update engine (R442 to R448): the lock, the states, and the engine's work on the image slot. -/

namespace Sys2Proof.Machine

/-- 30 s of the datum in ticks (R443). -/
def updLimit : Nat := 30 * secTicks

/-- An update flag sets (R445). -/
def Dev.updFlag (d : Dev) (i : Nat) : Dev := { d with upd := { d.upd with flags := d.upd.flags ||| (1#8 <<< i) } }

/-- Progress (R443). -/
def Dev.updProgress (d : Dev) : Dev := { d with upd := { d.upd with progressAt := d.now } }

/-- The lock is released (R443): from CLAIMED the state is IDLE, otherwise the image is abandoned. -/
def Dev.updRelease (d : Dev) : Dev :=
  let d := { d with upd := { d.upd with job := none } }
  if d.upd.state = 1 then { d with upd := { d.upd with state := 0, holder := none } }
  else { d with upd := { d.upd with state := 6, holder := none, part := [], head := [] } }.updFlag 2

/-- 30 s without progress (R443). -/
def Dev.updOverdue (d : Dev) : Bool := d.upd.holder.isSome && d.upd.progressAt + updLimit ≤ d.now

/-- The lock expires: EXPIRED sets, and an open transfer of the image is closed. -/
def Dev.updExpire (d : Dev) : Dev :=
  match d.upd.holder with
  | none => d
  | some c =>
    let d := d.modCarrier c fun k =>
      { k with xfer := match k.xfer with | some x => if x.index = 0x9010 then none else some x | none => none }
    d.updRelease.updFlag 3

/-- Why a write to 0x9001–0x9003 or 0x9010 is refused before anything else (R279, R442): an ABORT code.
(Log entry 77 DEDUCED.) -/
def Dev.updRefusal (d : Dev) (c : Carrier) : Option Nat :=
  match d.pwr.phase with
  | .dead _ => some 0x0C
  | .starting _ => some 0x0F
  | .up => match d.upd.holder with
    | some h => if h = c then none else some 0x0D
    | none => none

/-- A claim (R442).
(Log entry 77 DEDUCED.) -/
def Dev.updClaim (d : Dev) (c : Carrier) : Dev :=
  if d.upd.holder = some c then d.updProgress
  else { d with upd := { d.upd with state := 1, holder := some c, received := 0, progressAt := d.now } }.updFlag 0

/-- WRITE_INIT of IMAGE (R446): an ABORT code, or the image begins anew. -/
def Dev.updInit (d : Dev) (c : Carrier) (total : Nat) : Except Nat Dev :=
  if d.upd.holder ≠ some c then .error 0x0F
  else if total % 16 ≠ 0 ∨ total < 2992 ∨ 6291456 < total then .error 0x06
  else .ok { d with upd := { d.upd with state := 2, received := 0, total, head := [], part := [], erased := 0, progressAt := d.now } }

/-- The update engine's transfer closed before SEG_LAST (R444). -/
def Dev.updCut (d : Dev) : Dev := if d.upd.state = 2 then { d with upd := { d.upd with state := 3 } } else d

/-- The state becomes FAILED (R446). -/
def Dev.updFail (d : Dev) : Dev := { d with upd := { d.upd with state := 7 } }.updFlag 4

/-- Which operation the engine asks of the flash controller for a code word of the image: the erase of its block, once
per WRITE_INIT, or the program (R446). -/
def Dev.updErases (d : Dev) (o : Nat) : Bool := decide (d.upd.erased ≤ o / 0x10000)

/-- Flash is free for the engine: no program, no erase runs on it, and no erase of the engine's own is suspended
(R342). -/
def Flash.engineMay (f : Flash) : Bool :=
  match f.op with
  | .idle => true
  | .suspended _ _ => !f.src
  | _ => false

/-- The engine's operation starts on code word `w` of the image at offset `o`, or is refused with a STATUS (R342,
R446). -/
def Flash.engineStart (f : Flash) (o : Nat) (w : List Byte) (erase : Bool) (now : Nat) : Flash × Bool :=
  let b := o / 0x10000
  match f.refusal (if erase then 2 else 1) (0x08000000 + o / 16 * 16) false with
  | some st => ({ f with status := st, src := true }, false)
  | none => (if erase then { f.erase b now with src := true } else { f.program (0x08000000 + o) w with src := true }, true)

/-- The job ends (R446, R447): the answer, and the transfer and the state after it. -/
def Dev.updDone (d : Dev) (j : UpdJob) : Dev × List Byte :=
  let d := { d with upd := { d.upd with job := none } }
  let close := fun (d : Dev) => d.modCarrier j.carrier fun k => { k with xfer := none }
  match j.xfer with
  | none => ({ d with upd := { d.upd with state := 5, holder := none, head := [], part := [] } }.updFlag 1, [0x44#8])
  | some x =>
    let d := { d with upd := { d.upd with part := j.rest, received := d.upd.received + j.count, progressAt := d.now } }
    if j.wrong then ((close d).updCut, [0xC0#8] ++ natBytes 2 x.index.toNat ++ [x.sub, 6#8])
    else
      let d := if j.last then { d with upd := { d.upd with state := 4 } } else d
      (d.modCarrier j.carrier fun k => { k with xfer := some { x with at_ := d.now } }, x.lastResp)

/-- The job fails (R446, R447): STATE, the transfer closes, and the state is FAILED. -/
def Dev.updFailed (d : Dev) (j : UpdJob) : Dev × List Byte :=
  let d := { d with upd := { d.upd with job := none } }.updFail
  match j.xfer with
  | none => (d, [0xC0#8] ++ natBytes 2 0x9002 ++ [0#8, 0x0F#8])
  | some x => (d.modCarrier j.carrier fun k => { k with xfer := none }, [0xC0#8] ++ natBytes 2 x.index.toNat ++ [x.sub, 0x0F#8])

/-- The engine goes on with its job as far as the flash lets it: it starts the next operation, which waits while the
register port's runs, or gives the answer that the job ends with. A word whose read-back is to differ is left with a free
content (log entry 12).
(Log entry 69 DEDUCED.) -/
def Dev.updNext (d : Dev) : Dev × Option (Carrier × List Byte) :=
  match d.upd.job with
  | none => (d, none)
  | some j =>
    match j.words with
    | [] => let x := d.updDone j; (x.1, some (j.carrier, x.2))
    | (o, w) :: _ =>
      if !d.flash.engineMay then (d, none)
      else
        let erase := d.updErases o
        let w := if j.ok || erase then w else freeBytes 16 d.freeCtr
        let x := d.flash.engineStart o w erase d.now
        let d := { d with flash := x.1, freeCtr := if j.ok || erase then d.freeCtr else d.freeCtr + 16 }
        if x.2 then (d, none)
        else let y := d.updFailed j; (y.1, some (j.carrier, y.2))

/-- An operation on the flash has ended: where it was the engine's, the engine takes note, and fails where it did not
succeed; then the engine goes on. `erased`: it was an erase.
(Log entry 69 DEDUCED.) -/
def Dev.updOpEnd (d : Dev) (erased : Bool) : Dev × Option (Carrier × List Byte) :=
  match d.upd.job with
  | none => (d, none)
  | some j =>
    if !d.flash.src then d.updNext
    else
      match j.words with
      | [] => d.updNext
      | (o, _) :: l =>
        let fail := let y := d.updFailed j; (y.1, some (j.carrier, y.2))
        if d.flash.status ≠ 3 then fail
        else if erased then Dev.updNext { d with upd := { d.upd with erased := o / 0x10000 + 1 } }
        else if !j.ok then fail
        else Dev.updNext { d with upd := { d.upd with job := some { j with words := l } } }

/-- The code words that bytes from an offset on complete, the words of bytes 0 to 15 left out, and the bytes that stay
for a later segment (R446). -/
def codeWords : Nat → Nat → List Byte → List (Nat × List Byte) × List Byte
  | 0, _, l => ([], l)
  | k + 1, o, l =>
    if l.length < 16 then ([], l)
    else
      let x := codeWords k (o + 16) (l.drop 16)
      (if o = 0 then x.1 else (o, l.take 16) :: x.1, x.2)

/-- A segment's bytes (R446) become a job; what lies beyond TOTAL is not programmed. `x` is the transfer once the segment
is acknowledged.
(Log entry 69 DEDUCED.) -/
def Dev.updSegment (d : Dev) (c : Carrier) (x : Xfer) (last wrong : Bool) (l : List Byte) (ok : Bool) : Dev :=
  let u := d.upd
  let use := l.take (u.total - u.received)
  let o := u.received - u.part.length
  let bytes := u.part ++ use
  let ws := codeWords 32 o bytes
  let head := if o = 0 ∧ 16 ≤ bytes.length then bytes.take 16 else u.head
  { d with upd := { u with
      head
      job := some { carrier := c, words := ws.1, ok, rest := ws.2, count := use.length, xfer := some x, last, wrong } } }

/-- COMMIT (R447): an ABORT code, or the job of programming bytes 0 to 15. -/
def Dev.updCommit (d : Dev) (c : Carrier) (ok : Bool) : Except Nat Dev :=
  if d.upd.state ≠ 4 then .error 0x0F
  else
    .ok { d with upd := { d.upd with
      job := some { carrier := c, words := [(0, d.upd.head)], ok, rest := [], count := 0, xfer := none, last := false, wrong := false } } }

/-- ABORT (R448). -/
def Dev.updAbort (d : Dev) : Dev × Option Nat :=
  if d.upd.holder.isNone then (d, some 0x0F)
  else ({ d with upd := { d.upd with state := 6, holder := none, part := [], head := [] } }.updFlag 2, none)

end Sys2Proof.Machine
end

