-- ==== Sys2Proof/Machine/Respond.lean ====
section
/-! DEFINITION. TDP responses on their carriers (R271, R281, R282, R287), and what goes on when the flash lets it: the
update engine and the reads of the SHA-256 and LMS engine and of an OTP operation (R342, R343, R446). -/

namespace Sys2Proof.Machine

/-- An ABORT response (R270, R275). -/
def abortMsg (index : BitVec 16) (sub : Byte) (code : Nat) : List Byte :=
  [0xC0#8] ++ natBytes 2 index.toNat ++ [sub, BitVec.ofNat 8 code]

/-- The data length of a response frame: the smallest length code that holds n bytes (R282). -/
def canLen (fd : Bool) (n : Nat) : Nat :=
  if n ≤ 8 then n else if !fd then 8
  else ([12, 16, 20, 24, 32, 48, 64].find? fun k => n ≤ k).getD 64

/-- The response frame to a request: the module's identifier, the form and BRS of the request, ATTN, the message, padding
(R281, R282, R287). A classic frame may have any length up to 8. -/
def canFrame (node : Nat) (r : CanReq) (attn : BitVec 16) (m : List Byte) : CanFrame :=
  let b := natBytes 2 attn.toNat ++ m
  { ident := 0x380 + node, data := padTo (canLen r.fd b.length) b, fd := r.fd, brs := r.brs }

/-- A response leaves on its carrier (R271, R287): it is kept with the ATTN word, whose SEQ is judged with what the
request itself has changed (R261), counted if it is an ABORT, and put into the frame or reply that waits for it. -/
def Dev.respond (d : Dev) (c : Carrier) (m : List Byte) : Dev :=
  let d := if byteAt m 0 = 0xC0 then { d with tdp := { d.tdp with cnt := d.tdp.cnt.set 1 (d.tdp.cnt[1] + 1) } } else d
  let d := d.settle
  let d := d.modCarrier c fun k => { k with resp := m, attn := d.attn }
  if c = 0 then
    match d.can.cur with
    | some r => { d with can := { d.can with out := some (canFrame d.can.node r d.attn m) } }
    | none => d
  else
    let l : LinkId := Fin.ofNat 2 (c.val - 1)
    match (d.links[l]).run with
    | some (r, _, _) =>
      if r.opc = 5 then (d.modTrunk l fun k => { k with run := none }).trkDone l r 0 0 m else d
    | none => d

/-- A carrier's response, if the update engine has one to give. -/
def Dev.answered (x : Dev × Option (Carrier × List Byte)) : Dev :=
  match x.2 with
  | some (c, m) => x.1.respond c m
  | none => x.1

/-- An operation of the flash has ended, or its erase is suspended: the update engine goes on (R446), and so do reads that
a bank held (R343). `ended`: an erase or a program has ended. -/
def State.flashGoOn (s : State) (ended : Option Bool) : State :=
  let d := Dev.answered (match ended with
    | some erased => s.d.updOpEnd erased
    | none => s.d.updNext)
  { s with d := (d.engGo s.ram).otpTake s.ram }

end Sys2Proof.Machine
end

