-- ==== Sys2Proof/Machine/RtcPage.lean ====
section
/-! DEFINITION. The RTC page (R396 to R403, R418) as accesses see it, and what crosses into the backup domain. -/

namespace Sys2Proof.Machine

/-- A pair of BCD digits is well formed and at most `hi`, at least `lo`. -/
def bcdIn (v lo hi : Nat) : Bool := v % 16 ≤ 9 && v / 16 ≤ 9 && lo ≤ bcdN v && bcdN v ≤ hi

/-- The calendar as a whole is valid (R401). -/
def calendarOk (time date : Word) : Bool :=
  let month := fld date 8 8
  let year := fld date 16 8
  bcdIn (fld time 0 8) 0 59 && bcdIn (fld time 8 8) 0 59 && bcdIn (fld time 16 8) 0 23 && bcdIn month 1 12 &&
    bcdIn year 0 99 && bcdIn (fld date 0 8) 1 (monthDays (bcdN year) (bcdN month))

/-- The live values of RTC_SEC, RTC_TIME and RTC_DATE (R399). -/
def Rtc.live (r : Rtc) : RtcShadow :=
  { sec := BitVec.ofNat 32 (r.count / 65536), time := if r.mode then r.time else 0, date := if r.mode then r.date else 0 }

/-- What an initiator's read of the three gives: its shadow during a freeze (R400). -/
def Rtc.view (r : Rtc) (i : Initiator) : RtcShadow := (r.shadows[i]).getD r.live

/-- RTC_STAT. -/
def Rtc.stat (r : Rtc) : Word :=
  pack [(0, b2n r.mode), (1, b2n r.timeLost), (2, b2n r.setIgnored), (3, b2n r.setBad), (4, b2n r.alarmf), (5, b2n r.firstswv),
        (6, b2n r.syncbusy), (8, r.swcount)]

/-- Whether RTC_SEC has yet to become equal to RTC_ALARM (R402).
(Log entry 74 DEDUCED.) -/
def Rtc.arm (r : Rtc) : Rtc := { r with armed := r.alarmen && r.count / 65536 < r.alarm.toNat }

/-- A read of the page. -/
def Rtc.read (r : Rtc) (i : Initiator) (o : Nat) : Rtc × Word :=
  match o with
  | 0x00 => ({ r with shadows := r.shadows.set i (some r.live) }, BitVec.ofNat 32 (r.count % 65536))
  | 0x04 => (r, (r.view i).sec)
  | 0x08 => (r, (r.view i).time)
  | 0x0C => ({ r with shadows := r.shadows.set i none }, (r.view i).date)
  | 0x10 => (r, pack [(0, b2n r.halt), (2, b2n r.alarmen)])
  | 0x14 => (r, r.stat)
  | 0x18 => (r, r.firstsw)
  | 0x1C => (r, r.alarm)
  | _ => (r, 0)

/-- A write of the page (R401): none is taken while an RTC_CTL write crosses. -/
def Rtc.write (r : Rtc) (o : Nat) (v : Word) : Rtc :=
  if r.syncbusy then { r with setIgnored := true }
  else match o with
    | 0x08 => if r.halt then { r with time := v &&& 0x00FFFFFF } else { r with setIgnored := true }
    | 0x0C => if r.halt then { r with date := v &&& 0x00FFFFFF } else { r with setIgnored := true }
    | 0x10 => { r with crossing := some v, syncbusy := true }
    | 0x14 =>
      let r := { r with timeLost := r.timeLost && !bit v 1, setIgnored := r.setIgnored && !bit v 2
                        setBad := r.setBad && !bit v 3, alarmf := r.alarmf && !bit v 4 }
      if bit v 5 then { r with firstswv := false, firstsw := 0, swcount := 0 } else r
    | 0x1C => { r with alarm := v }.arm
    | _ => r

/-- An RTC_CTL write takes effect (R399, R401): HALT, then BINARY.
(Log entry 74 DEDUCED.) -/
def Rtc.cross (r : Rtc) : Rtc :=
  match r.crossing with
  | none => r
  | some v =>
    let r := { r with crossing := none, syncbusy := false }
    let r := if bit v 2 ∧ r.alarmen then r else { r with alarmen := bit v 2 }.arm
    let r := if bit v 0 then { r with halt := true }
      else if !r.halt then r
      else if calendarOk r.time r.date then { r with halt := false, mode := true, phase := r.count % 65536 }
      else { r with setBad := true }
    if bit v 1 then { r with mode := false } else r

/-- The count at which RTC_SEC becomes equal to RTC_ALARM, past the wrap if it stands at or above it (R402).
(Log entry 74 DEDUCED.) -/
def Rtc.alarmDue (r : Rtc) : Nat := if r.armed then r.alarm.toNat * 65536 else r.alarm.toNat * 65536 + 2 ^ 48

/-- The backup domain loses power (R397). -/
def Rtc.lose (r : Rtc) : Rtc :=
  { powered := false, onVbat := r.onVbat, shadows := r.shadows }

/-- RTC_CTL_SYNC_DONE (R401). -/
def execRtcCtlSyncDone (s : State) : Host.Outcome State Fault Refusal :=
  .next (onDev (fun d => { d with rtc := d.rtc.cross }) s)

end Sys2Proof.Machine
end

