-- ==== Sys2Proof/Machine/Bus.lean ====
section
/-! DEFINITION. The address map (R32 to R35): one access of an initiator, its outcome and what it leaves. Register
writes that have a row of their own are accesses of this kind. -/

namespace Sys2Proof.Machine

/-! ### Sleeping domains (R410) -/

/-- An access reaches a domain: `none` when it is ready; a bus error or a hold, with the wake begun, when it is not.
(Log entry 34 DEDUCED.) -/
def Dev.domainGate (d : Dev) (r : RegionId) (dom : Nat) : Dev × Option Wr :=
  let p := (d.regions[r]).pwr
  if d.domainAsleep r dom then
    if p.domerr.getLsbD dom then (d, some .error)
    else ({ d.setDomain r dom false with pwr := { d.pwr with wakeSrc := 7 } }, some .held)
  else if p.waking.contains dom then (d, some .held)
  else (d, none)

/-- What a gate answers to a read. -/
def Wr.toRd : Wr → Rd
  | .done => .data 0
  | .error => .error
  | .held => .held

/-- Domain of a region page (R409): the fault unit belongs to none. -/
def pageDomain (page : Fin 4) : Option Nat := match page with | 0 => some 8 | 1 => some 9 | 2 => some 7 | 3 => none

/-- The gate of a region page: a retired region answers with a bus error (R35). -/
def Dev.regionGate (d : Dev) (r : RegionId) (page : Fin 4) : Dev × Option Wr :=
  if (d.regions[r]).retired then (d, some .error)
  else match pageDomain page with
    | some k => d.domainGate r k
    | none => (d, none)

/-- Words of a retired port's page that stay readable (R116). -/
def retiredReadable (o : Nat) : Bool :=
  o = 0x14 || (0x2000 ≤ o && o < 0x20C0) || (0x3000 ≤ o && o < 0x3100) || o = 0xF01C || (0xF040 ≤ o && o < 0xF058)

/-- The gate of a port page (R35, R116, R406, R410). A write to a word of a retired port that stays readable ends with a
bus error as any other does.
(Log entries 34 DEDUCED, 83 DESIGN CHOICE.) -/
def Dev.portGate (d : Dev) (p : PortId) (o : Nat) (write : Bool) : Dev × Option Wr :=
  let r := regionOfPort p
  if (d.regions[r]).retired || !d.rfPowered then (d, some .error)
  else if (d.ports[p]).rx.retired then (d, if !write && retiredReadable o then none else some .error)
  else d.domainGate r (localOfPort p).val

/-! ### Pages -/

/-- A word of a port's page. -/
def Dev.portRead (d : Dev) (p : PortId) (o : Nat) : Word :=
  (if o < 0x8000 then d.rxRead p o else if o < 0xC000 then d.txRead p o else d.sbRead p o).getD 0

/-- A write of a word of a port's page. -/
def Dev.portWrite (d : Dev) (p : PortId) (o : Nat) (v : Word) : Dev :=
  if o < 0x8000 then d.rxWrite p o v else if o < 0xC000 then d.txWrite p o v else d.sbWrite p o v

/-- A word of a region's page. -/
def Dev.regionRead (d : Dev) (i : Initiator) (r : RegionId) (page : Fin 4) (o : Nat) : Dev × Rd :=
  match page with
  | 0 => d.queRead i r o
  | 1 => (d, .data (d.dmaRead r o))
  | 2 =>
    if o < 0x200 then (d, .data (d.ciphRead r o))
    else (d.linkReadEffect r o, .data ((d.linkRead r o).getD 0))
  | 3 => (d, .data (d.regfRead r o))

/-- A write of a word of a region's page. -/
def regionWrite (i : Initiator) (r : RegionId) (page : Fin 4) (o : Nat) (v : Word) (s : State) : State × Wr :=
  match page with
  | 0 => let x := s.d.queWrite i r o v; ({ s with d := x.1 }, x.2)
  | 1 => (dmaWrite r o v s, .done)
  | 2 => ({ s with d := if o < 0x200 then s.d.ciphWrite r o v else s.d.linkWrite r o v }, .done)
  | 3 => ({ s with d := s.d.regfWrite r o v }, .done)

/-- A word of a chip page. KEY_LOAD, KEY_CTL and OTP_CTL answer only a core in machine mode (R221, R223). -/
def Dev.chipRead (d : Dev) (i : Initiator) (page : Fin 12) (o : Nat) : Dev × Rd :=
  match page with
  | 0 => (d, .data ((d.flash.read o).getD 0))
  | 1 => let x := d.rtc.read i o; ({ d with rtc := x.1 }, .data x.2)
  | 2 => (d, .data (d.pwrRead o))
  | 3 =>
    if o < 0x8000 then (d.timerReadEffect o, .data ((d.timerRead o).getD 0))
    else (d.datumReadEffect i o, .data ((d.datumRead i o).getD 0))
  | 4 => (d, .data ((d.eventRead o).getD 0))
  | 5 => d.mbxRead i o
  | 6 => if coreOnly o && !d.machineCore i then (d, .error) else (d, .data ((d.secRead o).getD 0))
  | 7 => (d, .data (d.trkRead o))
  | 8 => (d, .data (d.canRead o))
  | 9 => (d, .data (d.cfg.read o))
  | 10 => (d, .data (d.fltRead o))
  | 11 => (d, .data (d.coreRead o))

/-- A write of a word of a chip page. -/
def chipWrite (i : Initiator) (page : Fin 12) (o : Nat) (v : Word) (s : State) : State × Wr :=
  let dev := fun (d : Dev) => ({ s with d := d }, Wr.done)
  let d := s.d
  match page with
  | 0 =>
    let s' := { s with d := { d with flash := d.flash.write d.now o v } }
    (if s'.d.flash.suspended.isSome ∧ d.flash.suspended.isNone then s'.flashGoOn none else s', .done)
  | 1 => dev { d with rtc := d.rtc.write o v }
  | 2 => (pwrWrite o v s, .done)
  | 3 => dev (if o < 0x8000 then (d.timerWrite o v).getD d else d.datumWrite o v)
  | 4 => dev ((d.eventWrite o v).getD d)
  | 5 => let x := d.mbxWrite i o v; ({ s with d := x.1 }, x.2)
  | 6 => if coreOnly o && !d.machineCore i then (s, .error) else dev (d.secWrite s.ram o v)
  | 7 => dev (d.trkWrite i o v)
  | 8 => dev (d.canWrite o v)
  | 9 => dev { d with cfg := d.cfg.pageWrite o v }
  | 10 => dev (d.fltWrite o v)
  | 11 => dev (d.coreWrite i o v)

/-! ### One access -/

/-- A read of n bytes (1, 2 or 4) at an aligned address. `fetch`: it fetches an instruction, which only the windows
marked so in R328 serve. -/
def State.busRead (s : State) (i : Initiator) (a n : Nat) (fetch : Bool) : State × Rd :=
  match s.memLoad a n fetch with
  | some x => x
  | none =>
    if n ≠ 4 || fetch then (s, .error)
    else match winOf a with
      | .chip page o => let x := s.d.chipRead i page o; ({ s with d := x.1 }, x.2)
      | .region r page o =>
        match s.d.regionGate r page with
        | (d, some w) => ({ s with d := d }, w.toRd)
        | (d, none) => let x := d.regionRead i r page o; ({ s with d := x.1 }, x.2)
      | .port p o =>
        match s.d.portGate p o false with
        | (d, some w) => ({ s with d := d }, w.toRd)
        | (d, none) => ({ s with d := d }, .data (d.portRead p o))
      | _ => (s, .error)

/-- A write of n bytes (1, 2 or 4) at an aligned address. -/
def State.busWrite (s : State) (i : Initiator) (a n : Nat) (v : Word) : State × Wr :=
  match s.memStore a n v with
  | some x => x
  | none =>
    if n ≠ 4 then (s, .error)
    else match winOf a with
      | .chip page o => chipWrite i page o v s
      | .region r page o =>
        match s.d.regionGate r page with
        | (d, some w) => ({ s with d := d }, w)
        | (d, none) => regionWrite i r page o v { s with d := d }
      | .port p o =>
        match s.d.portGate p o true with
        | (d, some w) => ({ s with d := d }, w)
        | (d, none) => ({ s with d := d.portWrite p o v }, .done)
      | _ => (s, .error)

/-! ### Physical memory protection (R326) -/

/-- The address range of PMP entry k, or none when it is OFF. -/
def Csrs.pmpRange (c : Csrs) (k : Fin 16) : Option (Nat × Nat) :=
  let a := (c.pmpaddr[k]).toNat
  match (c.pmpcfg[k]).toNat / 8 % 4 with
  | 1 => some (if k.val = 0 then 0 else 4 * (c.pmpaddr[k - 1]).toNat, 4 * a)
  | 2 => some (4 * a, 4 * a + 4)
  | 3 =>
    let ones := ((List.range 33).find? fun j => !a.testBit j).getD 32
    let size := 8 * 2 ^ ones
    let base := 4 * a / size * size
    some (base, base + size)
  | _ => none

/-- What an access asks of an entry: bit 0 read, 1 write, 2 execute. -/
abbrev PmpKind := Nat

/-- PMP permits an access of n bytes: the lowest entry that matches any of its bytes decides. -/
def Csrs.pmpOk (c : Csrs) (mach : Bool) (a n : Nat) (kind : PmpKind) : Bool :=
  let hit := (List.finRange 16).find? fun k =>
    match c.pmpRange k with | some (lo, hi) => a < hi && lo < a + n | none => false
  match hit with
  | none => mach
  | some k =>
    let cfg := (c.pmpcfg[k]).toNat
    match c.pmpRange k with
    | some (lo, hi) => lo ≤ a && a + n ≤ hi && ((mach && !cfg.testBit 7) || cfg.testBit kind)
    | none => mach

/-! ### Accesses as commands -/

/-- The initiator can make an access: its part of the module runs, and no access of it is held.
(Log entry 62 DEDUCED.) -/
def Dev.initReady (d : Dev) (i : Initiator) : Bool :=
  (d.pwr.now = .on || d.pwr.now = .nap) && !(d.holds.any fun h => h.init = i) &&
    (match coreOf i with | some c => (d.cores[c]).running && !(d.cores[c]).halted | none => true)

/-- PMP permits an initiator's access: it checks cores alone.
(Log entry 62 DEDUCED.) -/
def Dev.initMay (d : Dev) (i : Initiator) (a : Nat) (write : Bool) : Bool :=
  match coreOf i with
  | some c => (d.cores[c]).csr.pmpOk (d.cores[c]).mach a 4 (if write then 1 else 0)
  | none => true

/-- A held access waits for its release (R16). -/
def Dev.hold (d : Dev) (i : Initiator) (a n : Nat) (v : Option Word) : Dev :=
  let h : HeldAcc := { init := i, addr := BitVec.ofNat 32 a, width := n, value := v }
  { d with holds := d.holds ++ [h] }.answer i .held

/-- What initiator i's write of a word at a left is recorded. -/
def written (i : Initiator) (a : Nat) (v : Word) (x : State × Wr) : State :=
  { x.1 with d := match x.2 with
      | .done => x.1.d.answer i .done
      | .error => x.1.d.answer i .error
      | .held => x.1.d.hold i a 4 (some v) }

/-- What initiator i's read of a word at a gave is recorded. -/
def wasRead (i : Initiator) (a : Nat) (x : State × Rd) : State :=
  { x.1 with d := match x.2 with
      | .data w => x.1.d.answer i (.data w)
      | .error => x.1.d.answer i .error
      | .held => x.1.d.hold i a 4 none }

/-- A read of a word by an initiator as a command of its own; the answer stands in `bus`.
(Log entry 62 DEDUCED.) -/
def rowRead (i : Initiator) (a : Nat) (s : State) : State :=
  if !s.d.initReady i then s
  else if !s.d.initMay i a false then finish { s with d := s.begun.d.answer i .error }
  else finish (wasRead i a (s.begun.busRead i a 4 false))

/-- A write of a word by an initiator as a command of its own.
(Log entry 62 DEDUCED.) -/
def rowWrite (i : Initiator) (a : Nat) (v : Word) (s : State) : State :=
  if !s.d.initReady i then s
  else if !s.d.initMay i a true then finish { s with d := s.begun.d.answer i .error }
  else finish (written i a v (s.begun.busWrite i a 4 v))

end Sys2Proof.Machine
end

