-- ==== Sys2Proof/Machine/Dictionary.lean ====
section
/-! DEFINITION. The object catalogue (R299 to R316): every hardware-served object with its type, access, range and
default, how it is read and written through the address map, and how RWP values persist (R265 to R268, R292, R301). -/

namespace Sys2Proof.Machine

/-! ### What an object is -/

/-- Types of R265; TIME48 is a 6-byte number. -/
inductive Ty where
  | bool
  | nat (n : Nat)
  | int (n : Nat)
  | text
  | domain
  deriving DecidableEq, Repr

/-- Access rights of R266. -/
inductive Acc where
  | const | ro | rw | wo | rwp
  deriving DecidableEq, Repr

/-- The domains. -/
inductive Dom where
  | ctxData | attPub | cert | dbgChal | attest | faultLog | retList | imgHash | image
  deriving DecidableEq, Repr

/-- Objects whose write is more than a register field. -/
inductive Special where
  | detail (bit sub : Nat)
  | step
  | ctxSel | ctxCount
  | opIndex | opKey | opShort | opGo
  | clearRet
  | lock | commit | abortUpd
  deriving DecidableEq, Repr

/-- Where the value of an object lives. -/
inductive Src where
  /-- nowhere but in the object (an RWP value that binds no field at run time) -/
  | own
  /-- a register field: address, lowest bit, length -/
  | field (a lo len : Nat)
  /-- a pair of registers, the lower word first -/
  | pair (a : Nat)
  /-- a number the hardware reports -/
  | calc (f : Dev → Nat)
  /-- a number collected from the registers of a page, of which `a` is one -/
  | gated (a : Nat) (f : Dev → Nat)
  /-- a text -/
  | text (l : List Byte)
  | special (k : Special) (f : Dev → Nat)
  | dom (k : Dom)

/-- An object. -/
structure Obj where
  acc : Acc
  ty : Ty
  src : Src
  ok : Int → Bool := fun _ => true
  dflt : Int := 0

/-- Bytes of a type of fixed size. -/
def Ty.size : Ty → Option Nat
  | .bool => some 1
  | .nat n => some n
  | .int n => some n
  | .text => none
  | .domain => none

/-- A value in the bytes of its type. -/
def Ty.encode (t : Ty) (v : Int) : List Byte :=
  match t.size with
  | some n => natBytes n (sN (8 * n) v)
  | none => []

/-- The value that bytes of the right length spell. -/
def Ty.decode (t : Ty) (l : List Byte) : Int :=
  match t with
  | .int n => nS (8 * n) (bytesNat l)
  | _ => bytesNat l

/-- Its default in bytes. -/
def Obj.default_ (o : Obj) : List Byte := o.ty.encode o.dflt

/-! ### Values that the hardware reports -/

/-- Device state of R253: the codes of PING. -/
def Dev.stateCode (d : Dev) : Nat :=
  match d.pwr.phase with
  | .starting _ => 0
  | .dead _ => 3
  | .up => (if d.pwr.now = .nap then 4 else 1) + b2n d.degraded

/-- Lanes in service (R315). -/
def Dev.lanesInService (d : Dev) : Nat :=
  ((List.finRange 24).map fun p =>
    if (d.ports[p]).rx.retired then 0 else (allLanes.filter fun i => !((d.ports[p]).rx.lanes[i]).retired).length).sum

/-- Watchers in service. -/
def Dev.watchersInService (d : Dev) : Nat :=
  ((List.finRange 24).map fun p =>
    if (d.ports[p]).rx.retired then 0 else ((List.finRange 64).filter fun i => !((d.ports[p]).rx.watchers[i]).retired).length).sum

/-- Second-look units not fenced of a region. -/
def Dev.lookBits (d : Dev) (r : RegionId) : Nat :=
  bitsNat ((List.finRange 4).map fun i => !((d.regions[r]).second.units[i]).fenced)

/-- Usable cipher pipes of a region. -/
def Dev.pipeBits (d : Dev) (r : RegionId) : Nat := bitsNat ((List.finRange 4).map fun i => !(d.regions[r]).cipher.fenced[i])

/-- A value of each region in service, side by side. -/
def Dev.perRegion (d : Dev) (w : Nat) (f : RegionId → Nat) : Nat :=
  ((List.finRange 4).map fun r => if (d.regions[r]).retired then 0 else f r * 2 ^ (w * r.val)).sum

/-- The queues marked in a mask word that meet a condition (R305). -/
def Dev.queueList (d : Dev) (mask : Vector Word 4) (w : Fin 4) (f : Queue → Bool) : Nat :=
  bitsNat ((List.finRange 32).map fun i => bit mask[w] i.val && f (d.queue ⟨32 * w.val + i.val, by omega⟩))

/-- A flag of each port. -/
def Dev.portBits (d : Dev) (f : Port → Bool) : Nat := bitsNat ((List.finRange 24).map fun p => f d.ports[p])

/-- A flag of each region. -/
def Dev.regionBits (d : Dev) (f : Region → Bool) : Nat := bitsNat ((List.finRange 4).map fun r => f d.regions[r])

/-- The cause flags of an ATTN detail object (R305). -/
def Dev.detail (d : Dev) (b sub : Nat) : Nat :=
  let w : Fin 4 := Fin.ofNat 4 (sub - 1)
  match b with
  | 0 => d.queueList d.trk.rxq w fun q => 0 < q.pktcnt
  | 1 => d.queueList d.trk.txq w fun q => q.words.length ≤ q.lowmark
  | 2 => fld d.trk.cause 0 4
  | 3 => if sub = 1 then d.flt.tflag.toNat else d.regionBits fun r => r.flt.tflag ≠ 0
  | 4 => if sub = 1 then d.flt.pflag.toNat else d.regionBits fun r => r.flt.pflag ≠ 0
  | 5 => bitsNat [d.datum.refLost, d.datum.ppsLost, bit d.trk.cause 13, bit d.trk.cause 14, d.rtc.timeLost]
  | 6 => if sub = 1 then d.portBits fun p => p.rx.gauge.isOver else d.portBits fun p => p.rx.gauge.nfOver
  | 7 => d.cfg.flags.toNat % 16
  | 8 => d.upd.flags.toNat
  | 9 => d.sec.stat.toNat
  | 10 => d.pwr.flag.toNat
  | 11 => fld d.trk.cause 4 8
  | 12 => fld d.trk.cause 16 16
  | _ => bitsNat [bit d.trk.cause 12, bit d.trk.cause 15]

/-- A W1C write of cause flags through a detail object (R262). -/
def Dev.clearDetail (d : Dev) (b sub v : Nat) : Dev :=
  let w : Word := BitVec.ofNat 32 v
  let cause := fun (m : Word) => { d with trk := { d.trk with cause := d.trk.cause &&& ~~~m } }
  let each := fun (f : RegFault → RegFault) =>
    (List.finRange 4).foldl (fun d r => if bit w r.val then d.modRegFlt r f else d) d
  let gauges := fun (f : Gauge → Gauge) =>
    (List.finRange 24).foldl (fun d p => if bit w p.val then d.modGauge p f else d) d
  match b with
  | 2 => cause (w &&& 0xF)
  | 3 => if sub = 1 then d.fltWrite 0 w else each fun f => { f with tflag := 0 }
  | 4 => if sub = 1 then d.fltWrite 4 w else each fun f => { f with pflag := 0 }
  | 5 =>
    let d := cause (pack [(13, v / 4 % 2), (14, v / 8 % 2)])
    let d := { d with datum := { d.datum with refLost := d.datum.refLost && !bit w 0, ppsLost := d.datum.ppsLost && !bit w 1 } }
    if bit w 4 then { d with rtc := d.rtc.write 0x14 2 } else d
  | 6 => if sub = 1 then gauges fun g => { g with isOver := false } else gauges fun g => { g with nfOver := false }
  | 7 => { d with cfg := { d.cfg with flags := d.cfg.flags &&& ~~~(BitVec.ofNat 5 (v % 16)) } }
  | 8 => { d with upd := { d.upd with flags := d.upd.flags &&& ~~~(BitVec.ofNat 8 v) } }
  | 9 => { d with sec := { d.sec with stat := d.sec.stat &&& ~~~(BitVec.ofNat 7 v) } }
  | 10 => { d with pwr := { d.pwr with flag := d.pwr.flag &&& ~~~(BitVec.ofNat 9 v) } }
  | 11 => cause (BitVec.ofNat 32 (v % 256 * 16))
  | 12 => cause (BitVec.ofNat 32 (v % 65536 * 65536))
  | 13 => cause (pack [(12, v % 2), (15, v / 2 % 2)])
  | _ => d

/-- An entry of the fault log in bytes (R432). -/
def LogEntry.bytes (e : LogEntry) : List Byte :=
  natBytes 6 e.t.toNat ++ [BitVec.ofNat 8 e.kind, BitVec.ofNat 8 e.utype] ++ natBytes 2 e.unit ++
    [BitVec.ofNat 8 e.cause, BitVec.ofNat 8 e.count] ++ natBytes 4 e.seq

/-- The retirement list in bytes (R432). -/
def Dev.retBytes (d : Dev) : List Byte :=
  natBytes 2 d.flt.list.length ++ (d.flt.list.map fun e => [BitVec.ofNat 8 e.1, 0#8] ++ natBytes 2 e.2).flatten

/-! ### The catalogue -/

/-- A range of numbers. -/
def within (lo hi : Int) (v : Int) : Bool := lo ≤ v && v ≤ hi

/-- ASCII bytes of a text. -/
def ascii (s : String) : List Byte := s.toList.map fun c => BitVec.ofNat 8 c.toNat

/-- An RO number. -/
def roCalc (n : Nat) (f : Dev → Nat) : Obj := { acc := .ro, ty := .nat n, src := .calc f }

/-- An RO register field. -/
def roField (n a lo len : Nat) : Obj := { acc := .ro, ty := .nat n, src := .field a lo len }

/-- An RWP field. -/
def rwpField (n a lo len : Nat) (ok : Int → Bool) (dflt : Int) : Obj := { acc := .rwp, ty := .nat n, src := .field a lo len, ok, dflt }

/-- An RWP BOOL. -/
def rwpBool (a lo : Nat) (dflt : Int) : Obj := { acc := .rwp, ty := .bool, src := .field a lo 1, ok := within 0 1, dflt }

/-- A WO BOOL that acts when 1 is written. -/
def woBool (a lo : Nat) : Obj := { acc := .wo, ty := .bool, src := .field a lo 1, ok := within 0 1 }

/-- Every value. -/
def anyVal (_ : Int) : Bool := true

/-- Window centres in Hz (R72). -/
def hzOk : Int → Bool := within 400000000 960000000

/-- A watcher configuration of watcher i obeys R77.
(Log entry 75 DEDUCED.) -/
def wcfgOk (i : Nat) (v : Int) : Bool := within 0 0x7FF v && chanOk i (v.toNat / 2 % 4)

/-- The objects of port p, index j (R307). -/
def portObj (p : PortId) (j sub : Nat) : Obj :=
  let a := fun (o : Nat) => portBase p + o
  match j with
  | 0 => match sub with
    | 1 => rwpBool (a 0) 0 0
    | 2 => rwpBool (a 0) 1 0
    | 3 => rwpBool (a 0) 2 1
    | 4 => rwpBool (a 0) 3 0
    | 5 => rwpField 1 (a 0) 8 5 (within 0 31) 0
    | 6 => rwpField 1 (a 0) 16 6 (within 0 48) 4
    | 7 => rwpBool (a 0) 24 1
    | _ => rwpBool (a 0) 25 1
  | 1 => match sub with
    | 1 => rwpField 4 (a 4) 0 30 hzOk 400000000
    | 2 => rwpField 1 (a 8) 0 8 anyVal 0
    | 3 => rwpField 1 (a 8) 8 8 anyVal 0
    | _ => rwpBool (a 8) 16 0
  | 2 => match sub with
    | 1 => { acc := .rw, ty := .nat 1, src := .field (a 0xC) 0 5, ok := within 0 31 }
    | 2 => { acc := .ro, ty := .bool, src := .field (a 0x10) 0 1 }
    | 3 => woBool (a 0x10) 1
    | _ => rwpField 1 (a 0x10) 8 4 (within 0 15) 6
  | 3 => rwpField 2 (a (0x1000 + 4 * (sub - 1))) 0 11 (wcfgOk (sub - 1)) 0x7F3
  | 4 => match sub with
    | 1 => rwpBool (a 0x8400) 0 0
    | 2 => rwpField 1 (a 0x8400) 8 6 (within 2 32) 8
    | 3 => rwpField 1 (a 0x8400) 16 4 (within 0 15) 4
    | 4 => { acc := .rwp, ty := .int 2, src := .field (a 0x8404) 0 8, ok := within (-20) 28 }
    | _ => rwpField 1 (a 0x8408) 0 8 anyVal 0
  | 5 => match sub with
    | 1 => rwpField 1 (a 0x8000) 0 2 (within 0 3) 0
    | 2 => rwpField 1 (a 0x8000) 8 5 (within 0 31) 15
    | _ => roField 4 (a 0x8004) 0 32
  | 6 => rwpField 4 (a (0x8100 + 8 * (sub - 1))) 0 30 (fun v => v = 0 || hzOk v) 0
  | 7 => rwpBool (a (0x8104 + 8 * (sub - 1))) 1 0
  | 8 => match sub with
    | 1 => { acc := .ro, ty := .nat 8, src := .gated (a 0x8104) fun d => bitsNat ((d.ports[p]).syn.bm.toList.map (·.valid)) }
    | _ => woBool (a 0x8010) 0
  | 9 => match sub with
    | 1 => { acc := .rw, ty := .nat 2, src := .field (a 0x8800) 0 14, ok := within 0 0x3FFF }
    | 2 => roField 4 (a 0x8804) 0 32
    | 3 => woBool (a 0x8804) 1
    | 4 => rwpField 1 (a 0x8804) 8 6 (within 0 63) 19
    | 5 => rwpField 1 (a 0x8804) 16 6 (within 0 63) 30
    | _ => roField 4 (a 0x8808) 0 32
  | 10 => match sub with
    | 1 => rwpBool (a 0x8C00) 1 1
    | 2 => woBool (a 0x8C00) 0
    | 3 => roField 4 (a 0x8C00) 0 32
    | 4 => roField 2 (a 0x8C04) 0 16
    | 5 => rwpBool (a 0x8C10) 0 0
    | _ => rwpField 1 (a 0x8C10) 8 8 anyVal 60
  | 11 => match sub with
    | 1 => rwpField 1 (a 0x200) 0 8 anyVal 10
    | _ => woBool (a 0x200) 8
  | 12 => match sub with
    | 1 => roField 4 (a 0x14) 0 32
    | _ => roField 4 (a 0x840C) 0 32
  | 13 => if sub = 21 then woBool (a 0x1C) 0 else roField 4 (a (0x100 + 4 * (sub - 1))) 0 32
  | 14 => match sub with
    | 6 => { acc := .ro, ty := .nat 8, src := .pair (a 0x8458) }
    | 7 => woBool (a 0x8414) 0
    | _ => roField 4 (a (0x8440 + 4 * (sub - 1))) 0 32
  | _ => match sub with
    | 1 => rwpField 2 (a 0xF018) 16 16 anyVal 1000
    | 2 => rwpField 1 (a 0xF018) 0 5 (within 0 31) 4
    | 3 => rwpBool (a 0xF018) 5 0
    | 4 => roField 4 (a 0xF01C) 0 32
    | _ => roField 4 (a (0xF040 + 4 * (sub - 5))) 0 32

/-- The highest subindex of index j of a port. -/
def portMax (j : Nat) : Option Nat := [8, 4, 4, 64, 5, 3, 64, 64, 2, 6, 6, 2, 2, 21, 7, 10][j]?

/-- The link objects of region r (R309). -/
def linkObj (r : RegionId) (sub : Nat) : Obj :=
  let a := fun (o : Nat) => regionPage r 2 + o
  match sub with
  | 1 => rwpBool (a 0x8000) 0 1
  | 2 => rwpBool (a 0x8000) 1 1
  | 3 => rwpField 1 (a 0x8000) 8 5 (within 8 31) 8
  | 4 => rwpField 1 (a 0x8000) 16 5 (within 4 24) 14
  | 5 => rwpField 1 (a 0x8000) 24 4 (within 0 15) 3
  | 6 => rwpField 1 (a 0x8000) 28 4 (within 1 15) 4
  | 7 => rwpField 1 (a 0x8008) 0 5 (within 0 31) 1
  | 8 => rwpField 1 (a 0x8008) 8 5 (within 0 31) 2
  | 9 => rwpField 1 (a 0x8008) 16 5 (within 0 31) 3
  | 10 => rwpField 2 (a 0x800C) 0 16 anyVal 4100
  | 11 => rwpField 2 (a 0x800C) 16 12 (within 0 4095) 2000
  | _ => rwpField 4 (a 0x8030) 0 22 (within 2000 4000000) 1000000

/-- The gauge objects of a port (R315). -/
def gaugeObj (p : PortId) (sub : Nat) : Obj :=
  let a := fun (o : Nat) => portBase p + o
  match sub with
  | 1 => rwpBool (a 0x3000) 0 1
  | 2 => rwpField 1 (a 0x3000) 8 8 anyVal 30
  | 3 => rwpField 1 (a 0x3000) 16 8 anyVal 25
  | 4 => { acc := .ro, ty := .int 2, src := .field (a 0x3004) 0 16 }
  | 5 => { acc := .ro, ty := .int 2, src := .field (a 0x3008) 0 16 }
  | 6 => roField 2 (a 0x300C) 0 16
  | 7 => { acc := .ro, ty := .nat 6, src := .pair (a 0x3010) }
  | 8 => roField 1 (a 0x3004) 16 8
  | _ => woBool (a 0x3000) 1

/-- The region whose link page serves the chip-wide link registers: the first in service.
(Log entry 75 DEDUCED.) -/
def Dev.linkRegion (d : Dev) : RegionId := ((List.finRange 4).find? fun r => !(d.regions[r]).retired).getD 0

/-- Objects of 0x1000 to 0x1002 (R304). -/
def identObj (index sub : Nat) : Obj :=
  match index, sub with
  | 0x1000, 1 => { acc := .const, ty := .text, src := .text (ascii "Skastad") }
  | 0x1000, 2 => { acc := .const, ty := .text, src := .text (ascii "HV2448-M45") }
  | 0x1000, 3 => { acc := .const, ty := .nat 8, src := .calc fun _ => Config.serial.toNat }
  | 0x1000, 4 => { acc := .const, ty := .nat 2, src := .calc fun _ => Config.hwRev.toNat }
  | 0x1000, 5 => { acc := .const, ty := .nat 4, src := .calc fun _ => Config.romVer.toNat }
  | 0x1000, _ => roCalc 4 fun d => if d.img.valid then d.img.version.toNat else 0
  | 0x1001, 1 => roCalc 1 Dev.stateCode
  | 0x1001, 2 => roCalc 1 fun d => match d.pwr.phase with | .dead c => c | _ => 0
  | 0x1001, 3 => roCalc 8 fun d => d.datum.now.toNat
  | 0x1001, _ => roCalc 6 fun d => d.pwr.runT.toNat
  | _, _ => roCalc 2 fun d => d.attn.toNat

/-- Bytes of a detail object. -/
def detailSize (b sub : Nat) : Nat :=
  match b with
  | 0 => 4 | 1 => 4 | 3 => if sub = 1 then 4 else 1 | 4 => if sub = 1 then 4 else 1 | 6 => 4 | 10 => 2 | 12 => 2 | _ => 1

/-- The ATTN detail object of bit b (R305). -/
def detailObj (b sub : Nat) : Obj :=
  { acc := if b < 2 then .ro else .rw, ty := .nat (detailSize b sub), src := .special (.detail b sub) fun d => d.detail b sub }

/-- Objects of 0x2000 to 0x2030 (R306). -/
def deviceObj (index sub : Nat) : Obj :=
  match index, sub with
  | 0x2000, 1 => roField 4 (chipPage 7) 0 32
  | 0x2000, _ => roField 4 (chipPage 7 + 4) 0 32
  | 0x2010, 1 => { acc := .rwp, ty := .nat 1, src := .own, ok := within 0 7 }
  | 0x2010, 2 => { acc := .rwp, ty := .nat 1, src := .own, ok := within 0 3, dflt := 2 }
  | 0x2010, 3 => { acc := .rwp, ty := .nat 1, src := .own, ok := within 0 3, dflt := 1 }
  | 0x2010, 4 => roField 1 (chipPage 8) 4 7
  | 0x2010, _ => roCalc 1 fun d => d.can.straps
  | _, 1 => roField 4 (chipPage 9) 0 32
  | _, 2 => roField 4 (chipPage 9 + 8) 0 32
  | _, 3 => roField 4 (chipPage 9 + 4) 0 32
  | _, 4 => roField 1 (chipPage 9 + 0x10) 0 8
  | _, _ => woBool (chipPage 9 + 0xC) 0

/-- Objects of 0x4020 + r (R308). -/
def laneObj (r : RegionId) (sub : Nat) : Obj :=
  match sub with
  | 1 => roCalc 2 fun d => d.laneCap r
  | 2 => roCalc 2 fun d => (d.regionJobs r).length
  | 3 => roCalc 1 fun d => d.lookBits r
  | 4 => roCalc 1 fun d => (d.regions[r]).second.used
  | _ => roField 1 (regionPage r 2 + 0x100) 0 4

/-- Objects of 0x5000, 0x5100 and 0x5101 (R309, R311); `r` serves the chip-wide registers. -/
def contextObj (r : RegionId) (index sub : Nat) : Obj :=
  let a := fun (o : Nat) => regionPage r 2 + o
  match index, sub with
  | 0x5000, 1 => rwpField 4 (a 0x8004) 0 32 (within 0 0xFFFFFFFE) 0
  | 0x5000, 2 => rwpField 4 (a 0x8010) 0 22 (within 2000 4000000) 2000000
  | 0x5000, 3 => rwpField 2 (a 0x8014) 0 12 (within 0 4095) 0
  | 0x5000, 4 => { acc := .rw, ty := .nat 4, src := .field (a 0x8018) 0 24, ok := within 0 16777215 }
  | 0x5000, _ => roCalc 2 fun d => d.installedCtxs.length
  | 0x5100, 1 => { acc := .rw, ty := .nat 2, src := .special .ctxSel fun d => d.tdp.ctxSel, ok := within 0 4095 }
  | 0x5100, 2 => { acc := .rw, ty := .nat 2, src := .special .ctxCount fun d => d.tdp.ctxCount, ok := within 1 4096, dflt := 1 }
  | 0x5100, _ => { acc := .rw, ty := .domain, src := .dom .ctxData }
  | _, 1 => { acc := .rw, ty := .nat 2, src := .special .opIndex fun d => d.tdp.op.index, ok := within 0 4095 }
  | _, 2 => { acc := .rw, ty := .nat 4, src := .special .opKey fun d => d.tdp.op.key.toNat }
  | _, 3 => { acc := .rw, ty := .bool, src := .special .opShort fun d => b2n d.tdp.op.short, ok := within 0 1 }
  | _, 4 => { acc := .wo, ty := .nat 1, src := .special .opGo fun _ => 0, ok := within 1 3 }
  | _, _ => roCalc 1 fun d => d.tdp.op.status

/-- Objects of 0x6000 to 0x6010 (R312). -/
def secObj (index sub : Nat) : Obj :=
  let a := fun (o : Nat) => chipPage 6 + o
  match index, sub with
  | 0x6000, 1 => roField 1 (a 0x2000) 0 6
  | 0x6000, 2 => roField 2 (a 0x102C) 0 14
  | 0x6000, 3 => roField 4 (a 0x1030) 0 32
  | 0x6000, 4 => roField 4 (a 0x3010) 0 32
  | 0x6000, 5 => roField 4 (a 0x300C) 0 32
  | 0x6000, 6 => { acc := .ro, ty := .bool, src := .field (a 0x4014) 8 1 }
  | 0x6000, 7 => rwpField 2 (a 0x5004) 0 16 (within 1 65535) 64
  | 0x6000, 8 => rwpField 1 (a 0x5004) 16 8 (within 1 255) 10
  | 0x6000, _ => roField 2 (a 0x5008) 0 16
  | 0x6001, _ => { acc := .ro, ty := .domain, src := .dom .attPub }
  | 0x6002, _ => { acc := .ro, ty := .domain, src := .dom .cert }
  | 0x6003, _ => { acc := .ro, ty := .domain, src := .dom .dbgChal }
  | _, 1 => { acc := .rw, ty := .domain, src := .dom .attest }
  | _, _ => roCalc 1 fun d => d.att.dictStatus

/-- VCORE in mV at a code (R411). -/
def milliVolts (code : Nat) : Nat := 600 + 10 * code

/-- Objects of 0x7000 to 0x7020 (R314). -/
def timeObj (index sub : Nat) : Obj :=
  let a := fun (o : Nat) => chipPage 3 + o
  match index, sub with
  | 0x7000, 1 => roCalc 8 fun d => d.datum.now.toNat
  | 0x7000, 2 => roField 2 (a 0x800C) 0 16
  | 0x7000, 3 => { acc := .rw, ty := .int 4, src := .field (a 0x8010) 0 32, ok := within (-100000) 100000 }
  | 0x7000, 4 => { acc := .ro, ty := .int 4, src := .field (a 0x8030) 0 32 }
  | 0x7000, 5 => { acc := .ro, ty := .nat 6, src := .pair (a 0x8028) }
  | 0x7000, 6 => { acc := .rw, ty := .int 4, src := .special .step fun d => (lo32 d.datum.step).toNat }
  | 0x7000, 7 => { acc := .rw, ty := .bool, src := .field (a 0x8008) 2 1, ok := within 0 1 }
  | 0x7000, 8 => woBool (a 0x8008) 1
  | 0x7000, _ => woBool (a 0x8008) 0
  | 0x7001, 1 => rwpBool (a 0x8034) 0 1
  | 0x7001, 2 => rwpBool (a 0x8034) 1 0
  | 0x7001, 3 => rwpField 1 (a 0x8034) 8 8 anyVal 10
  | 0x7001, 4 => rwpField 2 (a 0x8034) 16 16 anyVal 60
  | 0x7001, _ => { acc := .rwp, ty := .int 2, src := .field (a 0x8038) 0 16 }
  | 0x7010, 1 => roCalc 1 fun d => b2n d.rtc.mode
  | 0x7010, 2 => roCalc 4 fun d => if d.rtc.mode then 0 else d.rtc.count / 65536
  | 0x7010, 3 => roCalc 8 fun d => if d.rtc.mode then d.rtc.time.toNat % 2 ^ 24 + 2 ^ 24 * (d.rtc.date.toNat % 2 ^ 24) else 0
  | 0x7010, 4 => { acc := .ro, ty := .bool, src := .calc fun d => b2n d.rtc.timeLost }
  | 0x7010, _ => roCalc 4 fun d => if d.rtc.firstswv then d.rtc.firstsw.toNat else 0
  | _, 1 => roCalc 2 fun d => d.pwr.vin
  | _, 2 => { acc := .ro, ty := .int 2, src := .calc fun d => sN 16 d.pwr.temp }
  | _, 3 => roCalc 1 fun d => d.pwr.wakeSrc
  | _, s =>
    let r : RegionId := Fin.ofNat 4 s
    if s < 8 then roCalc 2 fun d => milliVolts ((d.regions[r]).pwr.at_ d.now)
    else roCalc 1 fun d => (d.regions[r]).pwr.pace

/-- Objects of 0x8000 to 0x8003 (R315). -/
def faultObj (index sub : Nat) : Obj :=
  match index, sub with
  | 0x8000, 1 => roCalc 1 Dev.stateCode
  | 0x8000, 2 => rwpField 1 (chipPage 10 + 8) 0 4 (within 2 15) 3
  | 0x8000, 3 => rwpField 2 (chipPage 10 + 8) 16 12 (within 1 3600) 10
  | 0x8000, 4 => roCalc 2 Dev.lanesInService
  | 0x8000, 5 => roCalc 2 Dev.watchersInService
  | 0x8000, 6 => roCalc 4 fun d => d.portBits fun p => !p.rx.retired
  | 0x8000, 7 => roCalc 1 fun d => bitsNat ((List.finRange 8).map fun c => !(d.cores[c]).retired)
  | 0x8000, 8 => roCalc 4 fun d => d.perRegion 8 fun r => (~~~(d.regions[r]).banks).toNat
  | 0x8000, 9 => roCalc 1 fun d => d.regionBits fun r => !r.retired
  | 0x8000, 10 => roCalc 2 fun d => d.perRegion 4 d.lookBits
  | 0x8000, _ => roCalc 2 fun d => d.perRegion 4 d.pipeBits
  | 0x8001, _ => { acc := .ro, ty := .domain, src := .dom .faultLog }
  | 0x8002, _ => { acc := .ro, ty := .domain, src := .dom .retList }
  | _, _ => { acc := .wo, ty := .bool, src := .special .clearRet fun _ => 0, ok := within 0 1 }

/-- Number of the lock holder in object 0x9001. -/
def Dev.lockCode (d : Dev) : Nat := match d.upd.holder with | some c => c.val + 1 | none => 0

/-- Objects of 0x9000 to 0x9010 (R316). -/
def updObj (index : Nat) : Obj :=
  match index with
  | 0x9000 => roCalc 1 fun d => d.upd.state
  | 0x9001 => { acc := .rw, ty := .nat 1, src := .special .lock Dev.lockCode, ok := within 0 1 }
  | 0x9002 => { acc := .wo, ty := .bool, src := .special .commit fun _ => 0, ok := within 0 1 }
  | 0x9003 => { acc := .wo, ty := .bool, src := .special .abortUpd fun _ => 0, ok := within 0 1 }
  | 0x9004 => { acc := .ro, ty := .domain, src := .dom .imgHash }
  | 0x9005 => roCalc 4 fun d => d.upd.received
  | _ => { acc := .wo, ty := .domain, src := .dom .image }

/-- The highest subindex of an index; `none`: no object there (R299). -/
def indexMax (i : Nat) : Option Nat :=
  if 0x3000 ≤ i ∧ i < 0x3300 then portMax ((i - 0x3000) % 32)
  else if 0x4000 ≤ i ∧ i < 0x4018 then some 48
  else if 0x4020 ≤ i ∧ i < 0x4024 then some 5
  else if 0x5010 ≤ i ∧ i < 0x5014 then some 12
  else if 0x5020 ≤ i ∧ i < 0x5024 then some 22
  else if 0x8100 ≤ i ∧ i < 0x8118 then some 9
  else match i with
    | 0x1000 => some 6 | 0x1001 => some 4 | 0x1002 => some 0
    | 0x1010 => some 4 | 0x1011 => some 4 | 0x1012 => some 0 | 0x1013 => some 2 | 0x1014 => some 2 | 0x1015 => some 0
    | 0x1016 => some 2 | 0x1017 => some 0 | 0x1018 => some 0 | 0x1019 => some 0 | 0x101A => some 0 | 0x101B => some 0
    | 0x101C => some 0 | 0x101D => some 0
    | 0x2000 => some 2 | 0x2010 => some 5 | 0x2030 => some 5
    | 0x5000 => some 5 | 0x5100 => some 3 | 0x5101 => some 5
    | 0x6000 => some 9 | 0x6001 => some 0 | 0x6002 => some 0 | 0x6003 => some 0 | 0x6010 => some 2
    | 0x7000 => some 9 | 0x7001 => some 5 | 0x7010 => some 5 | 0x7020 => some 11
    | 0x8000 => some 11 | 0x8001 => some 0 | 0x8002 => some 0 | 0x8003 => some 0
    | 0x9000 => some 0 | 0x9001 => some 0 | 0x9002 => some 0 | 0x9003 => some 0 | 0x9004 => some 0 | 0x9005 => some 0
    | 0x9010 => some 0
    | _ => none

/-- The object of an index and a subindex that exist. -/
def objOf (d : Dev) (i sub : Nat) : Obj :=
  if i < 0x1010 then identObj i sub
  else if i < 0x2000 then detailObj (i - 0x1010) sub
  else if i < 0x3000 then deviceObj i sub
  else if i < 0x4000 then portObj (Fin.ofNat 24 ((i - 0x3000) / 32)) ((i - 0x3000) % 32) sub
  else if i < 0x4020 then roField 4 (portBase (Fin.ofNat 24 (i - 0x4000)) + 0x2000 + 4 * (sub - 1)) 0 32
  else if i < 0x5000 then laneObj (Fin.ofNat 4 i) sub
  else if 0x5010 ≤ i ∧ i < 0x5020 then linkObj (Fin.ofNat 4 i) sub
  else if 0x5020 ≤ i ∧ i < 0x5030 then
    (if sub = 22 then woBool (regionPage (Fin.ofNat 4 i) 2 + 0x802C) 0
     else roField 4 (regionPage (Fin.ofNat 4 i) 2 + 0x8040 + 4 * (sub - 1)) 0 32)
  else if i < 0x6000 then contextObj d.linkRegion i sub
  else if i < 0x7000 then secObj i sub
  else if i < 0x8000 then timeObj i sub
  else if i < 0x8100 then faultObj i sub
  else if i < 0x9000 then gaugeObj (Fin.ofNat 24 (i - 0x8100)) sub
  else updObj i

/-- The object at an index and subindex, or the ABORT code NOOBJ or NOSUB (R299). -/
def objAt (d : Dev) (i sub : Nat) : Except Nat Obj :=
  match indexMax i with
  | none => .error 2
  | some 0 => if sub = 0 then .ok (objOf d i 0) else .error 3
  | some m =>
    if sub = 0 then .ok { acc := .const, ty := .nat 1, src := .calc fun _ => m }
    else if sub ≤ m then .ok (objOf d i sub)
    else .error 3

/-! ### Reading and writing bound fields -/

/-- The dictionary's access meets a domain that is not ready (R303, R410): a bus error, or a hold with the wake begun.
Other gates of the access are those of every access. -/
def Dev.dictGate (d : Dev) (a : Nat) : Dev × Option Wr :=
  match winOf a with
  | .region r page _ => d.regionGate r page
  | .port p o => d.portGate p o true
  | _ => (d, none)

/-- The dictionary reads a register; a bus error ends with STATE (R303). No hold is met here: a message whose object lies
in a domain that is not ready waits before it is handled. -/
def dictLoad (a : Nat) (s : State) : State × Except Nat Word :=
  match s.busRead dictInit a 4 false with
  | (s, .data w) => (s, .ok w)
  | (s, _) => (s, .error 0x0F)

/-- The dictionary writes a register; `false`: a bus error. -/
def dictStore (a : Nat) (v : Word) (s : State) : State × Bool :=
  match s.busWrite dictInit a 4 v with
  | (s, .done) => (s, true)
  | (s, _) => (s, false)

/-- W1C and WO bits of the registers that hold bound fields beside them: a write of one field leaves them alone. -/
def actMask (a : Nat) : Word :=
  match winOf a with
  | .port _ o => if o = 0x10 ∨ o = 0x8804 then 0xE else 0
  | _ => 0

/-- A write of one field with every other field unchanged (R300). -/
def fieldStore (a lo len v : Nat) (s : State) : State × Bool :=
  match dictLoad a s with
  | (s, .ok w) => dictStore a (setFld (w &&& ~~~(actMask a)) lo len v) s
  | (s, .error _) => (s, false)

/-- The port or region of an address is retired (R303). -/
def Dev.retiredAt (d : Dev) (a : Nat) : Bool :=
  match winOf a with
  | .region r _ _ => (d.regions[r]).retired
  | .port p _ => (d.ports[p]).rx.retired || (d.regions[regionOfPort p]).retired
  | _ => false

/-- The value of an RWP object (R301). -/
def Dev.rwpValue (d : Dev) (index : BitVec 16) (sub : Byte) (o : Obj) : List Byte :=
  match d.tdp.rwp.find? fun x => x.1 = index && x.2.1 = sub with
  | some x => x.2.2
  | none => o.default_

/-- An RWP object takes a value; values that equal the default are not listed.
(Log entry 75 DEDUCED.) -/
def Dev.setRwp (d : Dev) (index : BitVec 16) (sub : Byte) (o : Obj) (v : List Byte) : Dev :=
  let rest := d.tdp.rwp.filter fun x => !(x.1 = index && x.2.1 = sub)
  { d with tdp := { d.tdp with rwp := if v = o.default_ then rest else rest ++ [(index, sub, v)] } }

/-- In DEAD the RO objects of 0x8000 to 0x8FFF give their values as they stood on entry to it (R303). -/
def Dev.deadVal (d : Dev) (o : Obj) (index : BitVec 16) (sub : Byte) : Option (List Byte) :=
  match d.pwr.phase with
  | .dead _ =>
    if o.acc = .ro ∧ 0x8000 ≤ index.toNat ∧ index.toNat < 0x9000 then
      (d.flt.deadVals.find? fun x => x.1 = index && x.2.1 = sub).map (·.2.2)
    else none
  | _ => none

/-- A read of an object that is not a domain: its bytes, or an ABORT code (R266, R300, R301).
(Log entry 75 DEDUCED.) -/
def objRead (o : Obj) (index : BitVec 16) (sub : Byte) (s : State) : State × Except Nat (List Byte) :=
  let num := fun (s : State) (v : Int) => (s, (Except.ok (o.ty.encode v) : Except Nat (List Byte)))
  match o.acc, s.d.deadVal o index sub with
  | .wo, _ => (s, .error 5)
  | .rwp, _ => (s, .ok (s.d.rwpValue index sub o))
  | _, some l => (s, .ok l)
  | _, none =>
    match o.src with
    | .own => (s, .ok (s.d.rwpValue index sub o))
    | .text l => (s, .ok l)
    | .calc f => num s (f s.d)
    | .gated a f =>
      match dictLoad a s with
      | (s, .error e) => (s, .error e)
      | (s, .ok _) => num s (f s.d)
    | .special _ f => num s (f s.d)
    | .dom _ => (s, .error 1)
    | .pair a =>
      match dictLoad a s with
      | (s, .error e) => (s, .error e)
      | (s, .ok lo) =>
        match dictLoad (a + 4) s with
        | (s, .error e) => (s, .error e)
        | (s, .ok hi) => num s (join64 hi lo).toNat
    | .field a lo len =>
      match dictLoad a s with
      | (s, .error e) => (s, .error e)
      | (s, .ok w) => num s (match o.ty with | .int _ => nS len (fld w lo len) | _ => fld w lo len)

/-- What a special object does with a value (R262, R309 to R316): an ABORT code, or nothing to complain of.
(Log entry 75 DEDUCED.) -/
def specialWrite (k : Special) (c : Carrier) (v : Int) (flashOk : Bool) (d : Dev) : Dev × Option Nat :=
  let n := v.toNat
  let op := d.tdp.op
  let put := fun (o : CtxOp) => ({ d with tdp := { d.tdp with op := o } }, (none : Option Nat))
  match k with
  | .detail b sub => (d.clearDetail b sub n, none)
  | .step => ({ d with datum := { d.datum with step := BitVec.ofInt 64 v } }, none)
  | .ctxSel => ({ d with tdp := { d.tdp with ctxSel := n } }, none)
  | .ctxCount => ({ d with tdp := { d.tdp with ctxCount := n } }, none)
  | .opIndex => put { op with index := n }
  | .opKey => put { op with key := BitVec.ofNat 32 n }
  | .opShort => put { op with short := n = 1 }
  | .opGo =>
    if op.status = 1 then (d, some 0x0F)
    else let x := d.ctxRun none { op with op := n }; ({ x.1 with tdp := { x.1.tdp with op := x.2 } }, none)
  | .clearRet => (if n = 1 then { d with flt := { d.flt with clearRet := true } } else d, none)
  | .lock =>
    match d.updRefusal c with
    | some e => (d, some e)
    | none => (if n = 1 then d.updClaim c else if d.upd.holder.isSome then d.updRelease else d, none)
  | .commit =>
    match d.updRefusal c with
    | some e => (d, some e)
    | none =>
      if n = 1 then
        match d.updCommit c flashOk with
        | .error e => (d, some e)
        | .ok d => (d, none)
      else (d, none)
  | .abortUpd =>
    match d.updRefusal c with
    | some e => (d, some e)
    | none => if n = 1 then d.updAbort else (d, none)

/-- The access right to write (R266): an ABORT code. -/
def Obj.noWrite (o : Obj) : Option Nat := match o.acc with | .const => some 4 | .ro => some 4 | _ => none

/-- Type and range of a written value (R267): an ABORT code.
(Log entry 75 DEDUCED.) -/
def Obj.refuses (o : Obj) (l : List Byte) : Option Nat :=
  if o.ty.size ≠ some l.length then some 6
  else if o.ok (o.ty.decode l) && (o.ty ≠ .bool || o.ty.decode l ≤ 1) then none
  else some 7

/-- A write of an object that is not a domain: an ABORT code, or done (R266, R267, R300, R301, R303). -/
def objWrite (o : Obj) (c : Carrier) (index : BitVec 16) (sub : Byte) (l : List Byte) (flashOk : Bool) (s : State) :
    State × Option Nat :=
  match o.noWrite with
  | some e => (s, some e)
  | none =>
    match o.refuses l with
    | some e => (s, some e)
    | none =>
      let v := o.ty.decode l
      let keep := fun (s : State) =>
        if o.acc = .rwp then { s with d := (s.d.setRwp index sub o l).queueRec { index, sub, value := l } } else s
      match o.src with
      | .own => (keep s, none)
      | .special k _ => let x := specialWrite k c v flashOk s.d; ({ s with d := x.1 }, x.2)
      | .field a lo len =>
        if o.acc = .rwp ∧ s.d.retiredAt a then (keep s, none)
        else if o.acc = .wo ∧ v = 0 then (s, if s.d.retiredAt a then some 0x0F else none)
        else
          let x := fieldStore a lo len (sN 32 v) s
          if x.2 then (keep x.1, none) else (x.1, some 0x0F)
      | _ => (s, some 4)

/-- A register's word as the value of an RWP object is put into its field at a start or on a wake: the page of a
sleeping domain takes it too, for its registers stand (R301, R408, R409).
(Log entry 75 DEDUCED.) -/
def Dev.pageWord (d : Dev) (a : Nat) : Word :=
  match winOf a with
  | .chip page o => match (d.chipRead dictInit page o).2 with | .data w => w | _ => 0
  | .region r page o => match (d.regionRead dictInit r page o).2 with | .data w => w | _ => 0
  | .port p o => d.portRead p o
  | _ => 0

/-- The same, written. -/
def pageStore (a : Nat) (v : Word) (s : State) : State :=
  match winOf a with
  | .chip page o => (chipWrite dictInit page o v s).1
  | .region r page o => (regionWrite dictInit r page o v s).1
  | .port p o => { s with d := s.d.portWrite p o v }
  | _ => s

/-- Each RWP value goes into its field (R301); a retired port or region is passed over. -/
def applyRwp : List (BitVec 16 × Byte × List Byte) → State → State
  | [], s => s
  | x :: l, s =>
    match objAt s.d x.1.toNat x.2.1.toNat with
    | .error _ => applyRwp l s
    | .ok o =>
      match o.src with
      | .field a lo len =>
        if s.d.retiredAt a then applyRwp l s
        else applyRwp l (pageStore a (setFld (s.d.pageWord a &&& ~~~(actMask a)) lo len (sN 32 (o.ty.decode x.2.2))) s)
      | _ => applyRwp l s

/-- The bound RWP objects that the responder serves before the fields are written at a start: their fields may hold what
the dictionary wrote then (R277, R301). -/
def earlyRwp : List (BitVec 16 × Byte) :=
  [(0x8000, 2), (0x8000, 3)] ++
    ((List.range 24).map fun p => (List.range 3).map fun k => (BitVec.ofNat 16 (0x8100 + p), BitVec.ofNat 8 (k + 1))).flatten

/-- Those of them whose value is the default and whose field differs from it. -/
def Dev.staleRwp (d : Dev) : List (BitVec 16 × Byte × List Byte) :=
  earlyRwp.filterMap fun x =>
    match objAt d x.1.toNat x.2.toNat with
    | .ok o =>
      match o.src with
      | .field a lo len =>
        if d.rwpValue x.1 x.2 o = o.default_ ∧ fld (d.pageWord a) lo len ≠ o.dflt.toNat then some (x.1, x.2, o.default_) else none
      | _ => none
    | .error _ => none

/-! ### Domains that are read -/

/-- The bytes of a domain as a read gives them; `none`: STATE, or the domain is read another way. -/
def Dev.domBytes (d : Dev) (k : Dom) : Option (List Byte) :=
  match k with
  | .attPub => some (hssPub d.drv.attSeed)
  | .cert => some ((List.range Config.certLength).map Config.certByte)
  | .dbgChal => some d.challenge
  | .attest => d.att.dictReport
  | .faultLog => some (d.flt.log.map LogEntry.bytes).flatten
  | .retList => some d.retBytes
  | .imgHash => some d.img.hash
  | .ctxData => none
  | .image => none

/-! ### What DEAD keeps of them (R303) -/

/-- The value of an object that reads without an effect. -/
def Obj.peek (o : Obj) (d : Dev) : List Byte :=
  match o.src with
  | .calc f => o.ty.encode (f d)
  | .field a lo len =>
    o.ty.encode (match o.ty with | .int _ => nS len (fld (d.pageWord a) lo len) | _ => fld (d.pageWord a) lo len)
  | .pair a => o.ty.encode (join64 (d.pageWord (a + 4)) (d.pageWord a)).toNat
  | .dom k => (d.domBytes k).getD []
  | _ => []

/-- The RO objects of 0x8000 to 0x8FFF as they stand. -/
def Dev.roFaultVals (d : Dev) : List (BitVec 16 × Byte × List Byte) :=
  let at_ := fun (i sub : Nat) => (BitVec.ofNat 16 i, BitVec.ofNat 8 sub, (objOf d i sub).peek d)
  ([1, 4, 5, 6, 7, 8, 9, 10, 11].map fun sub => at_ 0x8000 sub) ++ [at_ 0x8001 0, at_ 0x8002 0] ++
    ((List.range 24).map fun p => [4, 5, 6, 7, 8].map fun sub => at_ (0x8100 + p) sub).flatten

end Sys2Proof.Machine
end

