-- ==== Sys2Proof/Machine/Tdp.lean ====
section
/-! DEFINITION. TDP (R268 to R279): messages, segmented transfers, forwarding to firmware, and the commands that bring a
message to the dispatcher. -/

namespace Sys2Proof.Machine

/-! ### Messages (R269, R270) -/

/-- The limits of R269 on a carrier: expedited data, write segment, read segment, response message. On CAN they are
those of the form of the request frame being answered; a message that came without a frame counts as CAN FD. -/
structure TdpLimits where
  exp : Nat := 60
  wseg : Nat := 253
  rseg : Nat := 253
  resp : Nat := 256

/-- The limits in force on a carrier.
(Log entry 76 DEDUCED.) -/
def Dev.tdpLimits (d : Dev) (c : Carrier) : TdpLimits :=
  if c ≠ 0 then {}
  else match d.can.cur with
    | some r => if r.fd then { exp := 60, wseg := 61, rseg := 59, resp := 62 } else { exp := 4, wseg := 5, rseg := 3, resp := 6 }
    | none => { exp := 60, wseg := 61, rseg := 59, resp := 62 }

/-- A request message. -/
inductive TdpReq where
  | writeExp (index : BitVec 16) (sub : Byte) (data : List Byte)
  | read (index : BitVec 16) (sub : Byte)
  | writeInit (index : BitVec 16) (sub : Byte) (total : Nat)
  | segReq (seq : Byte)
  | seg (last : Bool) (seq : Byte) (data : List Byte)
  | abort (index : BitVec 16) (sub code : Byte)
  | bad (index : BitVec 16) (sub : Byte)
  deriving DecidableEq, Repr

/-- The kind and the contents of a request message (R270); bytes beyond its own length are ignored. -/
def parseTdp (lim : TdpLimits) (m : List Byte) : TdpReq :=
  let cmd := (byteAt m 0).toNat
  let n := m.length
  let index : BitVec 16 := BitVec.ofNat 16 (bytesNat (slice m 1 2))
  let sub := byteAt m 3
  let named := (cmd ≤ 0x41 || cmd = 0xC0) && 4 ≤ n
  let bad := if named then TdpReq.bad index sub else TdpReq.bad 0 0
  if n = 0 then .bad 0 0
  else if cmd ≤ 0x3C then (if 4 + cmd ≤ n then .writeExp index sub (slice m 4 cmd) else bad)
  else match cmd with
    | 0x40 => if 4 ≤ n then .read index sub else bad
    | 0x41 => if 8 ≤ n then .writeInit index sub (bytesNat (slice m 4 4)) else bad
    | 0x42 => if 2 ≤ n then .segReq (byteAt m 1) else bad
    | 0xC0 => if 5 ≤ n then .abort index sub (byteAt m 4) else bad
    | _ =>
      let len := (byteAt m 2).toNat
      if (cmd = 0x80 ∨ cmd = 0x81) ∧ 1 ≤ len ∧ len ≤ lim.wseg ∧ 3 + len ≤ n then .seg (cmd = 0x81) (byteAt m 1) (slice m 3 len)
      else bad

/-- A request message of each kind, as bytes. -/
def msgRead (index : BitVec 16) (sub : Byte) : List Byte := [0x40#8] ++ natBytes 2 index.toNat ++ [sub]

/-- WRITE_EXP; a count of data bytes that no CMD names makes an unknown CMD. -/
def msgWrite (index : BitVec 16) (sub : Byte) (data : List Byte) : List Byte :=
  [BitVec.ofNat 8 (min 0x3D data.length)] ++ natBytes 2 index.toNat ++ [sub] ++ data

/-- WRITE_INIT. -/
def msgInit (index : BitVec 16) (sub : Byte) (total : Word) : List Byte :=
  [0x41#8] ++ natBytes 2 index.toNat ++ [sub] ++ natBytes 4 total.toNat

/-- SEG and SEG_LAST. -/
def msgSeg (last : Bool) (seq : Byte) (data : List Byte) : List Byte :=
  [if last then 0x81#8 else 0x80#8, seq, BitVec.ofNat 8 (min 255 data.length)] ++ data

/-! ### Transfers -/

/-- The transfer has completed; it is kept so that its last message can be repeated. -/
def Xfer.done (x : Xfer) : Bool :=
  if x.write then x.lastResp = [0x44#8] else (x.last.isSome && byteAt x.lastResp 0 = 0x81)

/-- The transfer is one of CTXDATA. -/
def Xfer.isCtx (x : Xfer) : Bool := x.index = 0x5100 && x.sub = 3

/-- A carrier's transfer is closed; a domain closed before completion is told (R272, R310, R444). -/
def Dev.closeXfer (d : Dev) (c : Carrier) : Dev :=
  let d := match (d.tdp.car[c]).xfer with
    | some x => if x.write && x.index = 0x9010 && !x.done then d.updCut else d
    | none => d
  d.modCarrier c fun k => { k with xfer := none, fwXfer := none }

/-- The transfer of a carrier is open and its 1 s has passed (R272). -/
def Dev.xferOverdue (d : Dev) (c : Carrier) : Bool :=
  match (d.tdp.car[c]).xfer with | some x => x.at_ + secTicks ≤ d.now | none => false

/-- The 1 s limit closes a transfer.
(Log entry 76 DEDUCED.) -/
def Dev.xferTimeout (d : Dev) (c : Carrier) : Dev :=
  match (d.tdp.car[c]).xfer with
  | none => d
  | some x => (d.closeXfer c).modCarrier c fun k => { k with timedOut := if x.done then none else some (x.index, x.sub) }

/-- An answer, and the ABORT that closes the carrier's transfer with it. -/
abbrev Answer := State × Option (List Byte)

/-- ABORT from the module: the carrier's transfer closes (R272, R275). -/
def aborts (c : Carrier) (index : BitVec 16) (sub : Byte) (code : Nat) (s : State) : Answer :=
  ({ s with d := s.d.closeXfer c }, some (abortMsg index sub code))

/-- The window of CTXDATA lies within the 4096 contexts. -/
def Dev.ctxWindow (d : Dev) : Bool := d.tdp.ctxSel + d.tdp.ctxCount ≤ 4096

/-- A transfer opens. -/
def Dev.openXfer (d : Dev) (c : Carrier) (x : Xfer) : Dev := d.modCarrier c fun k => { k with xfer := some x, timedOut := none }

/-- READ of an object the HV2448 serves (R271, R273, R310).
(Log entry 76 DEDUCED.) -/
def tdpRead (c : Carrier) (index : BitVec 16) (sub : Byte) (s : State) : Answer :=
  let lim := s.d.tdpLimits c
  let start := fun (s : State) (total : Nat) (data : List Byte) =>
    ({ s with d := s.d.openXfer c { write := false, index, sub, total := some total, data, last := none, lastResp := [], pos := 0
                                    at_ := s.d.now, ctxSel := s.d.tdp.ctxSel } },
     some ([0x43#8] ++ natBytes 4 total))
  match objAt s.d index.toNat sub.toNat with
  | .error e => aborts c index sub e s
  | .ok o =>
    match o.src with
    | .dom k =>
      if o.acc = .wo then aborts c index sub 5 s
      else if k = .ctxData then
        if s.d.ctxWindow then start s (64 * s.d.tdp.ctxCount) [] else aborts c index sub 7 s
      else match (match s.d.deadVal o index sub with | some l => some l | none => s.d.domBytes k) with
        | some l => start s l.length l
        | none => aborts c index sub 0x0F s
    | _ =>
      match objRead o index sub s with
      | (s, .error e) => aborts c index sub e s
      | (s, .ok l) => if l.length ≤ lim.exp then (s, some ([BitVec.ofNat 8 l.length] ++ l)) else start s l.length l

/-- In DEAD every write to 0x9000–0x9FFF ends with DEAD (R279). -/
def Dev.deadWrite (d : Dev) (index : BitVec 16) : Bool :=
  (match d.pwr.phase with | .dead _ => true | _ => false) && 0x9000 ≤ index.toNat && index.toNat < 0xA000

/-- The answer to a message that may have given the update engine work: its job's once it is done, else `m` (R446, R447). -/
def jobAnswer (c : Carrier) (m : List Byte) (s : State) : Answer :=
  match s.d.upd.job with
  | some j =>
    if j.carrier = c then
      let x := s.d.updNext
      ({ s with d := x.1 }, x.2.map (·.2))
    else (s, some m)
  | none => (s, some m)

/-- WRITE_EXP of an object the HV2448 serves (R271). -/
def tdpWriteExp (c : Carrier) (index : BitVec 16) (sub : Byte) (l : List Byte) (flashOk : Bool) (s : State) : Answer :=
  if s.d.deadWrite index then aborts c index sub 0x0C s
  else match objAt s.d index.toNat sub.toNat with
    | .error e => aborts c index sub e s
    | .ok o =>
      match o.src with
      | .dom _ => aborts c index sub 1 s
      | _ =>
        if (s.d.tdpLimits c).exp < l.length then aborts c index sub 1 s
        else match objWrite o c index sub l flashOk s with
          | (s, some e) => aborts c index sub e s
          | (s, none) => jobAnswer c [0x44#8] s

/-- WRITE_INIT of an object the HV2448 serves (R274, R310, R313, R446).
(Log entry 76 DEDUCED.) -/
def tdpWriteInit (c : Carrier) (index : BitVec 16) (sub : Byte) (total : Nat) (s : State) : Answer :=
  let start := fun (s : State) =>
    ({ s with d := s.d.openXfer c { write := true, index, sub, total := some total, data := [], last := none, lastResp := [], pos := 0
                                    at_ := s.d.now, ctxSel := s.d.tdp.ctxSel } },
     some [0x45#8, BitVec.ofNat 8 (s.d.tdpLimits c).wseg])
  if s.d.deadWrite index then aborts c index sub 0x0C s
  else match objAt s.d index.toNat sub.toNat with
    | .error e => aborts c index sub e s
    | .ok o =>
      match o.noWrite with
      | some e => aborts c index sub e s
      | none =>
        match o.src with
        | .dom .ctxData =>
          if !s.d.ctxWindow then aborts c index sub 7 s
          else if total ≠ 64 * s.d.tdp.ctxCount then aborts c index sub 6 s
          else start s
        | .dom .attest => if total ≠ 32 then aborts c index sub 6 s else start s
        | .dom .image =>
          match s.d.updRefusal c with
          | some e => aborts c index sub e s
          | none =>
            match s.d.updInit c total with
            | .error e => aborts c index sub e s
            | .ok d => start { s with d := d }
        | _ => if o.ty.size ≠ some total then aborts c index sub 6 s else start s

/-- A context as 16 word reads (R164, R310); `none`: a word could not be read.
(Log entry 76 DEDUCED.) -/
def ctxRead (a : Nat) : Nat → State → State × Option (List Byte)
  | 0, s => (s, some [])
  | k + 1, s =>
    match s.eccRead a with
    | (s, .data w) =>
      match ctxRead (a + 4) k s with
      | (s, some l) => (s, some (natBytes 4 w.toNat ++ l))
      | (s, none) => (s, none)
    | (s, _) => (s, none)

/-- Contexts are read until n bytes stand ready (R310). -/
def ctxFill (n : Nat) : Nat → Nat → List Byte → State → State × Option (List Byte)
  | 0, _, buf, s => (s, some buf)
  | k + 1, next, buf, s =>
    if n ≤ buf.length then (s, some buf)
    else
      match ctxRead (0x30000000 + 64 * next) 16 s with
      | (s, some l) => ctxFill n k (next + 1) (buf ++ l) s
      | (s, none) => (s, none)

/-- SEG_REQ (R273).
(Log entry 76 DEDUCED.) -/
def tdpSegReq (c : Carrier) (seq : Byte) (s : State) : Answer :=
  match (s.d.tdp.car[c]).xfer with
  | none =>
    match (s.d.tdp.car[c]).timedOut with
    | some (i, b) => ({ s with d := s.d.modCarrier c fun k => { k with timedOut := none } }, some (abortMsg i b 0x0A))
    | none => (s, some (abortMsg 0 0 9))
  | some x =>
    if x.write then aborts c x.index x.sub 9 s
    else if x.last = some seq then
      ({ s with d := s.d.modCarrier c fun k => { k with xfer := some { x with at_ := s.d.now } } }, some x.lastResp)
    else if x.done ∨ seq ≠ (match x.last with | some q => q + 1 | none => 0) then aborts c x.index x.sub 8 s
    else
      let total := x.total.getD 0
      let n := min (s.d.tdpLimits c).rseg (total - x.pos)
      let f := if x.isCtx then ctxFill n 5 (x.ctxSel + (x.pos + x.data.length) / 64) x.data s
        else (s, some (x.data.drop x.pos))
      match f with
      | (s, none) => aborts c x.index x.sub 0x0F s
      | (s, some l) =>
        let resp := msgSeg (total ≤ x.pos + n) seq (l.take n)
        let x := { x with last := some seq, lastResp := resp, pos := x.pos + n, at_ := s.d.now
                          data := if x.isCtx then l.drop n else x.data }
        ({ s with d := s.d.modCarrier c fun k => { k with xfer := some x } }, some resp)

/-- A context as 16 word writes (R164, R310, R469). -/
def ctxStore (o : Nat) : List Byte → Nat → State → State
  | _, 0, s => s
  | l, k + 1, s => ctxStore (o + 4) (l.drop 4) k (s.ctxWrite o (BitVec.ofNat 32 (bytesNat (l.take 4)))).1

/-- The contexts of a CTXDATA write that are complete are written (R310).
(Log entry 76 DEDUCED.) -/
def ctxDrain : Nat → Nat → List Byte → State → State × List Byte
  | 0, _, l, s => (s, l)
  | k + 1, next, l, s =>
    if l.length < 64 then (s, l)
    else ctxDrain k (next + 1) (l.drop 64) (ctxStore (64 * next) (l.take 64) 16 s)

/-- The challenge of an attestation request through the dictionary is complete (R313): an ABORT code, or the request
waits for the engine and WRITE_OK follows its end.
(Log entry 58 DEDUCED.) -/
def Dev.attDict (d : Dev) (ram : Memory) (c : Carrier) (challenge : List Byte) : Dev × Option Nat :=
  let note := fun (d : Dev) (st : Nat) => { d with att := { d.att with dictStatus := st, dictReport := none } }
  if d.att.run.isSome then (d, some 0x0F)
  else match d.attRefusal true with
    | some e => (if e = 4 ∨ e = 5 then (note d e).secCause 5 else note d e, some 0x0F)
    | none => ((note (d.attStart (.dict c) challenge) 1).engGo ram, none)

/-- A carrier's transfer after a segment. -/
def Dev.putXfer (d : Dev) (c : Carrier) (x : Xfer) : Dev := d.modCarrier c fun k => { k with xfer := some x }

/-- SEG and SEG_LAST (R268, R274, R310, R313, R446).
(Log entry 76 DEDUCED.) -/
def tdpSeg (c : Carrier) (last : Bool) (seq : Byte) (l : List Byte) (flashOk : Bool) (s : State) : Answer :=
  match (s.d.tdp.car[c]).xfer with
  | none =>
    match (s.d.tdp.car[c]).timedOut with
    | some (i, b) => ({ s with d := s.d.modCarrier c fun k => { k with timedOut := none } }, some (abortMsg i b 0x0A))
    | none => (s, some (abortMsg 0 0 9))
  | some x =>
    if !x.write then aborts c x.index x.sub 9 s
    else if x.last = some seq then ({ s with d := s.d.putXfer c { x with at_ := s.d.now } }, some x.lastResp)
    else if x.done then aborts c x.index x.sub 9 s
    else if seq ≠ (match x.last with | some q => q + 1 | none => 0) then aborts c x.index x.sub 8 s
    else
      let total := x.total.getD 0
      let room := total - x.pos
      let x := { x with last := some seq, at_ := s.d.now, pos := x.pos + l.length, lastResp := [0x46#8, seq] }
      let wrong := last && x.pos ≠ total
      let fin := { x with lastResp := [0x44#8] }
      if x.index = 0x9010 then
        jobAnswer c [] { s with d := s.d.updSegment c (if last && !wrong then fin else x) last wrong l flashOk }
      else if x.isCtx then
        let done := (x.pos - l.length) / 64
        let r := ctxDrain 5 (x.ctxSel + done) (x.data ++ l.take room) s
        let x := { x with data := r.2 }
        if wrong then aborts c x.index x.sub 6 r.1
        else if last then ({ r.1 with d := r.1.d.putXfer c { fin with data := [] } }, some fin.lastResp)
        else ({ r.1 with d := r.1.d.putXfer c x }, some x.lastResp)
      else
        let x := { x with data := x.data ++ l }
        let fin := { fin with data := [] }
        if wrong then aborts c x.index x.sub 6 s
        else if !last then ({ s with d := s.d.putXfer c x }, some x.lastResp)
        else if x.index = 0x6010 then
          match s.d.attDict s.ram c x.data with
          | (d, some e) => aborts c x.index x.sub e { s with d := d }
          | (d, none) => ({ s with d := d.putXfer c fin }, none)
        else
          match objAt s.d x.index.toNat x.sub.toNat with
          | .error e => aborts c x.index x.sub e s
          | .ok o =>
            match objWrite o c x.index x.sub x.data flashOk s with
            | (s, some e) => aborts c x.index x.sub e s
            | (s, none) => ({ s with d := s.d.putXfer c fin }, some fin.lastResp)

/-! ### Who answers (R276 to R279) -/

/-- Where an index is served. -/
inductive Route where
  | hw
  | fw
  | no (code : Nat)
  deriving DecidableEq, Repr

/-- The hardware responder serves an index (R277). -/
def responder (i : Nat) : Bool := (0x1000 ≤ i && i < 0x2000) || (0x8000 ≤ i && i < 0xA000)

/-- Firmware-range requests are forwarded: TDP_FWCTL.EN = 1, and region 0 is in service (R278, R423). -/
def Dev.fwOn (d : Dev) : Bool := bit d.tdp.fwctl 0 && !(d.regions[(0 : RegionId)]).retired

/-- The part that answers for an index (R276 to R279). -/
def Dev.route (d : Dev) (i : Nat) : Route :=
  if responder i then .hw
  else match d.pwr.phase with
    | .starting _ => .no 0x0B
    | .dead _ => .no 0x0C
    | .up =>
      if 0xA000 ≤ i then (if d.fwOn then .fw else .no 2)
      else if 0x1000 ≤ i then .hw
      else .no 2

/-- TMO in ticks (R296). -/
def Dev.fwTicks (d : Dev) : Nat := max 1 (fld d.tdp.fwctl 24 8) * msTicks

/-- NOFWRESP. -/
def Dev.noFwResp (d : Dev) (c : Carrier) : Dev :=
  { d with tdp := { d.tdp with cnt := d.tdp.cnt.set 2 (d.tdp.cnt[2] + 1) } }.modCarrier c fun k => { k with fw := none, fwXfer := none }

/-- A message goes to firmware as one packet (R278, R434). -/
def forward (c : Carrier) (index : BitVec 16) (sub : Byte) (m : List Byte) (s : State) : Answer :=
  let d := s.d
  let serial := d.tdp.serial + 1
  let w0 : Word64 := pack64 [(0, serial.toNat), (16, c.val), (18, m.length)]
  let q := queueOf 0 (Fin.ofNat 32 (fld d.tdp.fwctl 8 5))
  match d.producePacket q (w0 :: words64Of m) with
  | none => ({ s with d := d.noFwResp c }, some (abortMsg index sub 0x0E))
  | some d =>
    let d := { d with tdp := { d.tdp with serial } }
    ({ s with d := d.modCarrier c fun k => { k with fw := some (serial, index, sub, d.now + d.fwTicks) } }, none)

/-- A new request names an index: it is served, forwarded or refused. -/
def routed (c : Carrier) (index : BitVec 16) (sub : Byte) (m : List Byte) (serve : State → Answer) (s : State) : Answer :=
  let s := { s with d := (s.d.closeXfer c).modCarrier c fun k => { k with timedOut := none } }
  match s.d.route index.toNat with
  | .hw => serve s
  | .fw => forward c index sub m s
  | .no e => (s, some (abortMsg index sub e))

/-- A message of a transfer: firmware's, or the dispatcher's own.
(Log entry 76 DEDUCED.) -/
def inXfer (c : Carrier) (m : List Byte) (own : State → Answer) (s : State) : Answer :=
  match (s.d.tdp.car[c]).fwXfer with
  | some (i, b) => if s.d.fwOn then forward c i b m s else aborts c i b 2 s
  | none => own s

/-- ABORT from the host (R275). -/
def tdpAbort (c : Carrier) (index : BitVec 16) (sub code : Byte) (s : State) : Answer :=
  match (s.d.tdp.car[c]).xfer with
  | some x => if x.done then (s, some (abortMsg index sub 9)) else aborts c x.index x.sub code.toNat s
  | none => (s, some (abortMsg index sub 9))

/-- The index and subindex that an ABORT with BADCMD carries (R275): those that the message names, and for a segment
message those of the open transfer. -/
def Dev.badNames (d : Dev) (c : Carrier) (m : List Byte) (index : BitVec 16) (sub : Byte) : BitVec 16 × Byte :=
  let cmd := (byteAt m 0).toNat
  let k := d.tdp.car[c]
  if m ≠ [] ∧ (cmd = 0x42 ∨ cmd = 0x80 ∨ cmd = 0x81) then
    match k.xfer, k.fwXfer with
    | some x, _ => if x.done then (0, 0) else (x.index, x.sub)
    | none, some x => x
    | none, none => (0, 0)
  else (index, sub)

/-- The lock of the update expires; a message that the engine still works for ends with STATE (R271, R443). -/
def Dev.updExpired (d : Dev) : Dev :=
  match d.upd.job with
  | none => d.updExpire
  | some j => d.updExpire.respond j.carrier (match j.xfer with
    | some x => abortMsg x.index x.sub 0x0F
    | none => abortMsg 0x9002 0 0x0F)

/-- One message at the dispatcher: the answer, or none yet. -/
def tdpHandle (c : Carrier) (m : List Byte) (flashOk : Bool) (s : State) : Answer :=
  let d := if s.d.xferOverdue c then s.d.xferTimeout c else s.d
  let d := if d.updOverdue then d.updExpired else d
  let s := { s with d := d }
  match parseTdp (d.tdpLimits c) m with
  | .writeExp i b l => routed c i b m (tdpWriteExp c i b l flashOk) s
  | .read i b => routed c i b m (tdpRead c i b) s
  | .writeInit i b t => routed c i b m (tdpWriteInit c i b t) s
  | .segReq q => inXfer c m (tdpSegReq c q) s
  | .seg last q l => inXfer c m (tdpSeg c last q l flashOk) s
  | .abort i b e => inXfer c m (tdpAbort c i b e) s
  | .bad i b => let x := s.d.badNames c m i b; aborts c x.1 x.2 1 s

/-! ### Answers -/

/-- The register that a message's object stands in, where it is accessed: a READ of an object that is no RWP object, or a
WRITE_EXP. -/
def Dev.reaches (d : Dev) (c : Carrier) (m : List Byte) : Option Nat :=
  let reg := fun (i : BitVec 16) (sub : Byte) (write : Bool) =>
    match d.route i.toNat, objAt d i.toNat sub.toNat with
    | .hw, .ok o =>
      if (!write && (o.acc = .rwp || o.acc = .wo)) || (write && (o.noWrite.isSome || d.deadWrite i)) then none
      else match o.src with
        | .field a _ _ => some a
        | .pair a => some a
        | .gated a _ => some a
        | _ => none
    | _, _ => none
  match parseTdp (d.tdpLimits c) m with
  | .read i b => reg i b false
  | .writeExp i b _ => reg i b true
  | _ => none

/-- The access of a message is held by a domain that is not ready (R16, R303, R410): the register, and the block with the
domain's wake begun. -/
def Dev.dictHeld (d : Dev) (c : Carrier) (m : List Byte) : Option (Nat × Dev) :=
  match d.reaches c m with
  | none => none
  | some a =>
    match d.dictGate a with
    | (e, some .held) => some (a, e)
    | _ => none

/-- A message goes to the dispatcher: its answer leaves, or is owed, or the message waits for a domain. -/
def tdpGive (c : Carrier) (m : List Byte) (flashOk : Bool) (s : State) : State :=
  match s.d.dictHeld c m with
  | some (a, d) =>
    let h : HeldAcc := { init := dictInit, addr := BitVec.ofNat 32 a, width := 4, value := none }
    { s with d := { d.modCarrier c fun k => { k with wait := some (m, flashOk) } with holds := d.holds ++ [h] } }
  | none =>
    match tdpHandle c m flashOk s with
    | (s, some a) => { s with d := s.d.respond c a }
    | (s, none) => s

/-- A message comes to the dispatcher and is counted. -/
def tdpServe (c : Carrier) (m : List Byte) (flashOk : Bool) (s : State) : State :=
  tdpGive c m flashOk { s with d := { s.d with tdp := { s.d.tdp with cnt := s.d.tdp.cnt.set 0 (s.d.tdp.cnt[0] + 1) } } }

/-- A CAN counter rises (R297): 0 RXREQ, 1 TX, 2 RXDROP, 3 TXDROP, 4 BUSOFF. -/
def Dev.countCan (d : Dev) (i : Fin 5) : Dev := { d with can := { d.can with cnt := d.can.cnt.set i (d.can.cnt[i] + 1) } }

/-- An answer is still owed on a carrier. -/
def Dev.owed (d : Dev) (c : Carrier) : Bool :=
  (d.tdp.car[c]).fw.isSome || (d.tdp.car[c]).wait.isSome ||
    (match d.att.run with | some u => u.from_ = .dict c | none => false) ||
    (match d.upd.job with | some j => j.carrier = c | none => false)

/-- The next request frame is taken once the one before it is answered (R283). -/
def canNext (s : State) : State :=
  match s.d.can.cur, s.d.can.buf with
  | none, r :: rest =>
    if s.d.owed 0 then s
    else tdpServe 0 r.data true { s with d := { s.d with can := { s.d.can with cur := some r, buf := rest } }.countCan 0 }
  | _, _ => s

/-- The messages that wait for a domain go to the dispatcher again, carrier by carrier (R16). -/
def tdpResume (s : State) : State :=
  let t : State := { s with d := { s.d with holds := s.d.holds.filter fun h => h.init ≠ dictInit } }
  (List.finRange 3).foldl (fun s c =>
    match (s.d.tdp.car[c]).wait with
    | some (m, ok) => tdpGive c m ok { s with d := s.d.modCarrier c fun k => { k with wait := none } }
    | none => s) t |> canNext

/-- The carrier can take a message that comes without a frame: nothing is being answered on it.
(Log entry 61 DEDUCED.) -/
def Dev.carrierFree (d : Dev) (c : Carrier) : Bool :=
  d.datumCounts && !d.owed c &&
    (if c = 0 then d.can.cur.isNone
     else match (d.links[(Fin.ofNat 2 (c.val - 1) : LinkId)]).run with | some (r, _, _) => r.opc ≠ 5 | none => true)

/-- NOTREADY before RUN, DEAD in DEAD (R259). -/
def Dev.notReady (d : Dev) : Option Nat :=
  match d.pwr.phase with | .starting _ => some 10 | .dead _ => some 11 | .up => none

/-- A DICT request that the hardware responder does not serve before RUN or in DEAD (R259): READ, WRITE_EXP and
WRITE_INIT name an index; any other message counts as one of a served index.
(Log entry 60 DEDUCED.) -/
def dictNotReady (d : Dev) (m : List Byte) : Option Nat :=
  let named := match parseTdp {} m with
    | .read i _ => some i.toNat
    | .writeExp i _ _ => some i.toNat
    | .writeInit i _ _ => some i.toNat
    | _ => none
  match named with
  | some i => if responder i then none else d.notReady
  | none => none

/-- A message as a command of its own. On a trunk carrier one that R259 answers with a STATUS never comes to the
dispatcher.
(Log entries 2 DESIGN CHOICE, 61 DEDUCED.) -/
def tdpRow (c : Carrier) (m : List Byte) (flashOk : Bool) (s : State) : State :=
  if !s.d.carrierFree c || (c ≠ 0 && (dictNotReady s.d m).isSome) then s else finish (tdpServe c m flashOk s.begun)

/-! ### Commands -/

/-- TDP_READ (R271). -/
def execTdpRead (c : Carrier) (index : BitVec 16) (sub : Byte) (s : State) : Host.Outcome State Fault Refusal :=
  .next (tdpRow c (msgRead index sub) true s)

/-- TDP_WRITE_EXP (R271). -/
def execTdpWriteExp (c : Carrier) (index : BitVec 16) (sub : Byte) (data : List Byte) (s : State) : Host.Outcome State Fault Refusal :=
  .next (tdpRow c (msgWrite index sub data) true s)

/-- TDP_WRITE_INIT (R274). -/
def execTdpWriteInit (c : Carrier) (index : BitVec 16) (sub : Byte) (total : Word) (s : State) : Host.Outcome State Fault Refusal :=
  .next (tdpRow c (msgInit index sub total) true s)

/-- TDP_SEG_REQ (R273). -/
def execTdpSegReq (c : Carrier) (seq : Byte) (s : State) : Host.Outcome State Fault Refusal :=
  .next (tdpRow c [0x42#8, seq] true s)

/-- TDP_SEG (R274). -/
def execTdpSeg (c : Carrier) (seq : Byte) (data : List Byte) (s : State) : Host.Outcome State Fault Refusal :=
  .next (tdpRow c (msgSeg false seq data) true s)

/-- TDP_SEG_LAST (R274). -/
def execTdpSegLast (c : Carrier) (seq : Byte) (data : List Byte) (s : State) : Host.Outcome State Fault Refusal :=
  .next (tdpRow c (msgSeg true seq data) true s)

/-- TDP_ABORT (R275). -/
def execTdpAbort (c : Carrier) (index : BitVec 16) (sub code : Byte) (s : State) : Host.Outcome State Fault Refusal :=
  .next (tdpRow c ([0xC0#8] ++ natBytes 2 index.toNat ++ [sub, code]) true s)

/-- TDP_XFER_TIMEOUT (R272): 1 s passes without a message of the transfer. -/
def execTdpXferTimeout (c : Carrier) (s : State) : Host.Outcome State Fault Refusal :=
  .next (onDev (fun d =>
    match (d.tdp.car[c]).xfer with
    | some x => (d.until_ (x.at_ + secTicks)).xferTimeout c
    | none => d) s)

/-- ATTN_DETAIL_CLEAR (R262). -/
def execAttnDetailClear (c : Carrier) (b : Fin 14) (sub : Byte) (data : List Byte) (s : State) : Host.Outcome State Fault Refusal :=
  .next (tdpRow c (msgWrite (BitVec.ofNat 16 (0x1010 + b.val)) sub data) true s)

/-- CTX_OP_CHANNEL (R311): a write to OP of index 0x5101. -/
def execCtxOpChannel (c : Carrier) (op : Byte) (s : State) : Host.Outcome State Fault Refusal :=
  .next (tdpRow c (msgWrite 0x5101 4 [op]) true s)

/-- CLEARRET (R315, R430): a write to object 0x8003. -/
def execClearret (c : Carrier) (v : Byte) (s : State) : Host.Outcome State Fault Refusal :=
  .next (tdpRow c (msgWrite 0x8003 0 [v]) true s)

/-- ATTEST_WRITE (R313): a whole write of ATTEST, its last segment included. -/
def attestWrite (c : Carrier) (challenge : List Byte) (s : State) : State :=
  if !s.d.carrierFree c || (c ≠ 0 && s.d.notReady.isSome) then s
  else
    let answer := fun (a : Answer) => finish (match a with
      | (s, some m) => { s with d := s.d.respond c m }
      | (s, none) => s)
    let s := { s with d := s.begun.d.closeXfer c }
    answer (match s.d.route 0x6010 with
      | .no e => (s, some (abortMsg 0x6010 1 e))
      | _ =>
        if challenge.length ≠ 32 then aborts c 0x6010 1 6 s
        else match s.d.attDict s.ram c challenge with
          | (d, some e) => aborts c 0x6010 1 e { s with d := d }
          | (d, none) => ({ s with d := d }, none))

/-- ATTEST_WRITE (R313). -/
def execAttestWrite (c : Carrier) (challenge : List Byte) (s : State) : Host.Outcome State Fault Refusal :=
  .next (attestWrite c challenge s)

/-- UPD_LOCK_CLAIM (R442). -/
def execUpdLockClaim (c : Carrier) (s : State) : Host.Outcome State Fault Refusal :=
  .next (tdpRow c (msgWrite 0x9001 0 [1]) true s)

/-- UPD_LOCK_RELEASE (R443). -/
def execUpdLockRelease (c : Carrier) (s : State) : Host.Outcome State Fault Refusal :=
  .next (tdpRow c (msgWrite 0x9001 0 [0]) true s)

/-- UPD_IMAGE_INIT (R446). -/
def execUpdImageInit (c : Carrier) (total : Word) (s : State) : Host.Outcome State Fault Refusal :=
  .next (tdpRow c (msgInit 0x9010 0 total) true s)

/-- UPD_IMAGE_SEGMENT (R446): a segment of the open IMAGE transfer; `flashOk` says whether erases, programs and
read-backs succeed. -/
def execUpdImageSegment (c : Carrier) (seq : Byte) (last : Bool) (data : List Byte) (flashOk : Bool) (s : State) :
    Host.Outcome State Fault Refusal :=
  .next (tdpRow c (msgSeg last seq data) flashOk s)

/-- UPD_COMMIT (R447). -/
def execUpdCommit (c : Carrier) (flashOk : Bool) (s : State) : Host.Outcome State Fault Refusal :=
  .next (tdpRow c (msgWrite 0x9002 0 [1]) flashOk s)

/-- UPD_ABORT (R448). -/
def execUpdAbort (c : Carrier) (s : State) : Host.Outcome State Fault Refusal :=
  .next (tdpRow c (msgWrite 0x9003 0 [1]) true s)

/-! ### Firmware's answers (R278) -/

/-- The carrier that awaits a serial number.
(Log entry 77 DEDUCED.) -/
def Dev.awaits (d : Dev) (serial : BitVec 16) : Option Carrier :=
  (List.finRange 3).find? fun c => match (d.tdp.car[c]).fw with | some (n, _) => n = serial | none => false

/-- What firmware's message does to the forwarded transfer of its carrier: once open it stays, so that the host can repeat
its last message (R273, R274), until firmware sends ABORT or a new request names an index. -/
def fwAfter (m : List Byte) (i : BitVec 16) (b : Byte) (old : Option (BitVec 16 × Byte)) : Option (BitVec 16 × Byte) :=
  match (byteAt m 0).toNat with
  | 0x43 => some (i, b)
  | 0x45 => some (i, b)
  | 0x44 => old
  | 0x46 => old
  | 0x80 => old
  | 0x81 => old
  | _ => none

/-- The packet at the head of RSPQ is an answer, or it is discarded and counted.
(Log entry 77 DEDUCED.) -/
def Dev.fwAnswer (d : Dev) : Dev :=
  let q := queueOf 0 (Fin.ofNat 32 (fld d.tdp.fwctl 16 5))
  if !d.queueUsable q then d
  else match (d.queue q).packet with
    | none => d
    | some ws =>
      let w0 := (ws.map (·.value)).headD 0
      let n := fld64 w0 18 9
      let m := padTo n (bytesOf64 ((ws.map (·.value)).drop 1))
      let d := d.takeWords q ws.length
      let wrong := { d with tdp := { d.tdp with cnt := d.tdp.cnt.set 3 (d.tdp.cnt[3] + 1) } }
      match d.awaits (w0.setWidth 16) with
      | none => wrong
      | some c =>
        if n = 0 ∨ (d.tdpLimits c).resp < n then wrong
        else
          match (d.tdp.car[c]).fw with
          | some (_, i, b, _) =>
            (d.modCarrier c fun k => { k with fw := none, fwXfer := fwAfter m i b k.fwXfer }).respond c m
          | none => wrong

/-- TDP_FW_ANSWER (R278). -/
def execTdpFwAnswer (s : State) : Host.Outcome State Fault Refusal := .next (finish (canNext { s with d := s.begun.d.fwAnswer }))

/-- TDP_FW_TIMEOUT (R278): TMO passes without an answer. -/
def execTdpFwTimeout (c : Carrier) (s : State) : Host.Outcome State Fault Refusal :=
  .next (match (s.d.tdp.car[c]).fw with
    | some (_, i, b, t) =>
      finish (canNext { s with d := ((s.begun.d.until_ t).noFwResp c).respond c (abortMsg i b 0x0E) })
    | none => s)

/-- The signature that the engine works at is complete; the engine is free for the next user (R225, R229, R313). -/
def attEnd (s : State) : State :=
  let s := { s with d := s.d.engGo s.ram }
  match s.d.eng.user, s.d.att.run with
  | some .att, some u =>
    let t := attSigned s
    let d := t.d.engFree .att
    let d := match u.from_ with | .dict c => d.respond c [0x44#8] | .regs _ _ => d
    { t with d := d.engGo t.ram }
  | _, _ => s

/-- ATT_SIGNED (R229, R313): report and signature leave the engine; a dictionary request is answered WRITE_OK. -/
def execAttSigned (s : State) : Host.Outcome State Fault Refusal := .next (finish (canNext (attEnd s.begun)))

/-- UPD_LOCK_EXPIRED (R443). -/
def execUpdLockExpired (s : State) : Host.Outcome State Fault Refusal :=
  .next (if s.d.upd.holder.isSome then
    finish (canNext { s with d := (s.begun.d.until_ (s.d.upd.progressAt + updLimit)).updExpired })
  else s)

end Sys2Proof.Machine
end

