-- ==== Sys2Proof/Machine/Can.lean ====
section
/-! DEFINITION. The CAN FD port (R280 to R287) and the writing of config-memory records (R292 to R294). -/

namespace Sys2Proof.Machine

/-- The port takes part in the bus traffic: error active or passive, with a node number. -/
def Dev.canOn (d : Dev) : Bool := d.datumCounts && (d.can.mode = 1 || d.can.mode = 2) && !d.can.nonode

/-! ### Error confinement (R284) -/

/-- The error counters after an error (ISO 11898-1).
(Log entry 78 PRESUMED.) -/
def Can.err (c : Can) (e : CanErr) : Can :=
  match e with
  | .rx1 => { c with rec_ := min 255 (c.rec_ + 1) }
  | .rx8 => { c with rec_ := min 255 (c.rec_ + 8) }
  | .tx8 => { c with tec := c.tec + 8 }

/-- Error active or error passive, by the counters.
(Log entry 78 PRESUMED.) -/
def Can.confine (c : Can) : Can :=
  if c.mode = 1 ∨ c.mode = 2 then { c with mode := if 127 < c.tec ∨ 127 < c.rec_ then 2 else 1 } else c

/-- The port enters bus-off. -/
def Dev.busOff (d : Dev) : Dev := { d with can := { d.can with mode := 3, tec := 255 } }.countCan 4

/-- Errors on the bus since the last command of the port; a transmit counter above 255 is bus-off.
(Log entry 78 PRESUMED.) -/
def Dev.canErrs (d : Dev) : List CanErr → Dev
  | [] => d
  | e :: l =>
    if !d.canOn then d
    else
      let c := d.can.err e
      if 255 < c.tec then { d with can := c }.busOff else Dev.canErrs { d with can := c.confine } l

/-- The errors that the answer being sent has met up to its next event count.
(Log entry 78 PRESUMED.) -/
def Dev.canTried (d : Dev) : Dev :=
  match d.can.cur, d.can.out with
  | some r, some _ => Dev.canErrs { d with can := { d.can with cur := some { r with tries := r.tries.drop 1 } } } (r.tries.headD [])
  | _, _ => d

/-- A frame has been received without error: the receive counter falls by 1, and from above 127 to a value from 119 to
127, which is free.
(Log entries 12 UNVERIFIED, 78 PRESUMED.) -/
def Dev.canHeard (d : Dev) : Dev :=
  if d.can.rec_ ≤ 127 then { d with can := { d.can with rec_ := d.can.rec_ - 1 }.confine }
  else { d with can := { d.can with rec_ := 119 + d.freeNow % 9 }.confine }.took

/-! ### Frames -/

/-- A frame on the bus (R281 to R283).
(Log entry 78 PRESUMED.) -/
def canFrameIn (x : CanArrival) (data : List Byte) (fd brs : Bool) (s : State) : State :=
  if !s.d.canOn then s
  else
    let s := { s with d := s.d.canHeard }
    let c := s.d.can
    if x.ident ≠ 0x300 + c.node then s
    else if 4 ≤ c.buf.length then { s with d := s.d.countCan 2 }
    else canNext { s with d := { s.d with can := { c with
      buf := c.buf ++ [{ data := data.take (if fd then 64 else 8), fd, brs, tries := x.tries }] } } }

/-- The response frame has been sent, or is given up: the next request is taken.
(Log entry 78 PRESUMED.) -/
def canDone (sent : Bool) (s : State) : State :=
  match s.d.can.out with
  | none => s
  | some f =>
    let c := { s.d.can with out := none, cur := none }
    let c := if sent then { c with sent := some f, tec := c.tec - 1 }.confine else c
    canNext { s with d := { s.d with can := c }.countCan (if sent then 1 else 3) }

/-- CAN_REQUEST_FRAME (R283). -/
def execCanRequestFrame (x : CanArrival) (data : List Byte) (fd brs : Bool) (s : State) : Host.Outcome State Fault Refusal :=
  .next (finish (canFrameIn x data fd brs { s with d := s.begun.d.canErrs x.errs }))

/-- The state once the errors of the answer have counted. -/
def canAfter (s : State) : State := { s with d := s.begun.d.canTried }

/-- CAN_RESPONSE_SENT (R282, R287). -/
def execCanResponseSent (s : State) : Host.Outcome State Fault Refusal :=
  .next (let t := canAfter s; finish (if t.d.canOn then canDone true t else t))

/-- CAN_TX_TIMEOUT (R284): the response has been retried for 100 ms. -/
def execCanTxTimeout (s : State) : Host.Outcome State Fault Refusal :=
  .next (finish (canDone false (canAfter s)))

/-- CAN_BUSOFF (R284).
(Log entry 78 PRESUMED.) -/
def execCanBusoff (s : State) : Host.Outcome State Fault Refusal :=
  .next (onDev (fun d => let d := d.canTried; if d.canOn then d.busOff else d) s)

/-- CAN_BUSOFF_RECOVERY (R284). -/
def execCanBusoffRecovery (s : State) : Host.Outcome State Fault Refusal :=
  .next (onDev (fun d => if d.can.mode = 3 then { d with can := { d.can with mode := 1, tec := 0, rec_ := 0 } } else d) s)

/-- The record at the head of the queue is written and read back (R292 to R294): a missing device, or a read-back that
differs, is a transient fault, and the record stays.
(Log entry 38 DEDUCED.) -/
def Dev.cfgCommit (d : Dev) (ok : Bool) : Dev :=
  match d.cfg.queue with
  | [] => d
  | r :: rest =>
    if ok && 0 < d.cfg.areaSize then ({ d with cfg := { d.cfg with queue := rest } }).persist r
    else d.charge (.unit (.chipBlock 9)) 7

/-- CFG_RECORD_COMMITTED (R292, R294). -/
def execCfgRecordCommitted (readBackOk : Bool) (s : State) : Host.Outcome State Fault Refusal :=
  .next (onDevW (fun d => if d.datumCounts then d.cfgCommit readBackOk else d) s)

end Sys2Proof.Machine
end

