-- ==== Sys2Proof/Machine/Rv32.lean ====
section
/-! DEFINITION. The instruction set of the cores (R317): RV32I, M, C with Zicsr and Zifencei as the RISC-V
specifications define them. This file has the expansion of compressed instructions, the arithmetic, and the sorting of
instructions by the commands they belong to. -/

namespace Sys2Proof.Machine

/-! ### Fields of an instruction word -/

/-- opcode -/
def iOp (w : Word) : Nat := fld w 0 7
/-- rd -/
def iRd (w : Word) : Fin 32 := Fin.ofNat 32 (fld w 7 5)
/-- funct3 -/
def iF3 (w : Word) : Nat := fld w 12 3
/-- rs1 -/
def iRs1 (w : Word) : Fin 32 := Fin.ofNat 32 (fld w 15 5)
/-- rs2 -/
def iRs2 (w : Word) : Fin 32 := Fin.ofNat 32 (fld w 20 5)
/-- funct7 -/
def iF7 (w : Word) : Nat := fld w 25 7
/-- CSR number -/
def iCsr (w : Word) : Nat := fld w 20 12
/-- sign extension of an n-bit number to a word -/
def sext (n v : Nat) : Word := BitVec.ofInt 32 (nS n v)
/-- I immediate -/
def immI (w : Word) : Word := sext 12 (fld w 20 12)
/-- S immediate -/
def immS (w : Word) : Word := sext 12 (fld w 25 7 * 32 + fld w 7 5)
/-- B immediate -/
def immB (w : Word) : Word :=
  sext 13 (fld w 31 1 * 4096 + fld w 7 1 * 2048 + fld w 25 6 * 32 + fld w 8 4 * 2)
/-- U immediate -/
def immU (w : Word) : Word := w &&& 0xFFFFF000
/-- J immediate -/
def immJ (w : Word) : Word :=
  sext 21 (fld w 31 1 * 1048576 + fld w 12 8 * 4096 + fld w 20 1 * 2048 + fld w 21 10 * 2)

/-! ### Compressed instructions -/

/-- An instruction word of I form. -/
def mkI (op f3 rd rs1 imm : Nat) : Word := pack [(0, op), (7, rd), (12, f3), (15, rs1), (20, imm % 4096)]
/-- An instruction word of R form. -/
def mkR (op f3 f7 rd rs1 rs2 : Nat) : Word := pack [(0, op), (7, rd), (12, f3), (15, rs1), (20, rs2), (25, f7)]
/-- An instruction word of S form. -/
def mkS (op f3 rs1 rs2 imm : Nat) : Word :=
  pack [(0, op), (7, imm % 32), (12, f3), (15, rs1), (20, rs2), (25, imm / 32 % 128)]
/-- An instruction word of B form; the immediate as a 13-bit number. -/
def mkB (f3 rs1 rs2 imm : Nat) : Word :=
  pack [(0, 0x63), (7, imm / 2048 % 2), (8, imm / 2 % 16), (12, f3), (15, rs1), (20, rs2), (25, imm / 32 % 64), (31, imm / 4096 % 2)]
/-- An instruction word of J form; the immediate as a 21-bit number. -/
def mkJ (rd imm : Nat) : Word :=
  pack [(0, 0x6F), (7, rd), (12, imm / 4096 % 256), (20, imm / 2048 % 2), (21, imm / 2 % 1024), (31, imm / 1048576 % 2)]

/-- Quadrant 0. -/
def expandC0 (h : Word) : Option Word :=
  let rd := fld h 2 3 + 8
  let rs := fld h 7 3 + 8
  let off := fld h 10 3 * 8 + fld h 6 1 * 4 + fld h 5 1 * 64
  match fld h 13 3 with
  | 0 =>
    let imm := fld h 11 2 * 16 + fld h 7 4 * 64 + fld h 6 1 * 4 + fld h 5 1 * 8
    if imm = 0 then none else some (mkI 0x13 0 rd 2 imm)
  | 2 => some (mkI 0x03 2 rd rs off)
  | 6 => some (mkS 0x23 2 rs rd off)
  | _ => none

/-- Quadrant 1. -/
def expandC1 (h : Word) : Option Word :=
  let rd := fld h 7 5
  let imm := sN 12 (nS 6 (fld h 12 1 * 32 + fld h 2 5))
  let j := sN 21 (nS 12 (fld h 12 1 * 2048 + fld h 11 1 * 16 + fld h 9 2 * 256 + fld h 8 1 * 1024 + fld h 7 1 * 64 +
    fld h 6 1 * 128 + fld h 3 3 * 2 + fld h 2 1 * 32))
  let b := sN 13 (nS 9 (fld h 12 1 * 256 + fld h 10 2 * 8 + fld h 5 2 * 64 + fld h 3 2 * 2 + fld h 2 1 * 32))
  let rp := fld h 7 3 + 8
  match fld h 13 3 with
  | 0 => some (mkI 0x13 0 rd rd imm)
  | 1 => some (mkJ 1 j)
  | 2 => some (mkI 0x13 0 rd 0 imm)
  | 3 =>
    if rd = 2 then
      let k := sN 12 (nS 10 (fld h 12 1 * 512 + fld h 6 1 * 16 + fld h 5 1 * 64 + fld h 3 2 * 128 + fld h 2 1 * 32))
      if k = 0 then none else some (mkI 0x13 0 2 2 k)
    else
      let k := sN 20 (nS 6 (fld h 12 1 * 32 + fld h 2 5))
      if k = 0 then none else some (pack [(0, 0x37), (7, rd), (12, k)])
  | 4 =>
    match fld h 10 2 with
    | 0 => if bit h 12 then none else some (mkI 0x13 5 rp rp (fld h 2 5))
    | 1 => if bit h 12 then none else some (mkI 0x13 5 rp rp (0x400 + fld h 2 5))
    | 2 => some (mkI 0x13 7 rp rp imm)
    | _ =>
      if bit h 12 then none
      else
        let r2 := fld h 2 3 + 8
        some (match fld h 5 2 with
          | 0 => mkR 0x33 0 0x20 rp rp r2
          | 1 => mkR 0x33 4 0 rp rp r2
          | 2 => mkR 0x33 6 0 rp rp r2
          | _ => mkR 0x33 7 0 rp rp r2)
  | 5 => some (mkJ 0 j)
  | 6 => some (mkB 0 rp 0 b)
  | _ => some (mkB 1 rp 0 b)

/-- Quadrant 2. -/
def expandC2 (h : Word) : Option Word :=
  let rd := fld h 7 5
  let r2 := fld h 2 5
  match fld h 13 3 with
  | 0 => if bit h 12 then none else some (mkI 0x13 1 rd rd r2)
  | 2 =>
    if rd = 0 then none else some (mkI 0x03 2 rd 2 (fld h 12 1 * 32 + fld h 4 3 * 4 + fld h 2 2 * 64))
  | 4 =>
    if bit h 12 then
      if r2 = 0 then (if rd = 0 then some 0x00100073 else some (mkI 0x67 0 1 rd 0)) else some (mkR 0x33 0 0 rd rd r2)
    else if r2 = 0 then (if rd = 0 then none else some (mkI 0x67 0 0 rd 0))
    else some (mkR 0x33 0 0 rd 0 r2)
  | 6 => some (mkS 0x23 2 2 r2 (fld h 9 4 * 4 + fld h 7 2 * 64))
  | _ => none

/-- The 32-bit instruction that a 16-bit one stands for; `none` where it is reserved or has no meaning on RV32IMAC. -/
def expandC (h : Word) : Option Word :=
  match fld h 0 2 with
  | 0 => expandC0 h
  | 1 => expandC1 h
  | 2 => expandC2 h
  | _ => none

/-! ### Arithmetic -/

/-- 1 for true, as a word. -/
def wBool (b : Bool) : Word := if b then 1 else 0

/-- The operations of OP and OP-IMM with funct7 = 0. -/
def aluBase (f3 : Nat) (a b : Word) : Word :=
  match f3 with
  | 0 => a + b
  | 1 => a <<< (b.toNat % 32)
  | 2 => wBool (decide (a.toInt < b.toInt))
  | 3 => wBool (decide (a.toNat < b.toNat))
  | 4 => a ^^^ b
  | 5 => a >>> (b.toNat % 32)
  | 6 => a ||| b
  | _ => a &&& b

/-- The M extension. Division by zero and overflow have the results of the RISC-V specification. -/
def aluMul (f3 : Nat) (a b : Word) : Word :=
  match f3 with
  | 0 => a * b
  | 1 => BitVec.ofInt 32 (a.toInt * b.toInt / 4294967296)
  | 2 => BitVec.ofInt 32 (a.toInt * (b.toNat : Int) / 4294967296)
  | 3 => BitVec.ofNat 32 (a.toNat * b.toNat / 4294967296)
  | 4 => if b = 0 then 0xFFFFFFFF else BitVec.ofInt 32 (Int.tdiv a.toInt b.toInt)
  | 5 => if b = 0 then 0xFFFFFFFF else BitVec.ofNat 32 (a.toNat / b.toNat)
  | 6 => if b = 0 then a else BitVec.ofInt 32 (Int.tmod a.toInt b.toInt)
  | _ => if b = 0 then a else BitVec.ofNat 32 (a.toNat % b.toNat)

/-- OP: `none` where funct7 and funct3 name no instruction. -/
def aluReg (f7 f3 : Nat) (a b : Word) : Option Word :=
  if f7 = 0 then some (aluBase f3 a b)
  else if f7 = 1 then some (aluMul f3 a b)
  else if f7 = 0x20 ∧ f3 = 0 then some (a - b)
  else if f7 = 0x20 ∧ f3 = 5 then some (a.sshiftRight (b.toNat % 32))
  else none

/-- OP-IMM. -/
def aluImm (w a : Word) : Option Word :=
  let sh : Word := BitVec.ofNat 32 (fld w 20 5)
  match iF3 w with
  | 1 => if iF7 w = 0 then some (aluBase 1 a sh) else none
  | 5 =>
    if iF7 w = 0 then some (aluBase 5 a sh)
    else if iF7 w = 0x20 then some (a.sshiftRight (fld w 20 5)) else none
  | f => some (aluBase f a (immI w))

/-- The condition of a branch; `none` for a reserved one. -/
def branchTaken (f3 : Nat) (a b : Word) : Option Bool :=
  match f3 with
  | 0 => some (a == b)
  | 1 => some (a != b)
  | 4 => some (decide (a.toInt < b.toInt))
  | 5 => some (decide (b.toInt ≤ a.toInt))
  | 6 => some (decide (a.toNat < b.toNat))
  | 7 => some (decide (b.toNat ≤ a.toNat))
  | _ => none

/-- What an AMO stores; `none` where funct5 names none. -/
def amoOp (f5 : Nat) (m r : Word) : Option Word :=
  match f5 with
  | 0x00 => some (m + r)
  | 0x01 => some r
  | 0x04 => some (m ^^^ r)
  | 0x08 => some (m ||| r)
  | 0x0C => some (m &&& r)
  | 0x10 => some (if m.toInt ≤ r.toInt then m else r)
  | 0x14 => some (if r.toInt ≤ m.toInt then m else r)
  | 0x18 => some (if m.toNat ≤ r.toNat then m else r)
  | 0x1C => some (if r.toNat ≤ m.toNat then m else r)
  | _ => none

/-- Size in bytes and sign extension of a load. -/
def loadForm (f3 : Nat) : Option (Nat × Bool) :=
  match f3 with
  | 0 => some (1, true)
  | 1 => some (2, true)
  | 2 => some (4, false)
  | 4 => some (1, false)
  | 5 => some (2, false)
  | _ => none

/-! ### Which command runs an instruction -/

/-- The groups of instructions that have a command of their own. -/
inductive CoreClass where
  | loadStore | lr | sc | amo | fence | fenceI | wfi | time | timecmp | claim | other
  deriving DecidableEq, Repr

/-- A CSR instruction writes its CSR. -/
def csrWrites (w : Word) : Bool := iF3 w % 4 = 1 || (iRs1 w).val ≠ 0

/-- The group of an instruction. -/
def classOf (w : Word) : CoreClass :=
  match iOp w with
  | 0x03 => if (loadForm (iF3 w)).isSome then .loadStore else .other
  | 0x23 => if iF3 w ≤ 2 then .loadStore else .other
  | 0x2F =>
    if iF3 w ≠ 2 then .other
    else match fld w 27 5 with
      | 2 => if (iRs2 w).val = 0 then .lr else .other
      | 3 => .sc
      | f => if (amoOp f 0 0).isSome then .amo else .other
  | 0x0F => if iF3 w = 0 then .fence else if iF3 w = 1 then .fenceI else .other
  | 0x73 =>
    if w = 0x10500073 then .wfi
    else if iF3 w % 4 = 0 then .other
    else match iCsr w with
      | 0xC01 => .time
      | 0xC81 => .time
      | 0x7C0 => if csrWrites w then .timecmp else .other
      | 0x7C1 => if csrWrites w then .timecmp else .other
      | 0x7CA => if csrWrites w then .claim else .other
      | _ => .other
  | _ => .other

end Sys2Proof.Machine
end

