-- ==== Sys2Proof/Machine/Cores.lean ====
section
/-! DEFINITION. The cores (R317 to R327): fetching, CSRs, interrupts and traps, loads and stores, atomics. A core runs
firmware from step 8 of a start; until then the main core's ROM is the start-up sequence of StartOps.lean. -/

namespace Sys2Proof.Machine

/-! ### Interrupt sources (R321) -/

/-- A source is pending in a core. -/
def Dev.srcPending (d : Dev) (c : CoreId) (n : Nat) : Bool :=
  if n < 64 then (d.cores[c]).csr.latch.getLsbD n
  else if n < 80 then (d.mbx[Fin.ofNat 16 (n - 64)]).irq (Fin.ofNat 16 (n - 64)) c
  else if n < 112 then (d.dma (Fin.ofNat 32 (n - 80))).irq
  else if n < 116 then (List.finRange 2).any fun k => ((d.regions[Fin.ofNat 4 (n - 112)]).cipher.chans[k]).ended
  else if n = 116 then d.flash.irq
  else if n = 117 then d.hash.ended
  else if n < 122 then (d.regions[Fin.ofNat 4 (n - 118)]).flt.irq
  else if n = 122 then d.flt.irq
  else if n = 123 then d.pwrIrq
  else if n = 124 then d.rtc.alarmf
  else if n < 128 then false
  else (d.queue (Fin.ofNat 128 (n - 128))).irq

/-- MIRQPENDw. -/
def Dev.pendWord (d : Dev) (c : CoreId) (w : Nat) : Word :=
  BitVec.ofNat 32 (bitsNat ((List.range 32).map fun i => d.srcPending c (32 * w + i)))

/-- The lowest source pending and enabled. -/
def Dev.claim (d : Dev) (c : CoreId) : Option Nat :=
  (List.range 256).find? fun n => bit (d.cores[c]).csr.mirqen[Fin.ofNat 8 (n / 32)] (n % 32) && d.srcPending c n

/-- The machine timer interrupt is pending (R320). -/
def Dev.mtip (d : Dev) (c : CoreId) : Bool :=
  let x := (d.cores[c]).csr
  (join64 x.mtimecmph x.mtimecmp).toNat ≤ d.datum.now.toNat

/-- mip. -/
def Dev.mip (d : Dev) (c : CoreId) : Word :=
  pack [(3, b2n (d.cores[c]).msip), (7, b2n (d.mtip c)), (11, b2n (d.claim c).isSome)]

/-! ### Traps (R323) -/

/-- A trap is taken: `vec` is the offset from mtvec's base. -/
def Dev.trap (d : Dev) (c : CoreId) (cause tval : Word) (vec : Nat) : Dev :=
  d.modCore c fun x =>
    let st := x.csr.mstatus
    let st := setFld (setFld (clrBit st 3) 7 1 (b2n (bit st 3))) 11 2 (if x.mach then 3 else 0)
    { x with mach := true, resv := none, wfi := false, held := false
             pc := (x.csr.mtvec &&& 0xFFFFFFFC) + BitVec.ofNat 32 vec
             csr := { x.csr with mstatus := st, mepc := x.pc, mcause := cause, mtval := tval } }

/-- An exception with a standard code. -/
def Dev.except (d : Dev) (c : CoreId) (code : Nat) (tval : Word) : Dev := d.trap c (BitVec.ofNat 32 code) tval 0

/-- The interrupt that a core would take: external, software, timer in this order. -/
def Dev.irqOf (d : Dev) (c : CoreId) : Option Nat :=
  let x := d.cores[c]
  let p := d.mip c &&& x.csr.mie
  if x.mach ∧ !bit x.csr.mstatus 3 then none
  else if bit p 11 then some 11
  else if bit p 3 then some 3
  else if bit p 7 then some 7
  else none

/-- The core can take an interrupt or run an instruction: it is out of reset, not halted, not stalled on an access.
(Log entry 65 DEDUCED.) -/
def Dev.coreLive (d : Dev) (c : CoreId) : Bool :=
  let x := d.cores[c]
  x.running && !x.retired && !x.halted && !x.held && !(d.holds.any fun h => h.init = initOfCore c) && (d.pwr.now = .on || d.pwr.now = .nap) &&
    (match d.pwr.phase with | .up => true | .starting k => 9 ≤ k | .dead _ => false)

/-- CORE_INTERRUPT_TAKEN (R321, R323): the interrupt of highest priority, through a direct or vectored mtvec. -/
def Dev.takeIrq (d : Dev) (c : CoreId) : Dev :=
  match d.coreLive c, d.irqOf c with
  | true, some n =>
    d.trap c (BitVec.ofNat 32 (0x80000000 + n)) 0 (if fld (d.cores[c]).csr.mtvec 0 2 = 1 then 4 * n else 0)
  | _, _ => d

/-- CORE_INTERRUPT_TAKEN (R321). -/
def execCoreInterruptTaken (c : CoreId) (s : State) : Host.Outcome State Fault Refusal :=
  .next (onDev (fun d => d.takeIrq c) s)

/-- MACHINE_TIMER_INTERRUPT (R320): time passes until the datum reaches the compare value. -/
def execMachineTimerInterrupt (c : CoreId) (s : State) : Host.Outcome State Fault Refusal :=
  .next (onDev (fun d =>
    if d.datumCounts then d.untilDatum (join64 (d.cores[c]).csr.mtimecmph (d.cores[c]).csr.mtimecmp).toNat else d) s)

/-! ### CSRs (R318 to R320, R326, R327) -/

/-- A CSR as core c reads it; `none`: there is no such CSR.
(Log entry 63 DEDUCED.) -/
def Dev.csrRead (d : Dev) (c : CoreId) (n : Nat) : Option Word :=
  let x := (d.cores[c]).csr
  if 0x7C2 ≤ n ∧ n ≤ 0x7C9 then some x.mirqen[Fin.ofNat 8 (n - 0x7C2)]
  else if 0xFC0 ≤ n ∧ n ≤ 0xFC7 then some (d.pendWord c (n - 0xFC0))
  else if 0x3A0 ≤ n ∧ n ≤ 0x3A3 then
    let k := 4 * (n - 0x3A0)
    some (BitVec.ofNat 32 (bytesNat ((List.range 4).map fun i => x.pmpcfg[Fin.ofNat 16 (k + i)])))
  else if 0x3B0 ≤ n ∧ n ≤ 0x3BF then some x.pmpaddr[Fin.ofNat 16 (n - 0x3B0)]
  else if (0xB03 ≤ n ∧ n ≤ 0xB1F) ∨ (0xB83 ≤ n ∧ n ≤ 0xB9F) ∨ (0xC03 ≤ n ∧ n ≤ 0xC1F) ∨ (0xC83 ≤ n ∧ n ≤ 0xC9F) ∨
      (0x323 ≤ n ∧ n ≤ 0x33F) then some 0
  else match n with
    | 0x300 => some x.mstatus
    | 0x301 => some 0x40101105
    | 0x304 => some x.mie
    | 0x305 => some x.mtvec
    | 0x306 => some x.mcounteren
    | 0x30A => some 0
    | 0x310 => some 0
    | 0x31A => some 0
    | 0x320 => some x.mcountinhibit
    | 0x340 => some x.mscratch
    | 0x341 => some x.mepc
    | 0x342 => some x.mcause
    | 0x343 => some x.mtval
    | 0x344 => some (d.mip c)
    | 0xB00 => some (lo32 x.mcycle)
    | 0xB80 => some (hi32 x.mcycle)
    | 0xC00 => some (lo32 x.mcycle)
    | 0xC80 => some (hi32 x.mcycle)
    | 0xB02 => some (lo32 x.minstret)
    | 0xB82 => some (hi32 x.minstret)
    | 0xC02 => some (lo32 x.minstret)
    | 0xC82 => some (hi32 x.minstret)
    | 0xC01 => some (lo32 d.datum.now)
    | 0xC81 => some (hi32 (d.latch[initOfCore c]).datum)
    | 0xF11 => some 0
    | 0xF12 => some 0
    | 0xF13 => some (BitVec.ofNat 32 (Config.hwRev.toNat / 256))
    | 0xF14 => some (BitVec.ofNat 32 c.val)
    | 0xF15 => some 0
    | 0x7C0 => some x.mtimecmp
    | 0x7C1 => some x.heldCmph
    | 0x7CA => some (match d.claim c with | some s => BitVec.ofNat 32 s | none => 0x800001FF)
    | 0xFC8 => some (pack [(0, c.val), (3, (regionOfCore c).val), (5, b2n (decide (d.mainCore = c)))])
    | _ => none

/-- A byte of pmpcfg is written unless its entry is locked; W without R is reserved and clears both. -/
def pmpByte (old v : Byte) : Byte :=
  if old.toNat.testBit 7 then old
  else
    let v := v &&& 0x9F
    if v.toNat % 4 = 2 then v &&& 0xFC else v

/-- A pmpaddr is locked by its own entry, or by the next when that is a locked TOR. -/
def Csrs.pmpLocked (x : Csrs) (k : Nat) : Bool :=
  let l := fun (j : Nat) => (x.pmpcfg[Fin.ofNat 16 j]).toNat
  (l k).testBit 7 || (k < 15 && (l (k + 1)).testBit 7 && l (k + 1) / 8 % 4 = 1)

/-- The CSRs of a core after a write of CSR n.
(Log entry 63 DEDUCED.) -/
def Csrs.write (x : Csrs) (n : Nat) (v : Word) : Csrs :=
  if 0x7C2 ≤ n ∧ n ≤ 0x7C9 then { x with mirqen := x.mirqen.set (Fin.ofNat 8 (n - 0x7C2)) v }
  else if 0x3A0 ≤ n ∧ n ≤ 0x3A3 then
    let k := 4 * (n - 0x3A0)
    (List.range 4).foldl (fun x i =>
      let j : Fin 16 := Fin.ofNat 16 (k + i)
      { x with pmpcfg := x.pmpcfg.set j (pmpByte x.pmpcfg[j] (BitVec.ofNat 8 (fld v (8 * i) 8))) }) x
  else if 0x3B0 ≤ n ∧ n ≤ 0x3BF then
    if x.pmpLocked (n - 0x3B0) then x else { x with pmpaddr := x.pmpaddr.set (Fin.ofNat 16 (n - 0x3B0)) v }
  else match n with
    | 0x300 =>
      let mpp := if fld v 11 2 = 0 ∨ fld v 11 2 = 3 then fld v 11 2 else fld x.mstatus 11 2
      { x with mstatus := setFld (v &&& 0x00220088) 11 2 mpp }
    | 0x304 => { x with mie := v &&& 0x888 }
    | 0x305 => { x with mtvec := v &&& 0xFFFFFFFD }
    | 0x306 => { x with mcounteren := v &&& 7 }
    | 0x320 => { x with mcountinhibit := v &&& 5 }
    | 0x340 => { x with mscratch := v }
    | 0x341 => { x with mepc := clrBit v 0 }
    | 0x342 => { x with mcause := v }
    | 0x343 => { x with mtval := v }
    | 0xB00 => { x with mcycle := join64 (hi32 x.mcycle) v }
    | 0xB80 => { x with mcycle := join64 v (lo32 x.mcycle) }
    | 0xB02 => { x with minstret := join64 (hi32 x.minstret) v }
    | 0xB82 => { x with minstret := join64 v (lo32 x.minstret) }
    | 0x7C0 => { x with mtimecmp := v, mtimecmph := x.heldCmph }
    | 0x7C1 => { x with heldCmph := v }
    | 0x7CA => if fld v 0 9 < 64 then { x with latch := x.latch &&& ~~~(1#64 <<< fld v 0 9) } else x
    | _ => x

/-- The identification CSRs ignore writes (R318); any other CSR of the read-only range refuses them.
(Log entry 63 DEDUCED.) -/
def csrIgnores (n : Nat) : Bool := n = 0x301 || (0xF11 ≤ n && n ≤ 0xF14)

/-- Core c may access CSR n: the standard fields of the number, mcounteren for user mode, and whether it writes.
(Log entry 63 DEDUCED.) -/
def Core.mayCsr (x : Core) (n : Nat) (write : Bool) : Bool :=
  (x.mach || n / 256 % 4 = 0) && (!write || n / 1024 ≠ 3 || csrIgnores n) &&
    (x.mach || !(0xC00 ≤ n && n < 0xD00) || (n % 128 < 3 && bit x.csr.mcounteren (n % 128)))

/-! ### Fetching -/

/-- What a fetch gives. -/
inductive Fetched where
  | word (w : Word) (len : Nat)
  | fault (a : Word)
  | held
  deriving DecidableEq, Repr

/-- The 64 bytes of memory from an address on that a prefetch buffer takes; none where memory cannot change. -/
def State.codeLine (s : State) (a : Nat) : List Byte :=
  match winOf a with
  | .flash _ => s.d.flash.bytes a 64
  | .csram _ => memRead 0 s.ram a 64
  | .rsram _ _ => memRead 0 s.ram a 64
  | _ => []

/-- A half-word that memory holds at `a` comes through the core's prefetch buffer of 64 bytes (R325). Where the buffer
still holds what memory held before, a free value says which of the two is fetched.
(Log entry 64 DEDUCED.) -/
def State.prefetch (s : State) (c : CoreId) (a : Nat) (w : Word) : State × Word :=
  let fill := ({ s with d := s.d.modCore c fun x => { x with pf := some (a / 64 * 64, s.codeLine (a / 64 * 64)) } }, w)
  match (s.d.cores[c]).pf with
  | none => fill
  | some (base, l) =>
    if base ≤ a ∧ a + 2 ≤ base + l.length then
      let old : Word := BitVec.ofNat 32 (bytesNat (slice l (a - base) 2))
      if old = w then (s, w) else ({ s with d := s.d.took }, if s.d.freeNow % 2 = 1 then old else w)
    else fill

/-- A half-word is fetched (R323, R325, R326, R328). -/
def coreHalf (c : CoreId) (a : Nat) (s : State) : State × Rd :=
  let x := s.d.cores[c]
  if x.csr.pmpOk x.mach a 2 2 then
    match s.busRead (initOfCore c) a 2 true with
    | (s, .data w) => let y := s.prefetch c a w; (y.1, .data y.2)
    | r => r
  else (s, .error)

/-- The instruction at pc, compressed ones as the words they stand for; 0, which is illegal, where they have none.
(Log entry 64 DEDUCED.) -/
def coreFetch (c : CoreId) (s : State) : State × Fetched :=
  let pc := ((s.d.cores[c]).pc).toNat
  match coreHalf c pc s with
  | (s, .held) => (s, .held)
  | (s, .error) => (s, .fault (BitVec.ofNat 32 pc))
  | (s, .data lo) =>
    if fld lo 0 2 ≠ 3 then (s, .word ((expandC lo).getD 0) 2)
    else
      let a := (pc + 2) % 2 ^ 32
      match coreHalf c a s with
      | (s, .held) => (s, .held)
      | (s, .error) => (s, .fault (BitVec.ofNat 32 a))
      | (s, .data hi) => (s, .word (pack [(0, lo.toNat), (16, hi.toNat)]) 4)

/-! ### Retiring -/

/-- Register of a core; x0 reads 0. -/
def Core.reg (x : Core) (r : Fin 32) : Word := if r.val = 0 then 0 else x.regs[r]

/-- A register takes a value; x0 takes none. -/
def Core.setReg (x : Core) (r : Fin 32) (v : Word) : Core := if r.val = 0 then x else { x with regs := x.regs.set r v }

/-- An instruction retires with its result, and the next one is at `pc`. -/
def Core.retire (x : Core) (rd : Fin 32) (v : Word) (pc : Word) : Core :=
  let x := x.setReg rd v
  { x with pc, csr := if bit x.csr.mcountinhibit 2 then x.csr else { x.csr with minstret := x.csr.minstret + 1 } }

/-- The same on the whole state.
(Log entry 66 DESIGN CHOICE.) -/
def coreRetire (c : CoreId) (rd : Fin 32) (v pc : Word) (s : State) : State :=
  { s with d := s.d.modCore c fun x => x.retire rd v pc }

/-- The core takes an exception.
(Log entry 63 DEDUCED.) -/
def coreExcept (c : CoreId) (code : Nat) (tval : Word) (s : State) : State := { s with d := s.d.except c code tval }

/-- The core stalls on a held access (R323). -/
def coreStall (c : CoreId) (a n : Nat) (v : Option Word) (s : State) : State :=
  { s with d := (s.d.hold (initOfCore c) a n v).modCore c fun x => { x with held := true } }

/-- The mode whose rights a load or store has (MPRV). -/
def Core.dataMach (x : Core) : Bool := if bit x.csr.mstatus 17 then fld x.csr.mstatus 11 2 = 3 else x.mach

/-! ### Loads, stores, atomics (R323, R324) -/

/-- A load or store at `next − len`. -/
def coreLoadStore (c : CoreId) (w next : Word) (s : State) : State :=
  let x := s.d.cores[c]
  if iOp w = 0x03 then
    match loadForm (iF3 w) with
    | none => coreExcept c 2 w s
    | some (n, signed) =>
      let a := x.reg (iRs1 w) + immI w
      if a.toNat % n ≠ 0 then coreExcept c 4 a s
      else if !x.csr.pmpOk x.dataMach a.toNat n 0 then coreExcept c 5 a s
      else match s.busRead (initOfCore c) a.toNat n false with
        | (s, .data v) => coreRetire c (iRd w) (if signed then sext (8 * n) v.toNat else v) next s
        | (s, .error) => coreExcept c 5 a s
        | (s, .held) => coreStall c a.toNat n none s
  else
    let n := 2 ^ iF3 w
    let a := x.reg (iRs1 w) + immS w
    let v := x.reg (iRs2 w)
    if a.toNat % n ≠ 0 then coreExcept c 6 a s
    else if !x.csr.pmpOk x.dataMach a.toNat n 1 then coreExcept c 7 a s
    else match s.busWrite (initOfCore c) a.toNat n v with
      | (s, .done) => coreRetire c 0 0 next s
      | (s, .error) => coreExcept c 7 a s
      | (s, .held) => coreStall c a.toNat n (some v) s

/-- The address is in chip SRAM or a region SRAM, which alone serve atomics (R324). -/
def atomicWindow (a : Nat) : Bool := match winOf a with | .csram _ => true | .rsram _ _ => true | _ => false

/-- LR.W: the word is loaded and reserved.
(Log entry 65 DEDUCED.) -/
def coreLr (c : CoreId) (w next : Word) (s : State) : State :=
  let x := s.d.cores[c]
  let a := x.reg (iRs1 w)
  if a.toNat % 4 ≠ 0 then coreExcept c 4 a s
  else if !atomicWindow a.toNat then coreExcept c 7 a s
  else if !x.csr.pmpOk x.dataMach a.toNat 4 0 then coreExcept c 5 a s
  else match s.busRead (initOfCore c) a.toNat 4 false with
    | (s, .data v) =>
      coreRetire c (iRd w) v next { s with d := s.d.modCore c fun x => { x with resv := some a } }
    | (s, _) => coreExcept c 5 a s

/-- SC.W: the word is stored under a valid reservation, which ends either way. -/
def coreSc (c : CoreId) (w next : Word) (s : State) : State :=
  let x := s.d.cores[c]
  let a := x.reg (iRs1 w)
  if a.toNat % 4 ≠ 0 then coreExcept c 6 a s
  else if !atomicWindow a.toNat || !x.csr.pmpOk x.dataMach a.toNat 4 1 then coreExcept c 7 a s
  else
    let drop := fun (s : State) => { s with d := s.d.modCore c fun x => { x with resv := none } }
    if x.resv = some a then
      match (drop s).busWrite (initOfCore c) a.toNat 4 (x.reg (iRs2 w)) with
      | (s, .done) => coreRetire c (iRd w) 0 next s
      | (s, _) => coreExcept c 7 a s
    else coreRetire c (iRd w) 1 next (drop s)

/-- An AMO: one read-modify-write. -/
def coreAmo (c : CoreId) (w next : Word) (s : State) : State :=
  let x := s.d.cores[c]
  let a := x.reg (iRs1 w)
  if a.toNat % 4 ≠ 0 then coreExcept c 6 a s
  else if !atomicWindow a.toNat || !x.csr.pmpOk x.dataMach a.toNat 4 0 || !x.csr.pmpOk x.dataMach a.toNat 4 1 then
    coreExcept c 7 a s
  else match s.busRead (initOfCore c) a.toNat 4 false with
    | (s, .data v) =>
      match amoOp (fld w 27 5) v (x.reg (iRs2 w)) with
      | none => coreExcept c 2 w s
      | some r =>
        match s.busWrite (initOfCore c) a.toNat 4 r with
        | (s, .done) => coreRetire c (iRd w) v next s
        | (s, _) => coreExcept c 7 a s
    | (s, _) => coreExcept c 7 a s

/-! ### CSR and system instructions -/

/-- A CSR instruction. A read of time latches the datum (R319).
(Log entry 63 DEDUCED.) -/
def coreCsr (c : CoreId) (w next : Word) (s : State) : State :=
  let x := s.d.cores[c]
  let n := iCsr w
  let write := csrWrites w
  let read := iF3 w % 4 ≠ 1 || (iRd w).val ≠ 0
  match s.d.csrRead c n with
  | none => coreExcept c 2 w s
  | some old =>
    if !x.mayCsr n write then coreExcept c 2 w s
    else
      let src := if 4 ≤ iF3 w then BitVec.ofNat 32 (iRs1 w).val else x.reg (iRs1 w)
      let v := match iF3 w % 4 with | 1 => src | 2 => old ||| src | _ => old &&& ~~~src
      let s := if read && n = 0xC01 then
        { s with d := s.d.modLatch (initOfCore c) fun l => { l with datum := s.d.datum.now } } else s
      let s := coreRetire c (iRd w) old next s
      if write then { s with d := s.d.modCsr c fun y => (if n = 0xB02 ∨ n = 0xB82 then x.csr else y).write n v } else s

/-- MRET. -/
def Core.mret (x : Core) : Core :=
  let st := x.csr.mstatus
  let mpp := fld st 11 2
  let st := setFld (setFld (setFld st 3 1 (fld st 7 1)) 7 1 1) 11 2 0
  let st := if mpp = 3 then st else clrBit st 17
  let y := x.retire 0 0 x.csr.mepc
  { y with mach := mpp = 3, csr := { y.csr with mstatus := st } }

/-- ECALL, EBREAK, MRET and CSR instructions. -/
def coreSystem (c : CoreId) (w next : Word) (s : State) : State :=
  let x := s.d.cores[c]
  if iF3 w % 4 ≠ 0 then coreCsr c w next s
  else if w = 0x00000073 then coreExcept c (if x.mach then 11 else 8) 0 s
  else if w = 0x00100073 then coreExcept c 3 x.pc s
  else if w = 0x30200073 ∧ x.mach then { s with d := s.d.modCore c Core.mret }
  else coreExcept c 2 w s

/-- WFI: the core stalls until an enabled interrupt is pending; in user mode it is illegal under TW. -/
def coreWfi (c : CoreId) (w next : Word) (s : State) : State :=
  let x := s.d.cores[c]
  if !x.mach ∧ bit x.csr.mstatus 21 then coreExcept c 2 w s
  else { s with d := s.d.modCore c fun x => { x.retire 0 0 next with wfi := true } }

/-- Every other instruction. -/
def coreOther (c : CoreId) (w next : Word) (s : State) : State :=
  let x := s.d.cores[c]
  let a := x.reg (iRs1 w)
  let b := x.reg (iRs2 w)
  let result := fun (r : Option Word) => match r with | some v => coreRetire c (iRd w) v next s | none => coreExcept c 2 w s
  match iOp w with
  | 0x37 => result (some (immU w))
  | 0x17 => result (some (x.pc + immU w))
  | 0x6F => coreRetire c (iRd w) next (x.pc + immJ w) s
  | 0x67 => if iF3 w = 0 then coreRetire c (iRd w) next (clrBit (a + immI w) 0) s else coreExcept c 2 w s
  | 0x63 =>
    match branchTaken (iF3 w) a b with
    | some t => coreRetire c 0 0 (if t then x.pc + immB w else next) s
    | none => coreExcept c 2 w s
  | 0x13 => result (aluImm w a)
  | 0x33 => result (aluReg (iF7 w) (iF3 w) a b)
  | 0x73 => coreSystem c w next s
  | _ => coreExcept c 2 w s

/-- FENCE.I: the prefetch buffer is emptied (R325). -/
def coreFenceI (c : CoreId) (next : Word) (s : State) : State :=
  coreRetire c 0 0 next { s with d := s.d.modCore c fun x => { x with pf := none } }

/-- The instruction's effect, by its group. -/
def coreEffect (k : CoreClass) (c : CoreId) (w next : Word) (s : State) : State :=
  match k with
  | .loadStore => coreLoadStore c w next s
  | .lr => coreLr c w next s
  | .sc => coreSc c w next s
  | .amo => coreAmo c w next s
  | .fence => coreRetire c 0 0 next s
  | .fenceI => coreFenceI c next s
  | .wfi => coreWfi c w next s
  | .time => coreCsr c w next s
  | .timecmp => coreCsr c w next s
  | .claim => coreCsr c w next s
  | .other => coreOther c w next s

/-- A core that stalls in WFI goes on once an enabled interrupt is pending, whatever mstatus.MIE. -/
def Dev.coreWakes (d : Dev) (c : CoreId) : Bool :=
  !(d.cores[c]).wfi || d.mip c &&& (d.cores[c]).csr.mie ≠ 0

/-- One instruction of a core, when the next one belongs to the group `k` (log entry 2); `u` are the bit errors that have
come up in stored words by then. A fetch that faults or is held belongs to the last group.
(Log entries 2 DESIGN CHOICE, 68 DESIGN CHOICE.) -/
def coreStep (k : CoreClass) (c : CoreId) (u : List BitErr) (s : State) : State :=
  if !s.d.coreLive c || !s.d.coreWakes c then s
  else
    let r := coreFetch c { s with d := (s.begun.d.upset u).modCore c fun x => { x with wfi := false } }
    match r.2 with
    | .word w len =>
      if classOf w = k then finish (coreEffect k c w ((s.d.cores[c]).pc + BitVec.ofNat 32 len) r.1) else s
    | .fault a => if k = .other then finish (coreExcept c 1 a r.1) else s
    | .held => if k = .other then finish (coreStall c (s.d.cores[c]).pc.toNat 2 none r.1) else s

/-- CORE_LOAD_STORE (R323). -/
def execCoreLoadStore (c : CoreId) (u : List BitErr) (s : State) : Host.Outcome State Fault Refusal :=
  .next (coreStep .loadStore c u s)

/-- CORE_LR_W (R324). -/
def execCoreLrW (c : Meets CoreId BitErr) (s : State) : Host.Outcome State Fault Refusal :=
  .next (coreStep .lr c.at_ c.met s)

/-- CORE_SC_W (R324). -/
def execCoreScW (c : CoreId) (s : State) : Host.Outcome State Fault Refusal := .next (coreStep .sc c [] s)

/-- CORE_AMO (R324). -/
def execCoreAmo (c : Meets CoreId BitErr) (s : State) : Host.Outcome State Fault Refusal :=
  .next (coreStep .amo c.at_ c.met s)

/-- CORE_FENCE (R29, R325): every earlier access of a core has completed when its next instruction runs.
(Log entry 64 DEDUCED.) -/
def execCoreFence (c : CoreId) (s : State) : Host.Outcome State Fault Refusal := .next (coreStep .fence c [] s)

/-- CORE_FENCE_I (R325): what is fetched from then on is what memory holds.
(Log entry 64 DEDUCED.) -/
def execCoreFenceI (c : CoreId) (s : State) : Host.Outcome State Fault Refusal := .next (coreStep .fenceI c [] s)

/-- CORE_WFI (R319). -/
def execCoreWfi (c : CoreId) (s : State) : Host.Outcome State Fault Refusal := .next (coreStep .wfi c [] s)

/-- CORE_TIME_READ (R184, R319). -/
def execCoreTimeRead (c : CoreId) (s : State) : Host.Outcome State Fault Refusal := .next (coreStep .time c [] s)

/-- MTIMECMP_WRITE (R320, R327). -/
def execMtimecmpWrite (c : CoreId) (s : State) : Host.Outcome State Fault Refusal := .next (coreStep .timecmp c [] s)

/-- MIRQCLAIM_WRITE (R322). -/
def execMirqclaimWrite (c : CoreId) (s : State) : Host.Outcome State Fault Refusal := .next (coreStep .claim c [] s)

/-- CORE_INSTRUCTION (R317). -/
def execCoreInstruction (c : Meets CoreId BitErr) (s : State) : Host.Outcome State Fault Refusal :=
  .next (coreStep .other c.at_ c.met s)

/-! ### The debug module and boundary scan (R234) -/

/-- A debug-module instruction acts on a core when the scope CORE is open. -/
def Dev.debugged (d : Dev) (c : CoreId) : Bool := d.dbg.opens 0 && (d.cores[c]).running && !(d.cores[c]).retired

/-- What a JTAG instruction shifts out. -/
def Dev.shiftOut (d : Dev) (l : List Byte) : Dev := { d with dbg := { d.dbg with jtagOut := l } }

/-- CAN_STBY is driven high in HOLD and STANDBY (R285). -/
def Dev.canStby (d : Dev) : Bool := d.pwr.now = .hold || d.pwr.now = .standby

/-- CAN_TXD is recessive (R281, R285): the port does not run, only monitors the bus, or has no frame to send. -/
def Dev.canRecessive (d : Dev) : Bool := d.can.mode = 0 || d.can.mode = 3 || d.can.nonode || d.can.out.isNone

/-- The level of a ball: 0 to 15 the GPIO balls, 16 + 2p + k line k of FEMCTLp, 64 CAN_STBY, 65 CAN_TXD. While EXTEST is
in force the boundary register drives the balls that its cells stand at (R234). The level of any other ball, and of
CAN_TXD during a frame, is free.
(Log entries 10 UNVERIFIED, 12 UNVERIFIED.) -/
def Dev.ballLevel (d : Dev) (b cell : Nat) : Bool :=
  let free := Config.freeValue (d.freeCtr + cell) % 2 = 1
  if d.dbg.extest ∧ cell < d.dbg.boundary.length then d.dbg.boundary.getD cell false
  else if b < 16 then d.gpioLevel.getLsbD b
  else if b < 64 then (d.ports[(Fin.ofNat 24 ((b - 16) / 2) : PortId)]).tx.femLevel.getLsbD (b % 2)
  else if b = 64 then d.canStby
  else if b = 65 then (if d.canRecessive then true else free)
  else free

/-- What SAMPLE shifts out: the level of the ball of each cell, eight cells in a byte. -/
def Dev.scanned (d : Dev) : List Byte :=
  (List.range ((Config.scanLength + 7) / 8)).map fun i =>
    BitVec.ofNat 8 (bitsNat ((List.range 8).map fun j => d.ballLevel (Config.scanCell (8 * i + j)) (8 * i + j)))

/-- An access through a halted core, with the rights of machine mode whatever mode the core was halted in (R236).
(Log entry 65 DEDUCED.) -/
def State.asMachine {α : Type} (s : State) (c : CoreId) (f : State → State × α) : State × α :=
  let m := (s.d.cores[c]).mach
  let r := f { s with d := s.d.modCore c fun x => { x with mach := true } }
  ({ r.1 with d := r.1.d.modCore c fun x => { x with mach := m } }, r.2)

/-- A bus read through a core; nothing is shifted out where it does not complete. -/
def debugRead (c : CoreId) (a : Nat) (s : State) : State :=
  if !(s.d.cores[c]).csr.pmpOk true a 4 0 then { s with d := s.d.shiftOut [] }
  else match s.asMachine c fun s => s.busRead (initOfCore c) a 4 false with
    | (s, .data w) => { s with d := s.d.shiftOut (natBytes 4 w.toNat) }
    | (s, _) => { s with d := s.d.shiftOut [] }

/-- A bus write through a core. -/
def debugWrite (c : CoreId) (a : Nat) (v : Word) (s : State) : State :=
  if !(s.d.cores[c]).csr.pmpOk true a 4 1 then s else (s.asMachine c fun s => s.busWrite (initOfCore c) a 4 v).1

/-- The next instruction of a core, of whatever group. -/
def coreNext (c : CoreId) (s : State) : State :=
  match (coreFetch c s).2 with
  | .word w _ => coreStep (classOf w) c [] s
  | _ => coreStep .other c [] s

/-- JTAG_INSTRUCTION (R234): a locked instruction is bypassed. Every instruction but EXTEST leaves the balls to the
module. What a test-mode instruction does is not stated.
(Log entry 79 DESIGN CHOICE.) -/
def execJtagInstruction (x : JtagIns) (s : State) : Host.Outcome State Fault Refusal :=
  let dev := fun (f : Dev → Dev) =>
    Host.Outcome.next (onDev (fun d => let e := f d; { e with dbg := { e.dbg with extest := false } }) s)
  let locked := dev fun d => d.shiftOut [0]
  let onCore := fun (c : CoreId) (go : State → State) =>
    if s.d.debugged c then
      Host.Outcome.next (finish (go { s with d := { s.begun.d with dbg := { s.d.dbg with extest := false } } }))
    else locked
  match x with
  | .bypass => locked
  | .idcode => dev fun d => d.shiftOut (natBytes 4 Config.idcode.toNat)
  | .sample l => dev fun d => { d.shiftOut d.scanned with dbg := { (d.shiftOut d.scanned).dbg with boundary := l } }
  | .extest l => .next (onDev (fun d => { d with dbg := { d.dbg with boundary := l, extest := true } }) s)
  | .halt c => onCore c fun s => { s with d := s.d.modCore c fun y => { y with halted := true } }
  | .resume c => onCore c fun s => { s with d := s.d.modCore c fun y => { y with halted := false } }
  | .stepCore c => onCore c fun s =>
      if !(s.d.cores[c]).halted then s
      else
        let t := coreNext c { s with d := s.d.modCore c fun y => { y with halted := false } }
        { t with d := t.d.modCore c fun y => { y with halted := true } }
  | .readReg c r => onCore c fun s =>
      if (s.d.cores[c]).halted then { s with d := s.d.shiftOut (natBytes 4 ((s.d.cores[c]).reg r).toNat) } else s
  | .writeReg c r v => onCore c fun s =>
      if (s.d.cores[c]).halted then { s with d := s.d.modCore c fun y => y.setReg r v } else s
  | .busRead c a => onCore c fun s => if (s.d.cores[c]).halted then debugRead c (a.toNat / 4 * 4) s else s
  | .busWrite c a v => onCore c fun s => if (s.d.cores[c]).halted then debugWrite c (a.toNat / 4 * 4) v s else s
  | .testMode _ => if s.d.dbg.opens 1 then .refused .testMode else locked

end Sys2Proof.Machine
end

