-- ==== Sys2Proof/Machine/Dma.lean ====
section
/-! DEFINITION. The bursts of the two DMA engines of a region (R363 to R368). Queue words and memory are read and
written as accesses of the region's DMA block; an access that is held leaves the rest of its burst for the next one. -/

namespace Sys2Proof.Machine

/-- The local queue that a descriptor's address field names. -/
def dmaQueue (r : RegionId) (a : Word) : QueueId := queueOf r (Fin.ofNat 32 (fld a 0 5))

/-- The address of element k of a side of kind MEM or FIXED (R363). -/
def Desc.addr (kind : Nat) (base : Word) (elem k : Nat) : Nat := if kind = 0 then base.toNat + elem * k else base.toNat

/-- Elements up to the next 128-byte boundary of a MEM address (R364).
(Log entry 71 DEDUCED.) -/
def toBoundary (kind : Nat) (base : Word) (elem k : Nat) : Nat :=
  if kind = 0 then (128 - Desc.addr kind base elem k % 128) / elem else 16

/-- The channel's elements that may be read next at most: 16, the count, and the boundaries of R364.
(Log entry 71 DEDUCED.) -/
def DmaChan.burstMax (c : DmaChan) (x : Desc) : Nat :=
  min (min 16 (x.cnt - c.taken))
    (min (toBoundary x.srcKind x.src x.elem c.taken) (toBoundary x.dstKind x.dst x.elem c.taken))

/-- The words of a source queue that a burst of at most n takes (R364).
(Log entry 71 DEDUCED.) -/
def Desc.queueBurst (x : Desc) (q : Queue) (n : Nat) : Nat :=
  let k := min n q.words.length
  if x.pkt then
    match (q.words.take k).findIdx? (·.eop) with
    | some i => i + 1
    | none => k
  else k

/-- Elements of the next read burst; 0 when the channel is not ready (R364, R365). A disabled source queue lets a burst
of one be issued, which fails.
(Log entry 71 DEDUCED.) -/
def Dev.readBurst (d : Dev) (r : RegionId) (c : DmaChan) : Nat :=
  match c.active with
  | none => 0
  | some x =>
    let src := d.queue (dmaQueue r x.src)
    let dst := d.queue (dmaQueue r x.dst)
    let n := if x.srcKind = 2 then (if src.en then x.queueBurst src (c.burstMax x) else 1) else c.burstMax x
    if 0 < c.rdLeft then c.rdLeft
    else if c.readEnd ≠ .open_ || c.aborting || 128 ≤ c.buf.length || 512 < (d.regions[r]).dma.used + n ||
        (x.dstKind = 2 && dst.en && dst.free < n) then 0
    else n

/-- What the read of one element gives. -/
inductive ElemRead where
  | got (e : Elem)
  | error (a : Word)
  | held
  deriving DecidableEq, Repr

/-- The read of one element (R363); a queue word with two wrong bits fails (R358, R368). The failing address of a queue is
its data register's.
(Log entry 71 DEDUCED.) -/
def elemRead (r : RegionId) (x : Desc) (k : Nat) (s : State) : State × ElemRead :=
  if x.srcKind = 2 then
    let q := dmaQueue r x.src
    match (s.d.queue q).en, (s.d.queue q).words with
    | true, w :: _ =>
      ({ s with d := s.d.takeWords q 1 },
       if w.err = some true then .error (BitVec.ofNat 32 (queReg q 0x30)) else .got { data := w.data, eop := w.eop })
    | true, [] => (s, .held)
    | false, _ => (s, .error (BitVec.ofNat 32 (queReg q 0x30)))
  else
    let a := Desc.addr x.srcKind x.src x.elem k
    if x.elem = 8 then
      match s.load8 a with
      | (s, none) => (s, .held)
      | (s, some (.ok w)) => (s, .got { data := w, eop := false })
      | (s, some (.error _)) => (s, .error (BitVec.ofNat 32 a))
    else
      match s.busRead (initOfDma r) a 4 false with
      | (s, .data w) => (s, .got { data := w.setWidth 64, eop := false })
      | (s, .error) => (s, .error (BitVec.ofNat 32 a))
      | (s, .held) => (s, .held)

/-- The buffer of a channel takes an element; an aborting channel drops one that comes from no queue (R369). -/
def DmaChan.got (c : DmaChan) (x : Desc) (e : Elem) : DmaChan :=
  { c with buf := if c.aborting && x.srcKind ≠ 2 then c.buf else c.buf ++ [e], taken := c.taken + 1
           readEnd := if x.pkt && e.eop then .eop else if x.cnt ≤ c.taken + 1 then .count else .open_ }

/-- Up to n elements enter the buffer; the flag tells that the burst ended, not held. -/
def dmaReads (r : RegionId) (n : Fin 32) : Nat → State → State × Bool
  | 0, s =>
    let s := { s with d := s.d.modDma n fun c => { c with rdLeft := 0 } }
    (if (s.d.dma n).stopped then dmaEnd n .aborted s else s, true)
  | k + 1, s =>
    match (s.d.dma n).active with
    | none => (s, true)
    | some x =>
      match elemRead r x (s.d.dma n).taken s with
      | (s, .held) => ({ s with d := s.d.modDma n fun c => { c with rdLeft := k + 1 } }, false)
      | (s, .error a) => (dmaEnd n (.err a (s.d.dma n).cnt false) s, true)
      | (s, .got e) => dmaReads r n k { s with d := s.d.modDma n fun c => c.got x e }

/-- The first channel from `turn` on, round the eight, that meets a condition. -/
def nextChan (turn : Nat) (f : Fin 8 → Bool) : Option (Fin 8) :=
  ((List.range 8).map fun i => (Fin.ofNat 8 (turn + i))).find? f

/-- The global number of a channel. -/
def chanNo (r : RegionId) (c : Fin 8) : Fin 32 := ⟨8 * r.val + c.val, by omega⟩

/-- The DMA block of a region can work: powered and awake. -/
def Dev.dmaOn (d : Dev) (r : RegionId) : Bool := d.datumCounts && !(d.regions[r]).retired

/-- DMA_READ_BURST (R364, R365). -/
def dmaReadBurst (r : RegionId) (s : State) : State :=
  if !s.d.dmaOn r then s
  else
    let x := (s.d.regions[r]).dma
    match nextChan x.rdTurn fun c => 0 < s.d.readBurst r x.chans[c] with
    | none => s
    | some c =>
      let t := dmaReads r (chanNo r c) (s.d.readBurst r x.chans[c]) s
      { t.1 with d := t.1.d.modRegion r fun g => { g with dma := { g.dma with rdTurn := if t.2 then c.val + 1 else c.val } } }

/-- One 32-bit word through SWAP (R366). -/
def swapWord (mode : Nat) (w : Word) : Word :=
  let b := fun i => fld w (8 * i) 8
  match mode with
  | 1 => pack [(0, b 1), (8, b 0), (16, b 3), (24, b 2)]
  | 2 => pack [(0, b 2), (8, b 3), (16, b 0), (24, b 1)]
  | 3 => pack [(0, b 3), (8, b 2), (16, b 1), (24, b 0)]
  | _ => w

/-- An element through SWAP, as two words. -/
def swapElem (mode : Nat) (w : Word64) : Word64 := join64 (swapWord mode (hi32 w)) (swapWord mode (lo32 w))

/-- The CRC-32 of R247 carried on over more bytes. -/
def crcOn (c : Word) (l : List Byte) : Word := BitVec.ofNat 32 (crcBytes l (c.toNat ^^^ 0xFFFFFFFF) ^^^ 0xFFFFFFFF)

/-- A write of n bytes of a destination (R363), with its address. `fail`: it has been held, and its queue has been
disabled since (R354).
(Log entry 71 DEDUCED.) -/
def destWrite (r : RegionId) (x : Desc) (a n : Nat) (w : Word64) (eop fail : Bool) (s : State) : State × Wr × Word :=
  if fail then (s, .error, BitVec.ofNat 32 (if x.dstKind = 2 then queReg (dmaQueue r x.dst) 0x20 else a))
  else if x.dstKind = 2 then
    let q := dmaQueue r x.dst
    let at_ : Word := BitVec.ofNat 32 (queReg q 0x20)
    let y := s.d.queue q
    if !y.en then (s, .error, at_)
    else if y.full && !y.discard then (s, .held, at_)
    else ({ s with d := (s.d.wakeDomain r 8).modQueue q fun y => y.push w eop }, .done, at_)
  else
    let at_ : Word := BitVec.ofNat 32 a
    if n = 8 then
      let t := s.store8 a w
      (t.1, if t.2 then .done else .error, at_)
    else
      let t := s.busWrite (initOfDma r) a 4 (lo32 w)
      (t.1, t.2, at_)

/-- The CRC word of R367: where it goes, and its width. A MEM destination takes 4 bytes.
(Log entry 72 DEDUCED.) -/
def dmaCrcWrite (r : RegionId) (x : Desc) (c : DmaChan) (s : State) : State × Wr × Word :=
  let a := Desc.addr x.dstKind x.dst x.elem c.written
  let n := if x.dstKind = 0 then 4 else x.elem
  destWrite r x a n (c.crc.setWidth 64) (x.eop && c.cnt = 0) c.pushFail s

/-- The end of a descriptor whose elements are all written, if it has come (R367 to R369); the flag tells that nothing
was held.
(Log entry 72 DEDUCED.) -/
def dmaFinish (r : RegionId) (n : Fin 32) (s : State) : State × Bool :=
  let c := s.d.dma n
  match c.active with
  | none => (s, true)
  | some x =>
    if !c.buf.isEmpty then (s, true)
    else if c.aborting then (if c.stopped then dmaEnd n .aborted s else s, true)
    else
      let stop := fun (b : Bool) =>
        if x.crcStore then
          match dmaCrcWrite r x c s with
          | (s, .done, _) => (dmaEnd n (.done b) s, true)
          | (s, .error, a) => (dmaEnd n (.err a c.cnt false) s, true)
          | (s, .held, _) => (s, false)
        else (dmaEnd n (.done b) s, true)
      match c.readEnd with
      | .count => stop false
      | .eop => stop true
      | _ => (s, true)

/-- The write of the next element is issued (R365): DMA_CNT falls, once, however often a held write is made again. -/
def DmaChan.issue (c : DmaChan) : DmaChan := if c.issued then c else { c with cnt := c.cnt - 1, issued := true }

/-- Up to n elements leave the buffer (R365 to R368); the flag tells that the burst was not held. -/
def dmaWrites (r : RegionId) (n : Fin 32) : Nat → State → State × Bool
  | 0, s => ({ s with d := s.d.modDma n fun c => { c with wrLeft := 0 } }, true)
  | k + 1, s =>
    let c := (s.d.dma n).issue
    match c.active, c.buf with
    | some x, e :: rest =>
      let s := { s with d := s.d.modDma n DmaChan.issue }
      let w := swapElem x.swap e.data
      let last := c.cnt = 0
      match destWrite r x (Desc.addr x.dstKind x.dst x.elem c.written) x.elem w (x.eop && last && !x.crcStore) c.pushFail s with
      | (s, .held, _) => ({ s with d := s.d.modDma n fun c => { c with wrLeft := k + 1 } }, false)
      | (s, .error, a) => (dmaEnd n (if last then .err a 0 true else .err a (c.cnt + 1) false) s, true)
      | (s, .done, _) =>
        dmaWrites r n k { s with d := s.d.modDma n fun c =>
          { c with buf := rest, issued := false, written := c.written + 1
                   crc := if x.crcOn then crcOn c.crc (natBytes x.elem w.toNat) else c.crc } }
    | _, _ => ({ s with d := s.d.modDma n fun c => { c with wrLeft := 0 } }, true)

/-- Elements of the next write burst; the flag tells that the channel is ready. A destination queue must have FREE for
the burst, and for the CRC word behind it (R364).
(Log entry 71 DEDUCED.) -/
def Dev.writeBurst (d : Dev) (r : RegionId) (c : DmaChan) : Nat × Bool :=
  match c.active with
  | none => (0, false)
  | some x =>
    let n := if 0 < c.wrLeft then c.wrLeft else min (min 16 c.buf.length) (toBoundary x.dstKind x.dst x.elem c.written)
    let closing := c.readEnd ≠ .open_ && c.buf.length ≤ n
    let dst := d.queue (dmaQueue r x.dst)
    let need := n + b2n (closing && x.crcStore)
    (n, (0 < n || closing || c.stopped) && !(x.dstKind = 2 && dst.en && !dst.discard && dst.free < need))

/-- DMA_WRITE_BURST (R365). -/
def dmaWriteBurst (r : RegionId) (s : State) : State :=
  if !s.d.dmaOn r then s
  else
    let x := (s.d.regions[r]).dma
    match nextChan x.wrTurn fun c => (s.d.writeBurst r x.chans[c]).2 with
    | none => s
    | some c =>
      let n := chanNo r c
      let t := dmaWrites r n (s.d.writeBurst r x.chans[c]).1 s
      let u := if t.2 then dmaFinish r n t.1 else t
      { u.1 with d := u.1.d.modRegion r fun g => { g with dma := { g.dma with wrTurn := if u.2 then c.val + 1 else c.val } } }

/-- DMA_READ_BURST (R364), with the bit errors that have come up in stored words by then (R329, R338, R358). -/
def execDmaReadBurst (r : Meets RegionId BitErr) (s : State) : Host.Outcome State Fault Refusal :=
  .next (finish (dmaReadBurst r.at_ (s.begun.upset r.met)))

/-- DMA_WRITE_BURST (R365). -/
def execDmaWriteBurst (r : RegionId) (s : State) : Host.Outcome State Fault Refusal := .next (finish (dmaWriteBurst r s.begun))

end Sys2Proof.Machine
end

