-- ==== Sys2Proof/Machine/Trunk.lean ====
section
/-! DEFINITION. What the requests of a trunk link do (R251, R253 to R259). A command executes the request at the front of
the link's admitted ones, if it is of the command's kind. -/

namespace Sys2Proof.Machine

/-! ### Which request runs -/

/-- The queue that a request names. -/
def TrunkReq.queue (r : TrunkReq) : QueueId := Fin.ofNat 128 r.addr.toNat

/-- The request reads or writes a queue. -/
def TrunkReq.usesQueue (r : TrunkReq) : Bool := r.opc = 3 || r.opc = 4 || r.opc = 7

/-- It waits behind a parked request of its link on the same queue (R251).
(Log entry 60 DEDUCED.) -/
def Trunk.behind (k : Trunk) (r : TrunkReq) : Bool := r.usesQueue && k.parked.any fun p => p.req.addr = r.addr

/-- The front request, when the link can execute it and it is of the kind.
(Log entry 60 DEDUCED.) -/
def Dev.frontReq (d : Dev) (l : LinkId) (kind : TrunkReq → Bool) : Option TrunkReq :=
  let k := d.links[l]
  match k.admitted with
  | r :: _ => if d.datumCounts && k.run.isNone && kind r && !k.behind r then some r else none
  | [] => none

/-- The front request leaves the list. -/
def Dev.popReq (d : Dev) (l : LinkId) : Dev := d.modTrunk l fun k => { k with admitted := k.admitted.drop 1 }

/-- The front request of a kind is executed by `f`; its reply is made by `f` or later. `gate`: it needs RUN.
(Log entry 60 DEDUCED.) -/
def trunkExec (l : LinkId) (kind : TrunkReq → Bool) (gate : Bool) (f : TrunkReq → State → State) (s : State) : State :=
  match s.d.frontReq l kind with
  | none => s
  | some r =>
    let s := { s with d := s.begun.d.popReq l }
    match (if gate then s.d.notReady else none) with
    | some e => finish { s with d := s.d.trkDone l r e 0 [] }
    | none => finish (f r s)

/-- A reply. -/
def trunkReply (l : LinkId) (r : TrunkReq) (status aux : Nat) (data : List Byte) (s : State) : State :=
  { s with d := s.d.trkDone l r status aux data }

/-! ### Memory (R254) -/

/-- The window of R32 that an address lies in, by a number of its own. -/
def windowNo (a : Nat) : Option Nat :=
  match winOf a with
  | .rom _ => some 0
  | .flash o => some (1 + o / 0x400000)
  | .csram _ => some 3
  | .rsram r _ => some (4 + r.val)
  | .ctx _ => some 8
  | .chip _ _ => some 9
  | .region r _ _ => some (10 + r.val)
  | .port p _ => some (14 + p.val)
  | .outside => none

/-- TRK_ACL permits the window of an address (R263); the trunk page is denied always. -/
def Dev.aclOk (d : Dev) (a : Nat) : Bool :=
  let b := fun i => bit d.trk.acl i
  match winOf a with
  | .rom _ => b 0
  | .flash _ => b 1
  | .csram _ => b 2
  | .rsram r _ => b (3 + r.val)
  | .ctx _ => b 7
  | .chip page _ => b 8 && page ≠ 7
  | .region r _ _ => b (9 + r.val)
  | .port _ _ => b 13
  | .outside => false

/-- The trunk page lies in the span of a request. -/
def touchesTrunk (a n : Nat) : Bool := a < 0x40080000 && 0x40070000 < a + n

/-- Why a MEMRD or MEMWR is refused before any access (R253, R254): a STATUS. -/
def Dev.memRefusal (d : Dev) (r : TrunkReq) : Option Nat :=
  let a := r.addr.toNat
  if r.param ≠ 0 ∨ r.len < 4 ∨ 4096 < r.len then some 2
  else if a % 4 ≠ 0 ∨ r.len % 4 ≠ 0 ∨ windowNo a = none ∨ windowNo a ≠ windowNo (a + r.len - 1) then some 3
  else if !d.aclOk a || touchesTrunk a r.len || (r.opc = 2 && !bit d.trk.acl 14) then some 4
  else none

/-- The link's request in progress, with its accesses done and the bytes read: it counts as one whose reply has not been
produced (R408). -/
def trunkAt (l : LinkId) (r : TrunkReq) (k : Nat) (out : List Byte) (s : State) : State :=
  { s with d := s.d.modTrunk l fun t => { t with run := some (r, k, out), pushFail := false } }

/-- The reply of the request in progress. -/
def trunkOver (l : LinkId) (r : TrunkReq) (status : Nat) (data : List Byte) (s : State) : State :=
  trunkReply l r status 0 data { s with d := s.d.modTrunk l fun t => { t with run := none, pushFail := false } }

/-- The accesses of a MEMRD from the k-th on: `fuel` of them are left. A held access leaves the request in `run`. -/
def memRead_ (l : LinkId) (r : TrunkReq) : Nat → Nat → List Byte → State → State
  | 0, _, out, s => trunkOver l r 0 out s
  | fuel + 1, k, out, s =>
    match (trunkAt l r k out s).busRead (initOfLink l) (r.addr.toNat + 4 * k) 4 false with
    | (s, .data w) => memRead_ l r fuel (k + 1) (out ++ natBytes 4 w.toNat) s
    | (s, .error) => trunkOver l r 5 out s
    | (s, .held) => s

/-- The accesses of a MEMWR. -/
def memWrite_ (l : LinkId) (r : TrunkReq) : Nat → Nat → State → State
  | 0, k, s => trunkOver l r 0 (natBytes 2 k) s
  | fuel + 1, k, s =>
    match (trunkAt l r k [] s).busWrite (initOfLink l) (r.addr.toNat + 4 * k) 4 (BitVec.ofNat 32 (bytesNat (slice r.data (4 * k) 4))) with
    | (s, .done) => memWrite_ l r fuel (k + 1) s
    | (s, .error) => trunkOver l r 5 (natBytes 2 k) s
    | (s, .held) => s

/-- A held MEMRD or MEMWR goes on (R16); a push whose queue has been disabled meanwhile fails (R354). -/
def trunkResume (l : LinkId) (s : State) : State :=
  match (s.d.links[l]).run with
  | some (r, k, out) =>
    if r.opc = 1 then memRead_ l r (r.len / 4 - k) k out s
    else if r.opc = 2 then
      (if (s.d.links[l]).pushFail then trunkOver l r 5 (natBytes 2 k) s else memWrite_ l r (r.len / 4 - k) k s)
    else s
  | none => s

/-! ### Queues (R255, R256) -/

/-- Why a queue request is refused: BADLEN, DENIED, BADQ.
(Log entry 60 DEDUCED.) -/
def Dev.queueRefusal (d : Dev) (r : TrunkReq) : Option Nat :=
  if 128 ≤ r.addr.toNat ∨ r.len < 8 ∨ 4096 < r.len then some 2
  else if (r.opc = 7 ∧ (r.param < 1 ∨ 1000 < r.param)) ∨ (r.opc ≠ 7 ∧ r.param ≠ 0) ∨ (r.opc = 4 ∧ r.len % 8 ≠ 0) then some 2
  else if !bit d.trk.acl 15 then some 4
  else if !d.queueUsable r.queue then some 12
  else none

/-- How many words a QRD takes.
(Log entry 60 DEDUCED.) -/
def qrdCount (q : Queue) (n : Nat) (pkt : Bool) : Nat :=
  let k := min n q.words.length
  if pkt then (match (q.words.take k).findIdx? (·.eop) with | some i => i + 1 | none => k) else k

/-- A QRD is carried out (R255). -/
def Dev.qrd (d : Dev) (l : LinkId) (r : TrunkReq) (pkt : Bool) : Dev :=
  let q := d.queue r.queue
  let n := qrdCount q (r.len / 8) pkt
  let ws := q.words.take n
  let d := d.takeWords r.queue n
  let eop := match ws.getLast? with | some w => w.eop | none => false
  let aux := bitsNat [eop, decide ((d.queue r.queue).pktcnt = 0)]
  d.trkDone l r 0 aux (bytesOf64 (ws.map (·.value)))

/-- The request parks: it gives its units back (R249, R251).
(Log entry 60 DEDUCED.) -/
def Dev.park (d : Dev) (l : LinkId) (r : TrunkReq) (until_ : Nat) : Dev :=
  (d.modTrunk l fun k => { k with parked := k.parked ++ [{ req := { r with units := 0 }, until_ }] }).trkFree l r.units

/-- A parked SREAD on the queue, on either link, that was admitted before.
(Log entry 60 DEDUCED.) -/
def Dev.olderSread (d : Dev) (r : TrunkReq) : Bool :=
  (List.finRange 2).any fun l => (d.links[l]).parked.any fun p => p.req.opc = 7 && p.req.addr = r.addr && p.req.seq < r.seq

/-- The words of a QWR (R255). -/
def TrunkReq.words (r : TrunkReq) : List (Word64 × Bool) :=
  let ws := words64Of r.data
  ws.dropLast.map (·, false) ++ ws.getLast?.toList.map (·, r.flags.testBit 1)

/-- A QWR writes its words if there is space.
(Log entry 60 DEDUCED.) -/
def Dev.qwr (d : Dev) (l : LinkId) (r : TrunkReq) : Option Dev :=
  if r.len / 8 ≤ (d.queue r.queue).free then
    some (((d.wakeDomain (regionOfQueue r.queue) 8).modQueue r.queue fun q => q.pushAll r.words).trkDone l r 0 0 [])
  else none

/-- A parked request of a tag, of an opcode. -/
def Trunk.parkedTag (k : Trunk) (t : Fin 32) (opc : Nat) : Option Parked := k.parked.find? fun p => p.req.tag = t && p.req.opc = opc

/-- It leaves the parked ones. -/
def Dev.unpark (d : Dev) (l : LinkId) (p : Parked) : Dev := d.modTrunk l fun k => { k with parked := k.parked.erase p }

/-! ### Commands -/

/-- TRUNK_PING (R253). -/
def execTrunkPing (l : LinkId) (s : State) : Host.Outcome State Fault Refusal :=
  .next (trunkExec l (fun r => r.opc = 0) false (fun r s =>
    if r.addr ≠ 0 ∨ r.len ≠ 0 ∨ r.param ≠ 0 then trunkReply l r 2 0 [] s else trunkReply l r 0 s.d.stateCode [] s) s)

/-- TRUNK_MEMRD (R254), with the bit errors that have come up in stored words by then. -/
def execTrunkMemrd (l : Meets LinkId BitErr) (s : State) : Host.Outcome State Fault Refusal :=
  .next (trunkExec l.at_ (fun r => r.opc = 1) true (fun r s =>
    match s.d.memRefusal r with
    | some e => trunkReply l.at_ r e 0 [] s
    | none => memRead_ l.at_ r (r.len / 4) 0 [] (s.upset l.met)) s)

/-- TRUNK_MEMWR (R254). -/
def execTrunkMemwr (l : LinkId) (s : State) : Host.Outcome State Fault Refusal :=
  .next (trunkExec l (fun r => r.opc = 2) true (fun r s =>
    match s.d.memRefusal r with
    | some e => trunkReply l r e 0 [] s
    | none => memWrite_ l r (r.len / 4) 0 s) s)

/-- TRUNK_QRD (R255), with the bit errors that have come up in stored words by then (R358). -/
def execTrunkQrd (l : Meets LinkId BitErr) (s : State) : Host.Outcome State Fault Refusal :=
  .next (trunkExec l.at_ (fun r => r.opc = 3) true (fun r s =>
    match s.d.queueRefusal r with
    | some e => trunkReply l.at_ r e 0 [] s
    | none => { s with d := (s.d.upset l.met).qrd l.at_ r (r.flags.testBit 2) }) s)

/-- TRUNK_QWR (R255). -/
def execTrunkQwr (l : LinkId) (s : State) : Host.Outcome State Fault Refusal :=
  .next (trunkExec l (fun r => r.opc = 4) true (fun r s =>
    match s.d.queueRefusal r with
    | some e => trunkReply l r e 0 [] s
    | none =>
      match s.d.qwr l r with
      | some d => { s with d := d }
      | none =>
        if s.d.qwaitTicks = 0 then trunkReply l r 6 0 [] s
        else { s with d := s.d.park l r (s.d.now + s.d.qwaitTicks) }) s)

/-- QWR_RESUME (R255): space has come. -/
def execQwrResume (l : LinkId) (t : Fin 32) (s : State) : Host.Outcome State Fault Refusal :=
  .next (onDev (fun d =>
    match (d.links[l]).parkedTag t 4 with
    | none => d
    | some p =>
      if !d.queueUsable p.req.queue then (d.unpark l p).trkDone l p.req 12 0 []
      else ((d.unpark l p).qwr l p.req).getD d) s)

/-- QWR_PARK_TIMEOUT (R255). -/
def execQwrParkTimeout (l : LinkId) (t : Fin 32) (s : State) : Host.Outcome State Fault Refusal :=
  .next (onDev (fun d =>
    match (d.links[l]).parkedTag t 4 with
    | none => d
    | some p => ((d.until_ p.until_).unpark l p).trkDone l p.req 6 0 []) s)

/-- TRUNK_SREAD (R256). -/
def execTrunkSread (l : LinkId) (s : State) : Host.Outcome State Fault Refusal :=
  .next (trunkExec l (fun r => r.opc = 7) true (fun r s =>
    match s.d.queueRefusal r with
    | some e => trunkReply l r e 0 [] s
    | none =>
      if 0 < (s.d.queue r.queue).pktcnt ∧ !s.d.olderSread r then { s with d := s.d.qrd l r true }
      else if 8 ≤ (s.d.links[l]).standing then trunkReply l r 8 0 [] s
      else { s with d := s.d.park l r (r.at_ + r.param * 20000) }) s)

/-- SREAD_SERVED (R256): a packet has come, and no SREAD admitted earlier waits for it. -/
def execSreadServed (l : LinkId) (t : Fin 32) (s : State) : Host.Outcome State Fault Refusal :=
  .next (onDevW (fun d =>
    match (d.links[l]).parkedTag t 7 with
    | none => d
    | some p =>
      if !d.queueUsable p.req.queue then (d.unpark l p).trkDone l p.req 12 0 []
      else if (d.queue p.req.queue).pktcnt = 0 ∨ d.olderSread p.req then d
      else (d.unpark l p).qrd l p.req true) s)

/-- SREAD_TIMEOUT (R256). -/
def execSreadTimeout (l : LinkId) (t : Fin 32) (s : State) : Host.Outcome State Fault Refusal :=
  .next (onDev (fun d =>
    match (d.links[l]).parkedTag t 7 with
    | none => d
    | some p => ((d.until_ p.until_).unpark l p).trkDone l p.req 7 0 []) s)

/-- The carrier of a trunk link (R278). -/
def carrierOf (l : LinkId) : Carrier := ⟨1 + l.val, by omega⟩

/-- A DICT request at the front goes to the dispatcher (R257); it waits while the carrier owes an answer.
(Log entry 61 DEDUCED.) -/
def trunkDict (l : LinkId) (s : State) : State :=
  let c := carrierOf l
  match s.d.frontReq l fun r => r.opc = 5 with
  | none => s
  | some r =>
    if s.d.owed c then s
    else
      let s := { s with d := s.begun.d.popReq l }
      if r.addr ≠ 0 ∨ r.param ≠ 0 ∨ r.len < 1 ∨ 256 < r.len then finish (trunkReply l r 2 0 [] s)
      else match dictNotReady s.d r.data with
        | some e => finish (trunkReply l r e 0 [] s)
        | none =>
          finish (tdpServe c r.data true { s with d := s.d.modTrunk l fun k => { k with run := some (r, 0, []) } })

/-- TRUNK_DICT (R257). -/
def execTrunkDict (l : LinkId) (s : State) : Host.Outcome State Fault Refusal := .next (trunkDict l s)

/-- The mailbox of an MBX request, or the STATUS that refuses it (R253, R257).
(Log entry 60 DEDUCED.) -/
def mbxOf (r : TrunkReq) : Except Nat (Fin 16) :=
  if r.addr.toNat < 12 ∨ 16 ≤ r.addr.toNat then .error 13
  else if r.len ≠ 0 ∧ r.len ≠ 4 then .error 2
  else .ok (Fin.ofNat 16 r.addr.toNat)

/-- The mailbox number of a link (R372). -/
def partyOf (l : LinkId) : Fin 10 := ⟨8 + l.val, by omega⟩

/-- TRUNK_MBX_POST (R257). -/
def execTrunkMbxPost (l : LinkId) (s : State) : Host.Outcome State Fault Refusal :=
  .next (trunkExec l (fun r => r.opc = 6 && r.param = 1) true (fun r s =>
    match mbxOf r with
    | .error e => trunkReply l r e 0 [] s
    | .ok m =>
      let x := s.d.mbxPost (partyOf l) m (BitVec.ofNat 32 (bytesNat r.data))
      trunkReply l r (if x.2 then 0 else 6) 0 [] { s with d := x.1 }) s)

/-- TRUNK_MBX_TAKE (R257). -/
def execTrunkMbxTake (l : LinkId) (s : State) : Host.Outcome State Fault Refusal :=
  .next (trunkExec l (fun r => r.opc = 6 && r.param = 2) true (fun r s =>
    match mbxOf r with
    | .error e => trunkReply l r e 0 [] s
    | .ok m =>
      let x := s.d.mbxTake (partyOf l) m
      trunkReply l r 0 (b2n x.2.isSome) (natBytes 4 (x.2.getD 0).toNat) { s with d := x.1 }) s)

/-- TRUNK_MBX_PEEK (R257); a PARAM that names no operation gets BADLEN here. -/
def execTrunkMbxPeek (l : LinkId) (s : State) : Host.Outcome State Fault Refusal :=
  .next (trunkExec l (fun r => r.opc = 6 && r.param ≠ 1 && r.param ≠ 2) true (fun r s =>
    match mbxOf r with
    | .error e => trunkReply l r e 0 [] s
    | .ok m =>
      if r.param ≠ 3 then trunkReply l r 2 0 [] s
      else
        let x := s.d.mbx[m]
        trunkReply l r 0 (b2n x.full) (natBytes 4 (if x.full then x.msg.toNat else 0)) s) s)

end Sys2Proof.Machine
end

