-- ==== Sys2Proof/Machine/Xbar.lean ====
section
/-! DEFINITION. The region crossbars and the chip crossbar (R27 to R29, R31, R435): which of several held accesses to one
target is granted next. One command is one access, so what the crossbars decide is the order in which accesses that are
held on the same target go on; every initiator has at most one access outstanding, so the 16 credits of its port never
run out. (Log entry 86 DEDUCED.) -/

namespace Sys2Proof.Machine

/-- The control class of R435: peripheral and port pages but the queue data registers; the dispatcher is a requester of
that class. -/
def ctlAccess (i : Initiator) (a : Nat) : Bool :=
  i = dictInit ||
  match winOf a with
  | .chip _ _ => true
  | .port _ _ => true
  | .region _ page o => !(page = 0 && o < 0x800 && queData (o % 0x40))
  | _ => false

/-- What an access is held on: a flash bank, a queue, or the page whose domain is not ready. -/
def targetOf (a : Nat) : Nat :=
  match winOf a with
  | .flash o => o / 0x400000
  | .region r page o => if page = 0 ∧ o < 0x800 ∧ queData (o % 0x40) then 2 + (queueOf r (Fin.ofNat 32 (o / 0x40))).val else a / 65536 + 256
  | _ => a / 65536 + 256

/-- The region whose crossbar serves the window of an address. -/
def xbarRegion (a : Nat) : Option RegionId :=
  match winOf a with
  | .rsram r _ => some r
  | .region r _ _ => some r
  | .port p _ => some (regionOfPort p)
  | _ => none

/-- The region from whose crossbar an initiator's accesses come. -/
def initRegion (i : Initiator) : Option RegionId :=
  match coreOf i with
  | some c => some (regionOfCore c)
  | none => if isDma i then some (Fin.ofNat 4 (i.val - 10)) else none

/-- The initiator's port at its region's crossbar: its two cores, then its DMA block. -/
def regionPort (i : Initiator) : Nat := match coreOf i with | some c => c.val % 2 | none => 2

/-- The port at the chip crossbar through which an initiator comes: the four regions, the two links, the dictionary. -/
def chipPort (i : Initiator) : Nat :=
  match initRegion i with
  | some r => r.val
  | none => match linkOf i with | some l => 4 + l.val | none => 6

/-- The first of n children from `turn` on, round them, that meets a condition (R28). -/
def roundRobin (n turn : Nat) (f : Nat → Bool) : Option Nat := ((List.range n).map fun i => (turn + i) % n).find? f

/-- Where the round of an arbiter stands for a class. -/
def Xbar.turn (x : Xbar) (ctl : Bool) : Nat := if ctl then x.ctl else x.data

/-- The round after a grant to child k of n. -/
def Xbar.granted (x : Xbar) (ctl : Bool) (n k : Nat) : Xbar :=
  if ctl then { x with ctl := (k + 1) % n } else { x with data := (k + 1) % n }

/-- Arbiter x, with n children, grants among requesters: those of the child it takes next, and its round after it. -/
def Xbar.grant (x : Xbar) (ctl : Bool) (n : Nat) (port : Initiator → Nat) (l : List Initiator) : Xbar × List Initiator :=
  match roundRobin n (x.turn ctl) fun k => l.any fun i => port i = k with
  | some k => (x.granted ctl n k, l.filter fun i => port i = k)
  | none => (x, l)

/-- A grant of the crossbar of region r among its own initiators, of which `port` counts the ports that ask. -/
def Dev.grantAt (d : Dev) (b : Fin 5) (ctl : Bool) (n : Nat) (port : Initiator → Nat) (l : List Initiator) : Dev × List Initiator :=
  let x := (d.xbar[b]).grant ctl n port l
  ({ d with xbar := d.xbar.set b x.1 }, x.2)

/-- A grant among initiators of one region at that region's crossbar, and of none other. -/
def Dev.grantOwn (d : Dev) (ctl : Bool) (l : List Initiator) : Dev × List Initiator :=
  match l.head?.bind initRegion with
  | some r => d.grantAt r.castSucc ctl 4 regionPort l
  | none => (d, l)

/-- The next grant among initiators whose accesses of one class to the same target are held (R28). An access to a
region's window competes at that region's crossbar, where those from elsewhere come through the chip crossbar as one
child; any other access competes at the chip crossbar with its region as one child. -/
def Dev.arbitrate (d : Dev) (a : Nat) (ctl : Bool) (l : List Initiator) : Dev × List Initiator :=
  let chip := fun (d : Dev) (l : List Initiator) =>
    let x := d.grantAt 4 ctl 7 chipPort l
    x.1.grantOwn ctl x.2
  match xbarRegion a with
  | none => chip d l
  | some r =>
    let port := fun i => if initRegion i = some r then regionPort i else 3
    let x := d.grantAt r.castSucc ctl 4 port l
    if x.2.any fun i => port i = 3 then chip x.1 x.2 else x

end Sys2Proof.Machine
end

