-- ==== Sys2Proof/Machine/Held.lean ====
section
/-! DEFINITION. Handshakes that time out (R15, R87, R420) and held accesses that complete (R16). -/

namespace Sys2Proof.Machine

/-- A lane's handshake times out (R87): its frame is aborted, it is withheld, and a plumb check is its retry.
(Log entry 37 DEDUCED.) -/
def Dev.laneTimeout (d : Dev) (p : PortId) (i : LaneId) : Dev :=
  let d := match ((d.ports[p]).rx.lanes[i]).job with | some j => d.abortJob p i j | none => d
  let d := d.modRx p fun x => { x with plumbLane := if x.plumbLane = some i then none else x.plumbLane }
  let d := d.modLane p i fun l => { l with work := .idle, withheld := true, repeatNow := true, due := none }
  (d.charge (.unit (.lane p i)) 1).serveLanes (regionOfPort p)

/-- A handshake times out: one failure of its target, and one more when its retry times out too (R420). -/
def Dev.handshakeTimeout (d : Dev) (t : FaultTarget) (retryOk : Bool) : Dev :=
  if d.gone t then d
  else match t with
    | .lane p i => d.laneTimeout p i
    | t =>
      let d := d.charge (.unit t) 1
      if retryOk || d.gone t || d.resetDue then d else d.charge (.unit t) 1

/-- The access whose handshake was aborted: the retry completes it whole, or it ends with a bus error (R15). -/
def accessEnd (t : FaultTarget) (retryOk : Bool) (a : Access) (s : State) : State :=
  let n := a.addr.toNat / 4 * 4
  if !s.d.initReady a.init then s
  else if !retryOk || s.d.gone t || s.d.resetDue then { s with d := s.d.answer a.init .error }
  else match a.value with
    | some v => written a.init n v (s.busWrite a.init n 4 v)
    | none => wasRead a.init n (s.busRead a.init n 4 false)

/-- HANDSHAKE_TIMEOUT (R15): the handshake's target is charged, and the access that it served, where it served one,
completes or ends with a bus error. -/
def execHandshakeTimeout (t : Handshake) (retryOk : Bool) (s : State) : Host.Outcome State Fault Refusal :=
  .next (if !s.d.datumCounts then s
  else
    let s' := { s with d := s.begun.d.handshakeTimeout t.target retryOk }
    finish (match t.acc with
      | some a => accessEnd t.target retryOk a s'
      | none => s'))

/-! ### Releases (R16, R354) -/

/-- A core's held access is made again, by its instruction, or fails where the queue that it pushes to has been disabled;
a core that was told to stop then does (R336).
(Log entry 37 DEDUCED.) -/
def coreRelease (c : CoreId) (h : HeldAcc) (s : State) : State :=
  let stop := (s.d.cores[c]).stopping
  let t : State := { s with d := s.d.modCore c fun x => { x with held := false } }
  let t := if h.failed then coreExcept c 7 h.addr t else coreNext c t
  if stop && !(t.d.cores[c]).held then { t with d := t.d.holdCore c } else t

/-- The access of an initiator that is held is made again, or fails.
(Log entry 37 DEDUCED.) -/
def heldRetry (i : Initiator) (h : HeldAcc) (s : State) : State :=
  let t : State := { s with d := { s.d with holds := s.d.holds.filter fun x => x.init ≠ i } }
  let row := if h.failed then { t with d := t.d.answer i .error }
    else match h.value with
      | some v => rowWrite i h.addr.toNat v t
      | none => rowRead i h.addr.toNat t
  match coreOf i with
  | some c => if (s.d.cores[c]).held then coreRelease c h t else row
  | none => row

/-- The access that an initiator has outstanding because it is held, by its address. -/
def Dev.heldAt (d : Dev) (i : Initiator) : Option Nat :=
  match d.holds.find? fun h => h.init = i with
  | some h => some h.addr.toNat
  | none => match linkOf i with
    | some l => match (d.links[l]).run with
      | some (r, k, _) => if r.opc = 1 ∨ r.opc = 2 then some (r.addr.toNat + 4 * k) else none
      | none => none
    | none => none

/-- The initiators whose accesses are held on the target of address a: those of the control class, or where there are
none of these those of the data class (R28). -/
def Dev.heldOn (d : Dev) (a : Nat) : Bool × List Initiator :=
  let on := fun (i : Initiator) (f : Nat → Bool) =>
    match d.heldAt i with | some b => targetOf b = targetOf a && f b | none => false
  let l := (List.finRange 15).filter fun i => on i (ctlAccess i)
  if l = [] then (false, (List.finRange 15).filter fun i => on i fun _ => true) else (true, l)

/-- The held access of an initiator goes on. -/
def releaseOne (i : Initiator) (s : State) : State :=
  if i = dictInit then tdpResume s
  else match s.d.holds.find? fun h => h.init = i with
  | some h => heldRetry i h s
  | none => match linkOf i with
    | some l => trunkResume l s
    | none => s

/-- HELD_ACCESS_RELEASE (R16, R28): what held initiator i's access has ended; of the accesses that it held, the
crossbars grant one.
(Log entry 86 DEDUCED.) -/
def execHeldAccessRelease (i : Initiator) (s : State) : Host.Outcome State Fault Refusal :=
  .next (match s.d.heldAt i with
    | none => s
    | some a =>
      let l := s.d.heldOn a
      if l.2 = [i] then finish (releaseOne i s.begun)
      else
        let g := s.begun.d.arbitrate a l.1 l.2
        finish (releaseOne (g.2.headD i) { s with d := g.1 }))

end Sys2Proof.Machine
end

