-- ==== Sys2Proof/Machine/RegRows.lean ====
section
/-! DEFINITION. The commands that are one access of an initiator to one register: each is the access at that register's
address, through the one map (R32). What the write or read does is in the register's page. -/

namespace Sys2Proof.Machine

/-- PORT_RXGAIN_WRITE (R75): a write of PORT_RXGAIN. -/
def execPortRxgainWrite (i : Initiator) (p : PortId) (v : Word) (s : State) : Host.Outcome State Fault Refusal :=
  .next (rowWrite i (portBase p + 0x0C) v s)

/-- PORT_AGC_RESUME (R75): a write of PORT_AGC. -/
def execPortAgcResume (i : Initiator) (p : PortId) (v : Word) (s : State) : Host.Outcome State Fault Refusal :=
  .next (rowWrite i (portBase p + 0x10) v s)

/-- PORT_RXFREQ_WRITE (R72, R73): a write of PORT_RXFREQ. -/
def execPortRxfreqWrite (i : Initiator) (p : PortId) (v : Word) (s : State) : Host.Outcome State Fault Refusal :=
  .next (rowWrite i (portBase p + 0x04) v s)

/-- PORT_RXCTL_WRITE (R69, R116): a write of PORT_RXCTL. -/
def execPortRxctlWrite (i : Initiator) (p : PortId) (v : Word) (s : State) : Host.Outcome State Fault Refusal :=
  .next (rowWrite i (portBase p + 0x00) v s)

/-- PORT_WCFG_WRITE (R77): a write of PORT_WCFGi. -/
def execPortWcfgWrite (i : Initiator) (p : PortId) (w : WatcherId) (v : Word) (s : State) : Host.Outcome State Fault Refusal :=
  .next (rowWrite i (portBase p + 0x1000 + 4 * w.val) v s)

/-- PORT_CNTCLR (R115, R208): a write of PORT_CNTCLR. -/
def execPortCntclr (i : Initiator) (p : PortId) (v : Word) (s : State) : Host.Outcome State Fault Refusal :=
  .next (rowWrite i (portBase p + 0x1C) v s)

/-- PORT_PLUMB_RUNNOW (R104): a write of PORT_PLUMB. -/
def execPortPlumbRunnow (i : Initiator) (p : PortId) (v : Word) (s : State) : Host.Outcome State Fault Refusal :=
  .next (rowWrite i (portBase p + 0x200) v s)

/-- GAUGE_RUNNOW (R107): a write of PORT_GAUGE_CTL. -/
def execGaugeRunnow (i : Initiator) (p : PortId) (v : Word) (s : State) : Host.Outcome State Fault Refusal :=
  .next (rowWrite i (portBase p + 0x3000) v s)

/-- PORT_BM_FREQ_WRITE (R120): a write of PORT_BMe_FREQ. -/
def execPortBmFreqWrite (i : Initiator) (p : PortId) (e : Fin 64) (v : Word) (s : State) : Host.Outcome State Fault Refusal :=
  .next (rowWrite i (portBase p + 0x8100 + 8 * e.val) v s)

/-- PORT_BMCTL_FILL (R120): a write of PORT_BMCTL. -/
def execPortBmctlFill (i : Initiator) (p : PortId) (v : Word) (s : State) : Host.Outcome State Fault Refusal :=
  .next (rowWrite i (portBase p + 0x8010) v s)

/-- PORT_BMCTL_INVALL (R120): a write of PORT_BMCTL. -/
def execPortBmctlInvall (i : Initiator) (p : PortId) (v : Word) (s : State) : Host.Outcome State Fault Refusal :=
  .next (rowWrite i (portBase p + 0x8010) v s)

/-- PORT_TUNE_WRITE (R133): a write of PORT_TUNE. -/
def execPortTuneWrite (i : Initiator) (p : PortId) (v : Word) (s : State) : Host.Outcome State Fault Refusal :=
  .next (rowWrite i (portBase p + 0x8800) v s)

/-- PORT_TUNE_RESUME (R133): a write of PORT_TUNECTL. -/
def execPortTuneResume (i : Initiator) (p : PortId) (v : Word) (s : State) : Host.Outcome State Fault Refusal :=
  .next (rowWrite i (portBase p + 0x8804) v s)

/-- PORT_TXPWR_WRITE (R130): a write of PORT_TXPWR. -/
def execPortTxpwrWrite (i : Initiator) (p : PortId) (v : Word) (s : State) : Host.Outcome State Fault Refusal :=
  .next (rowWrite i (portBase p + 0x8404) v s)

/-- PORT_TXCNTCLR (R143): a write of PORT_TXCNTCLR. -/
def execPortTxcntclr (i : Initiator) (p : PortId) (v : Word) (s : State) : Host.Outcome State Fault Refusal :=
  .next (rowWrite i (portBase p + 0x8414) v s)

/-- PORT_CAL_RUNNOW (R137): a write of PORT_CAL. -/
def execPortCalRunnow (i : Initiator) (p : PortId) (v : Word) (s : State) : Host.Outcome State Fault Refusal :=
  .next (rowWrite i (portBase p + 0x8C00) v s)

/-- SB_BOOK (R196, R197): a write of PORT_SB_CMD. -/
def execSbBook (i : Initiator) (p : PortId) (v : Word) (s : State) : Host.Outcome State Fault Refusal :=
  .next (rowWrite i (portBase p + 0xF014) v s)

/-- SB_CANCEL (R203): a write of PORT_SB_CMD. -/
def execSbCancel (i : Initiator) (p : PortId) (v : Word) (s : State) : Host.Outcome State Fault Refusal :=
  .next (rowWrite i (portBase p + 0xF014) v s)

/-- CTXOP_INSTALL (R161): a write of LINK_CTXOP. -/
def execCtxopInstall (i : Initiator) (r : RegionId) (v : Word) (s : State) : Host.Outcome State Fault Refusal :=
  .next (rowWrite i (regionPage r 2 + 0x8020) v s)

/-- CTXOP_REMOVE (R161): a write of LINK_CTXOP. -/
def execCtxopRemove (i : Initiator) (r : RegionId) (v : Word) (s : State) : Host.Outcome State Fault Refusal :=
  .next (rowWrite i (regionPage r 2 + 0x8020) v s)

/-- CTXOP_FIND (R161): a write of LINK_CTXOP. -/
def execCtxopFind (i : Initiator) (r : RegionId) (v : Word) (s : State) : Host.Outcome State Fault Refusal :=
  .next (rowWrite i (regionPage r 2 + 0x8020) v s)

/-- LINK_CNTCLR (R181): a write of LINK_CNTCLR. -/
def execLinkCntclr (i : Initiator) (r : RegionId) (v : Word) (s : State) : Host.Outcome State Fault Refusal :=
  .next (rowWrite i (regionPage r 2 + 0x802C) v s)

/-- LINK_ANCHORID_WRITE (R180): a write of LINK_ANCHORID. -/
def execLinkAnchoridWrite (i : Initiator) (r : RegionId) (v : Word) (s : State) : Host.Outcome State Fault Refusal :=
  .next (rowWrite i (regionPage r 2 + 0x8004) v s)

/-- CONTEXT_WORD_WRITE (R159, R469): a write of a word of context memory. -/
def execContextWordWrite (i : Initiator) (n : CtxId) (w : Fin 16) (v : Word) (s : State) : Host.Outcome State Fault Refusal :=
  .next (rowWrite i (0x30000000 + 64 * n.val + 4 * w.val) v s)

/-- DATUM_TRIM_WRITE (R186): a write of DATUM_TRIM. -/
def execDatumTrimWrite (i : Initiator) (v : Word) (s : State) : Host.Outcome State Fault Refusal :=
  .next (rowWrite i (chipPage 3 + 0x8010) v s)

/-- DATUM_PPSCTL_WRITE (R187): a write of DATUM_PPSCTL. -/
def execDatumPpsctlWrite (i : Initiator) (v : Word) (s : State) : Host.Outcome State Fault Refusal :=
  .next (rowWrite i (chipPage 3 + 0x8034) v s)

/-- DATUM_STEPGO (R190): a write of DATUM_CTL. -/
def execDatumStepgo (i : Initiator) (v : Word) (s : State) : Host.Outcome State Fault Refusal :=
  .next (rowWrite i (chipPage 3 + 0x8008) v s)

/-- DATUM_DECLARE (R193): a write of DATUM_CTL. -/
def execDatumDeclare (i : Initiator) (v : Word) (s : State) : Host.Outcome State Fault Refusal :=
  .next (rowWrite i (chipPage 3 + 0x8008) v s)

/-- CIPH_CCM_ENC (R216, R240): a write of CIPHn_CMD. -/
def execCiphCcmEnc (i : Initiator) (r : RegionId) (n : Fin 2) (v : Word) (s : State) : Host.Outcome State Fault Refusal :=
  .next (rowWrite i (regionPage r 2 + 0x40 * n.val + 0x20) v s)

/-- CIPH_CCM_DEC (R216, R240): a write of CIPHn_CMD. -/
def execCiphCcmDec (i : Initiator) (r : RegionId) (n : Fin 2) (v : Word) (s : State) : Host.Outcome State Fault Refusal :=
  .next (rowWrite i (regionPage r 2 + 0x40 * n.val + 0x20) v s)

/-- CIPH_CMAC_GEN (R216, R240): a write of CIPHn_CMD. -/
def execCiphCmacGen (i : Initiator) (r : RegionId) (n : Fin 2) (v : Word) (s : State) : Host.Outcome State Fault Refusal :=
  .next (rowWrite i (regionPage r 2 + 0x40 * n.val + 0x20) v s)

/-- CIPH_CMAC_VER (R216, R240): a write of CIPHn_CMD. -/
def execCiphCmacVer (i : Initiator) (r : RegionId) (n : Fin 2) (v : Word) (s : State) : Host.Outcome State Fault Refusal :=
  .next (rowWrite i (regionPage r 2 + 0x40 * n.val + 0x20) v s)

/-- CIPH_DERIVE (R216, R240): a write of CIPHn_CMD. -/
def execCiphDerive (i : Initiator) (r : RegionId) (n : Fin 2) (v : Word) (s : State) : Host.Outcome State Fault Refusal :=
  .next (rowWrite i (regionPage r 2 + 0x40 * n.val + 0x20) v s)

/-- CIPH_KEYLOAD (R216, R240): a write of CIPHn_CMD. -/
def execCiphKeyload (i : Initiator) (r : RegionId) (n : Fin 2) (v : Word) (s : State) : Host.Outcome State Fault Refusal :=
  .next (rowWrite i (regionPage r 2 + 0x40 * n.val + 0x20) v s)

/-- CIPH_KEYSAVE (R216, R240): a write of CIPHn_CMD. -/
def execCiphKeysave (i : Initiator) (r : RegionId) (n : Fin 2) (v : Word) (s : State) : Host.Outcome State Fault Refusal :=
  .next (rowWrite i (regionPage r 2 + 0x40 * n.val + 0x20) v s)

/-- KEY_LOADPLAIN (R221): a write of KEY_CTL. -/
def execKeyLoadplain (i : Initiator) (v : Word) (s : State) : Host.Outcome State Fault Refusal :=
  .next (rowWrite i (chipPage 6 + 0x1020) v s)

/-- KEY_ERASE (R221): a write of KEY_CTL. -/
def execKeyErase (i : Initiator) (v : Word) (s : State) : Host.Outcome State Fault Refusal :=
  .next (rowWrite i (chipPage 6 + 0x1020) v s)

/-- KEY_ERASEALL (R221): a write of KEY_CTL. -/
def execKeyEraseall (i : Initiator) (v : Word) (s : State) : Host.Outcome State Fault Refusal :=
  .next (rowWrite i (chipPage 6 + 0x1020) v s)

/-- HASH_SHA256 (R225): a write of HASH_CMD. -/
def execHashSha256 (i : Initiator) (v : Word) (s : State) : Host.Outcome State Fault Refusal :=
  .next (rowWrite i (chipPage 6 + 0x0008) v s)

/-- HASH_LMS_VERIFY (R225): a write of HASH_CMD. -/
def execHashLmsVerify (i : Initiator) (v : Word) (s : State) : Host.Outcome State Fault Refusal :=
  .next (rowWrite i (chipPage 6 + 0x0008) v s)

/-- OTP_PROGKEY (R223): a write of OTP_CTL. -/
def execOtpProgkey (i : Initiator) (v : Word) (s : State) : Host.Outcome State Fault Refusal :=
  .next (rowWrite i (chipPage 6 + 0x2004) v s)

/-- OTP_REVOKE (R223): a write of OTP_CTL. -/
def execOtpRevoke (i : Initiator) (v : Word) (s : State) : Host.Outcome State Fault Refusal :=
  .next (rowWrite i (chipPage 6 + 0x2004) v s)

/-- OTP_CLEARROOTOK (R223): a write of OTP_CTL. -/
def execOtpClearrootok (i : Initiator) (v : Word) (s : State) : Host.Outcome State Fault Refusal :=
  .next (rowWrite i (chipPage 6 + 0x2004) v s)

/-- ATT_REQUEST (R227): a write of ATT_CTL. -/
def execAttRequest (i : Initiator) (v : Word) (s : State) : Host.Outcome State Fault Refusal :=
  .next (rowWrite i (chipPage 6 + 0x3000) v s)

/-- DBG_TOKEN_SUBMIT (R235): a write of DBG_CTL. -/
def execDbgTokenSubmit (i : Initiator) (v : Word) (s : State) : Host.Outcome State Fault Refusal :=
  .next (rowWrite i (chipPage 6 + 0x4014) v s)

/-- TRK_ATTNSET_WRITE (R263): a write of TRK_ATTNSET. -/
def execTrkAttnsetWrite (i : Initiator) (v : Word) (s : State) : Host.Outcome State Fault Refusal :=
  .next (rowWrite i (chipPage 7 + 0x28) v s)

/-- TRK_CNTCLR (R263): a write of TRK_CNTCLR. -/
def execTrkCntclr (i : Initiator) (v : Word) (s : State) : Host.Outcome State Fault Refusal :=
  .next (rowWrite i (chipPage 7 + 0x30) v s)

/-- CAN_CNTCLR (R296): a write of CAN_CNTCLR. -/
def execCanCntclr (i : Initiator) (v : Word) (s : State) : Host.Outcome State Fault Refusal :=
  .next (rowWrite i (chipPage 8 + 0x04) v s)

/-- CFG_CLEAR (R295): a write of CFG_CTL. -/
def execCfgClear (i : Initiator) (v : Word) (s : State) : Host.Outcome State Fault Refusal :=
  .next (rowWrite i (chipPage 9 + 0x0C) v s)

/-- CORE_CTL_WRITE (R336): a write of CORE_CTL. -/
def execCoreCtlWrite (i : Initiator) (v : Word) (s : State) : Host.Outcome State Fault Refusal :=
  .next (rowWrite i (chipPage 11 + 0x1000) v s)

/-- CORE_MSIP_WRITE (R336): a write of CORE_MSIP. -/
def execCoreMsipWrite (i : Initiator) (v : Word) (s : State) : Host.Outcome State Fault Refusal :=
  .next (rowWrite i (chipPage 11 + 0x1008) v s)

/-- FLASH_PROGRAM (R339): a write of FLASH_CMD. -/
def execFlashProgram (i : Initiator) (v : Word) (s : State) : Host.Outcome State Fault Refusal :=
  .next (rowWrite i (chipPage 0 + 0x00) v s)

/-- FLASH_ERASE (R341): a write of FLASH_CMD. -/
def execFlashErase (i : Initiator) (v : Word) (s : State) : Host.Outcome State Fault Refusal :=
  .next (rowWrite i (chipPage 0 + 0x00) v s)

/-- FLASH_SUSPEND (R344): a write of FLASH_SUSP. -/
def execFlashSuspend (i : Initiator) (v : Word) (s : State) : Host.Outcome State Fault Refusal :=
  .next (rowWrite i (chipPage 0 + 0x18) v s)

/-- FLASH_RESUME (R344): a write of FLASH_SUSP. -/
def execFlashResume (i : Initiator) (v : Word) (s : State) : Host.Outcome State Fault Refusal :=
  .next (rowWrite i (chipPage 0 + 0x18) v s)

/-- FLASH_WP_WRITE (R347): a write of FLASH_WPn. -/
def execFlashWpWrite (i : Initiator) (n : Fin 4) (v : Word) (s : State) : Host.Outcome State Fault Refusal :=
  .next (rowWrite i (chipPage 0 + 0x40 + 4 * n.val) v s)

/-- QUE_WR_LO (R352): a write of QUE_WR_LO. -/
def execQueWrLo (i : Initiator) (q : QueueId) (v : Word) (s : State) : Host.Outcome State Fault Refusal :=
  .next (rowWrite i (queReg q 0x20) v s)

/-- QUE_WR_HI (R352): a write of QUE_WR_HI. -/
def execQueWrHi (i : Initiator) (q : QueueId) (v : Word) (s : State) : Host.Outcome State Fault Refusal :=
  .next (rowWrite i (queReg q 0x24) v s)

/-- QUE_WREND_HI (R352): a write of QUE_WREND_HI. -/
def execQueWrendHi (i : Initiator) (q : QueueId) (v : Word) (s : State) : Host.Outcome State Fault Refusal :=
  .next (rowWrite i (queReg q 0x28) v s)

/-- QUE_FLUSH (R357): a write of QUE_CTL. -/
def execQueFlush (i : Initiator) (q : QueueId) (v : Word) (s : State) : Host.Outcome State Fault Refusal :=
  .next (rowWrite i (queReg q 0x04) v s)

/-- QUE_CTL_EN_WRITE (R350, R357): a write of QUE_CTL. -/
def execQueCtlEnWrite (i : Initiator) (q : QueueId) (v : Word) (s : State) : Host.Outcome State Fault Refusal :=
  .next (rowWrite i (queReg q 0x04) v s)

/-- QUE_CFG_WRITE (R350): a write of QUE_CFG. -/
def execQueCfgWrite (i : Initiator) (q : QueueId) (v : Word) (s : State) : Host.Outcome State Fault Refusal :=
  .next (rowWrite i (queReg q 0x00) v s)

/-- DMA_COMMIT (R361): a write of DMA_NCFG. -/
def execDmaCommit (i : Initiator) (n : Fin 32) (v : Word) (s : State) : Host.Outcome State Fault Refusal :=
  .next (rowWrite i (regionPage (Fin.ofNat 4 (n.val / 8)) 1 + 0x40 * (n.val % 8) + 0x10) v s)

/-- DMA_ABORT (R369): a write of DMA_CTL. -/
def execDmaAbort (i : Initiator) (n : Fin 32) (v : Word) (s : State) : Host.Outcome State Fault Refusal :=
  .next (rowWrite i (regionPage (Fin.ofNat 4 (n.val / 8)) 1 + 0x40 * (n.val % 8) + 0x34) v s)

/-- MBX_LOCK_WRITE (R372): a write of MBX_LOCK. -/
def execMbxLockWrite (i : Initiator) (m : Fin 16) (v : Word) (s : State) : Host.Outcome State Fault Refusal :=
  .next (rowWrite i (chipPage 5 + 0x10 * m.val + 0x0) v s)

/-- MBX_MSG_WRITE (R373): a write of MBX_MSG. -/
def execMbxMsgWrite (i : Initiator) (m : Fin 16) (v : Word) (s : State) : Host.Outcome State Fault Refusal :=
  .next (rowWrite i (chipPage 5 + 0x10 * m.val + 0x4) v s)

/-- MBX_TAKEN_CLEAR (R374): a write of MBX_STAT. -/
def execMbxTakenClear (i : Initiator) (m : Fin 16) (v : Word) (s : State) : Host.Outcome State Fault Refusal :=
  .next (rowWrite i (chipPage 5 + 0x10 * m.val + 0xC) v s)

/-- EVT_FIRE_WRITE (R383): a write of EVT_FIRE. -/
def execEvtFireWrite (i : Initiator) (high : Bool) (v : Word) (s : State) : Host.Outcome State Fault Refusal :=
  .next (rowWrite i (chipPage 4 + (if high then 0x904 else 0x900)) v s)

/-- TMR_START (R387): a write of TMRi_CTL. -/
def execTmrStart (i : Initiator) (t : Fin 16) (v : Word) (s : State) : Host.Outcome State Fault Refusal :=
  .next (rowWrite i (chipPage 3 + 0x20 * t.val + 0x08) v s)

/-- TMR_STOP (R387): a write of TMRi_CTL. -/
def execTmrStop (i : Initiator) (t : Fin 16) (v : Word) (s : State) : Host.Outcome State Fault Refusal :=
  .next (rowWrite i (chipPage 3 + 0x20 * t.val + 0x08) v s)

/-- TMR_FORCE (R387): a write of TMRi_CTL. -/
def execTmrForce (i : Initiator) (t : Fin 16) (v : Word) (s : State) : Host.Outcome State Fault Refusal :=
  .next (rowWrite i (chipPage 3 + 0x20 * t.val + 0x08) v s)

/-- TMR_GO_WRITE (R387): a write of TMR_GO. -/
def execTmrGoWrite (i : Initiator) (v : Word) (s : State) : Host.Outcome State Fault Refusal :=
  .next (rowWrite i (chipPage 3 + 0x400) v s)

/-- EVT_CTL_CLR (R394): a write of EVT_CTL. -/
def execEvtCtlClr (i : Initiator) (v : Word) (s : State) : Host.Outcome State Fault Refusal :=
  .next (rowWrite i (chipPage 4 + 0x908) v s)

/-- RTC_HALT_SET (R401): a write of RTC_CTL. -/
def execRtcHaltSet (i : Initiator) (v : Word) (s : State) : Host.Outcome State Fault Refusal :=
  .next (rowWrite i (chipPage 1 + 0x10) v s)

/-- RTC_HALT_CLEAR (R401): a write of RTC_CTL. -/
def execRtcHaltClear (i : Initiator) (v : Word) (s : State) : Host.Outcome State Fault Refusal :=
  .next (rowWrite i (chipPage 1 + 0x10) v s)

/-- RTC_BINARY (R399): a write of RTC_CTL. -/
def execRtcBinary (i : Initiator) (v : Word) (s : State) : Host.Outcome State Fault Refusal :=
  .next (rowWrite i (chipPage 1 + 0x10) v s)

/-- RTC_TIME_WRITE (R401): a write of RTC_TIME or RTC_DATE. -/
def execRtcTimeWrite (i : Initiator) (date : Bool) (v : Word) (s : State) : Host.Outcome State Fault Refusal :=
  .next (rowWrite i (chipPage 1 + (if date then 0x0C else 0x08)) v s)

/-- PWR_REQ_RUN (R406): a write of PWR_STATE. -/
def execPwrReqRun (i : Initiator) (v : Word) (s : State) : Host.Outcome State Fault Refusal :=
  .next (rowWrite i (chipPage 2 + 0x00) v s)

/-- PWR_REQ_NAP (R406): a write of PWR_STATE. -/
def execPwrReqNap (i : Initiator) (v : Word) (s : State) : Host.Outcome State Fault Refusal :=
  .next (rowWrite i (chipPage 2 + 0x00) v s)

/-- PWR_REQ_HOLD (R408): a write of PWR_STATE. -/
def execPwrReqHold (i : Initiator) (v : Word) (s : State) : Host.Outcome State Fault Refusal :=
  .next (rowWrite i (chipPage 2 + 0x00) v s)

/-- PWR_REQ_STANDBY (R408): a write of PWR_STATE. -/
def execPwrReqStandby (i : Initiator) (v : Word) (s : State) : Host.Outcome State Fault Refusal :=
  .next (rowWrite i (chipPage 2 + 0x00) v s)

/-- PWR_DOMSLEEP_WRITE (R409): a write of PWR_DOMSLEEPr. -/
def execPwrDomsleepWrite (i : Initiator) (r : RegionId) (v : Word) (s : State) : Host.Outcome State Fault Refusal :=
  .next (rowWrite i (chipPage 2 + 0x10 + 4 * r.val) v s)

/-- PWR_VSET_WRITE (R412): a write of PWR_VSETr. -/
def execPwrVsetWrite (i : Initiator) (r : RegionId) (v : Word) (s : State) : Host.Outcome State Fault Refusal :=
  .next (rowWrite i (chipPage 2 + 0x50 + 4 * r.val) v s)

/-- PWR_PACE_WRITE (R412): a write of PWR_PACEr. -/
def execPwrPaceWrite (i : Initiator) (r : RegionId) (v : Word) (s : State) : Host.Outcome State Fault Refusal :=
  .next (rowWrite i (chipPage 2 + 0x60 + 4 * r.val) v s)

/-- PWR_VCEIL_WRITE (R412): a write of PWR_VCEILr. -/
def execPwrVceilWrite (i : Initiator) (r : RegionId) (v : Word) (s : State) : Host.Outcome State Fault Refusal :=
  .next (rowWrite i (chipPage 2 + 0x70 + 4 * r.val) v s)

/-- REGISTER_WRITE (R8, R10): a write of the register at an address.
(Log entry 62 DEDUCED.) -/
def execRegisterWrite (i : Initiator) (a v : Word) (s : State) : Host.Outcome State Fault Refusal :=
  .next (rowWrite i (a.toNat / 4 * 4) v s)

/-- LINK_HASHSTAT_READ (R162): a read of LINK_HASHSTAT. -/
def execLinkHashstatRead (i : Initiator) (r : RegionId) (s : State) : Host.Outcome State Fault Refusal :=
  .next (rowRead i (regionPage r 2 + 0x8028) s)

/-- DATUM_NOW_READ (R184): a read of DATUM_NOW_LO. -/
def execDatumNowRead (i : Initiator) (s : State) : Host.Outcome State Fault Refusal :=
  .next (rowRead i (chipPage 3 + 0x8000) s)

/-- QUE_RD_LO (R355, R358): a read of QUE_RD_LO; `u` are the bit errors that have come up by then. -/
def execQueRdLo (i : Initiator) (q : QueueId) (u : List BitErr) (s : State) : Host.Outcome State Fault Refusal :=
  .next (if s.d.initReady i then rowRead i (queReg q 0x30) (s.upset u) else s)

/-- MBX_LOCK_READ (R372): a read of MBX_LOCK. -/
def execMbxLockRead (i : Initiator) (m : Fin 16) (s : State) : Host.Outcome State Fault Refusal :=
  .next (rowRead i (chipPage 5 + 0x10 * m.val + 0x0) s)

/-- MBX_TAKE_READ (R373): a read of MBX_TAKE. -/
def execMbxTakeRead (i : Initiator) (m : Fin 16) (s : State) : Host.Outcome State Fault Refusal :=
  .next (rowRead i (chipPage 5 + 0x10 * m.val + 0x8) s)

/-- TMR_CAPT_READ (R389): a read of TMRi_CAPT. -/
def execTmrCaptRead (i : Initiator) (t : Fin 16) (s : State) : Host.Outcome State Fault Refusal :=
  .next (rowRead i (chipPage 3 + 0x20 * t.val + 0x10) s)

/-- RTC_FRAC_READ (R400): a read of RTC_FRAC. -/
def execRtcFracRead (i : Initiator) (s : State) : Host.Outcome State Fault Refusal :=
  .next (rowRead i (chipPage 1 + 0x00) s)

/-- RTC_DATE_READ (R400): a read of RTC_DATE. -/
def execRtcDateRead (i : Initiator) (s : State) : Host.Outcome State Fault Refusal :=
  .next (rowRead i (chipPage 1 + 0x0C) s)

/-- FLASH_READ (R338, R343, R345): a data read of the word of flash at an address; `u` are the bit
errors that have come up by then. An address outside the flash windows changes nothing. -/
def execFlashRead (i : Initiator) (a : Word) (u : List BitErr) (s : State) : Host.Outcome State Fault Refusal :=
  .next (if inFlash a.toNat && s.d.initReady i then rowRead i (a.toNat / 4 * 4) (s.upset u) else s)

end Sys2Proof.Machine
end

