-- ==== Sys2Proof/Machine/StartOps.lean ====
section
/-! DEFINITION. Starts (R12, R288 to R291, R301, R332 to R334, R346, R414 to R417, R422, R430, R440, R441): what the
start-up sequence does, step by step, with what it finds (`StartInputs`) as an operand; supply, reset and backup
events; waking from HOLD and STANDBY. The steps themselves take no modelled time (log entry 14). -/

namespace Sys2Proof.Machine

/-! ### Step 3: the datum (R414) -/

/-- The datum is re-seeded from the elapsed count, where the entry values are held. -/
def Dev.reseed (d : Dev) : Dev :=
  match d.rtc.entry with
  | none => d
  | some (dEntry, eEntry) =>
    let delta := (d.rtc.count + 2 ^ 48 - eEntry) % 2 ^ 48
    let product := delta * 390625 + d.rtc.rem
    { d with datum := { d.datum with now := BitVec.ofNat 64 (dEntry + product / 128), seeded := true }
             rtc := { d.rtc with rem := product % 128, entry := none } }

/-! ### DEAD (R417, R428) -/

/-- NODEHI, ARBRATE and DATARATE take effect, and the CAN FD port runs (R280, R281, R285). -/
def Dev.canStart (d : Dev) : Dev :=
  let val := fun (sub : Nat) => match objAt d 0x2010 sub with
    | .ok o => bytesNat (d.rwpValue 0x2010 (BitVec.ofNat 8 sub) o)
    | .error _ => 0
  let n := val 1 * 16 + d.can.straps
  { d with can := { d.can with mode := 1, node := n, nonode := n = 0, arb := val 2, data := val 3 } }

/-- The start ends in DEAD: RF dies and port blocks off, lines at OFFLVL, cores held; the responder, the links and CAN
run. The RO objects of 0x8000 to 0x8FFF keep their values as they stand then (R303).
(Log entry 25 DEDUCED.) -/
def Dev.die (d : Dev) (cause : Nat) : Dev :=
  let d := (List.finRange 24).foldl (fun d p =>
    (d.portCut p).modSyn p fun s => { s with lock := false, hop := none, queued := none }) d
  let d := (List.finRange 8).foldl (fun d c => d.holdCore c) d
  let d := if d.can.mode = 0 then d.canStart else d
  let d := { d.logFault 7 (.unit (.chipBlock 11)) 11 cause with pwr := { d.pwr with phase := .dead cause } }
  { d with flt := { d.flt with deadVals := d.roFaultVals } }

/-- A step of the sequence, unless it has ended in DEAD. -/
def State.unlessDead (f : State → State) (s : State) : State :=
  match s.d.pwr.phase with
  | .dead _ => s
  | _ => f s

/-- The same for a step that leaves SRAM alone. -/
def Dev.unlessDead (f : Dev → Dev) (s : State) : State :=
  match s.d.pwr.phase with
  | .dead _ => s
  | _ => { s with d := f s.d }

/-! ### Step 4: self-tests and secrets (R220, R229, R330, R332, R422) -/

/-- The boot ROM runs on the main core (R330, R430). -/
def Dev.moveRom (d : Dev) : Dev := d.modCore d.mainCore fun c => { c with running := !c.retired }

/-- Every core is retired.
(Log entry 26 DEDUCED.) -/
def Dev.noCore (d : Dev) : Bool := (List.finRange 8).all fun c => (d.cores[c]).retired

/-- A child that is tested at step 4. -/
def testedEarly (t : FaultTarget) : Bool :=
  match t with
  | .core _ => true
  | .queueBank _ _ => true
  | .dmaEngine _ _ => true
  | .pipe _ _ => true
  | .lookUnit _ _ => true
  | _ => false

/-- A region SRAM fails its test: its region is retired (R422, R426). -/
def Dev.sramFail (d : Dev) (r : RegionId) : Dev := (d.logFault 5 (.regionSram r) 6 0).retireRegion r 6

/-- Slots whose copies both fail read as empty (R220). -/
def Keys.lose (k : Keys) (l : List Nat) : Keys :=
  { k with slots := k.slots.filter fun s => !l.contains s.slot, lost := l ++ k.lost.filter fun x => !l.contains x }

/-- Self-test, key derivation, opening of the key store; the attestation counter is read.
(Log entry 26 DEDUCED.) -/
def Dev.step4 (inp : StartInputs) (d : Dev) : Dev :=
  let d := if inp.chipSramBad then (d.logFault 5 .chipSram 6 0).chipPflag 8 else d
  let d := (inp.failed.filter testedEarly).foldl (fun d t => if d.gone t then d else d.selfTestFail t) d
  let d := inp.sramBad.foldl (fun d r => if (d.regions[r]).retired then d else d.sramFail r) d
  if d.noCore then d.die 4
  else if !inp.storeOpens then d.moveRom.die 3
  else
    let d : Dev := { d.moveRom with keys := d.keys.lose inp.slotsLost, drv := { kseal, kcfg, attSeed } }
    let d := if d.keys.lost = [] then d else d.secCause 4
    if inp.attCounterOk then d else { d with att := { d.att with lost := true } }.secCause 5

/-! ### Step 5: config memory (R288 to R291, R231, R232, R301, R430) -/

/-- The device is identified (R288): a NOR device by SFDP, otherwise an EEPROM whose size and address width CFG_IO1 gives;
a NOR device of less than 8 KiB is not used.
(Log entry 16 DESIGN CHOICE.) -/
def Cfg.identify (c : Cfg) (x : Option CfgDevice) : Cfg :=
  match x with
  | none => { c with sfdp := false, size := 0, dev := 0 }
  | some v =>
    let mem := match v.content with | some l => memWrite 0xFF [] 0 l | none => c.mem
    match v.sfdp with
    | some (size, dual) =>
      if size < 8192 then { c with sfdp := true, size := 0, dev := 0, mem }
      else
        let size := min size 0x1000000
        { c with sfdp := true, size, mem, dev := BitVec.ofNat 8 (Nat.log2 size + 32 + 64 * b2n dual + 128) }
    | none =>
      let size := if v.io1 then 0x10000 else 0x20000
      { c with sfdp := false, size, mem, dev := BitVec.ofNat 8 (Nat.log2 size + 128 * b2n (!v.io1)) }

/-- The record carries a tag. -/
def Found.tagged (f : Found) : Bool := f.tag.any fun b => b ≠ 0

/-- Its tag verifies (R231). -/
def Found.verifies (f : Found) : Bool := f.tag = f.rec_.tag

/-- The record is applied (R231). -/
def Found.applies (f : Found) (provisioned : Bool) : Bool := if f.tagged then f.verifies else !provisioned

/-- The records of the current area, none where there is no area of this format; and whether defaults hold (R291). -/
def Cfg.found (c : Cfg) : List Found × Bool :=
  match c.current with
  | none => ([], true)
  | some k => if c.byte (k * c.areaSize + 4) = 2 then ((c.scan k).1, false) else ([], true)

/-- A record sets its object; one whose object is no RWP object of the hardware, or whose value fails R267, is counted
as skipped (R291).
(Log entry 38 DEDUCED.) -/
def Dev.applyRecord (d : Dev) (r : CfgRec) : Dev :=
  let skip := { d with cfg := { d.cfg with skipped := d.cfg.skipped + 1 } }
  match objAt d r.index.toNat r.sub.toNat with
  | .error _ => skip
  | .ok o =>
    if o.acc = .rwp ∧ (o.refuses r.value).isNone then
      { d with cfg := { d.cfg with applied := d.cfg.applied + 1 } }.setRwp r.index r.sub o r.value
    else skip

/-- The resource of a unit type and number (R429). -/
def resourceOf (t n : Nat) : Option FaultTarget :=
  match t with
  | 1 => if n < 1152 then some (.lane (Fin.ofNat 24 (n / 48)) (Fin.ofNat 48 n)) else none
  | 2 => if n < 1536 then some (.watcher (Fin.ofNat 24 (n / 64)) (Fin.ofNat 64 n)) else none
  | 3 => if n < 24 then some (.port (Fin.ofNat 24 n)) else none
  | 4 => if n < 8 then some (.core (Fin.ofNat 8 n)) else none
  | 5 => if n < 32 then some (.queueBank (Fin.ofNat 4 (n / 8)) (Fin.ofNat 8 n)) else none
  | 6 => if n < 4 then some (.region (Fin.ofNat 4 n)) else none
  | _ => none

/-- The entry that a retirement record spells. -/
def CfgRec.retired (r : CfgRec) : Option ((Nat × Nat) × FaultTarget) :=
  if r.isRetire ∧ r.value.length = 2 then
    (resourceOf r.sub.toNat (bytesNat r.value)).map fun t => ((r.sub.toNat, bytesNat r.value), t)
  else none

/-- Core c is named by an entry, itself or by its region.
(Log entry 26 DEDUCED.) -/
def namesCore (c : CoreId) (t : FaultTarget) : Bool :=
  match t with
  | .core x => x = c
  | .region r => regionOfCore c = r
  | _ => false

/-- The retirement list as read is applied (R430). Where it would leave no core, no core is removed.
(Log entry 26 DEDUCED.) -/
def Dev.applyList (d : Dev) (l : List ((Nat × Nat) × FaultTarget)) : Dev :=
  let alive := (List.finRange 8).filter fun c => !(d.cores[c]).retired
  let none_ := alive.all fun c => l.any fun x => namesCore c x.2
  let d := l.foldl (fun d x =>
    if d.flt.list.contains x.1 then d else { d with flt := { d.flt with list := d.flt.list ++ [x.1] } }) d
  let d := l.foldl (fun d x =>
    match x.2 with
    | .core _ => if none_ then d else d.removeChild x.2 9
    | t => d.removeChild t 9) d
  if none_ then alive.foldl (fun d c => d.modCore c fun y => { y with retired := false }) d else d

/-- Compaction at a start: unbound records are rewritten with their tags (R231), and after CLEARRET no retirement
record is written (R430).
(Log entry 27 DEDUCED.) -/
def Dev.startCompact (d : Dev) (unbound : Bool) : Dev :=
  if d.cfg.current.isNone then d
  else if d.flt.clearRet then
    { d with cfg := d.cfg.compact (d.tdp.rwp.map fun x => { index := x.1, sub := x.2.1, value := x.2.2 }) }
  else if unbound then { d with cfg := d.cfg.compact d.compactRecs }
  else d

/-- Config memory is read and classed: flags, records applied, retirements. -/
def Dev.readConfig (inp : StartInputs) (d : Dev) : Dev :=
  let d := { d with cfg := d.cfg.identify inp.cfgDevice }
  let d := match d.cfg.current with
    | some k => { d with cfg := { d.cfg with area := k, gen := BitVec.ofNat 32 (d.cfg.areaGen k) } }
    | none => d
  let (recs, defaulted) := d.cfg.found
  let prov := d.otp.provisioned
  let tagged := recs.filter Found.tagged
  let bad := tagged.any fun f => !f.verifies
  let good := tagged.any Found.verifies
  let foreign := bad && !good
  let d := if foreign then { d with cfg := { d.cfg with foreignSeen := true } }.cfgFlag 0 else d
  let d := if bad && good then d.cfgFlag 1 else d
  let d := if prov && recs.any (fun f => !f.tagged) then d.cfgFlag 2 else d
  let d := if defaulted then d.cfgFlag 3 else d
  let d := if foreign || defaulted then { d with cfg := { d.cfg with mustCompact := true } } else d
  let use := (recs.filter fun f => f.applies prov).map (·.rec_)
  let d := (use.filter fun r => !r.isRetire).foldl (fun d r => d.applyRecord r) d
  let d := if d.flt.clearRet then d else d.applyList (use.filterMap CfgRec.retired)
  let d := d.startCompact (!prov && recs.any fun f => !f.tagged)
  { d with flt := { d.flt with clearRet := false } }

/-- RWP values in the order of index and subindex.
(Log entry 30 DEDUCED.) -/
def rwpBefore (a b : BitVec 16 × Byte × List Byte) : Bool :=
  a.1.toNat * 256 + a.2.1.toNat ≤ b.1.toNat * 256 + b.2.1.toNat

/-- Every RWP value goes into its field (R301, R408).
(Log entry 30 DEDUCED.) -/
def writeBack (s : State) : State := applyRwp (sortBy rwpBefore (s.d.tdp.rwp ++ s.d.staleRwp)) s

/-- Config memory read, RWP fields written, CAN started.
(Log entries 25 DEDUCED, 30 DEDUCED.) -/
def step5 (inp : StartInputs) (s : State) : State :=
  let s := writeBack { s with d := (s.d.readConfig inp).moveRom }
  { s with d := s.d.canStart }

/-! ### Steps 6 and 7: flash journal and image (R332, R346, R440, R441) -/

/-- Blocks whose ES and EC differ are HALF; one in the image slot ends the start. -/
def Dev.step6 (d : Dev) : Dev :=
  let half := (d.flash.blocks.filter fun b => b.es ≠ b.ec).map (·.blk)
  let f := { d.flash with half }
  let d := { d with flash := if half = [] then f else f.flag 5 }
  if half.any fun b => b ≤ 95 then d.die 1 else d

/-- A segment of an image header. -/
structure Segment where
  src : Nat
  dest : Nat
  len : Nat
  kind : Nat
  deriving DecidableEq, Repr

/-- An image header (R440). -/
structure ImageHeader where
  keysel : Nat
  version : Nat
  imgLen : Nat
  entries : List Nat
  segs : List Segment
  deriving DecidableEq, Repr

/-- A little-endian field of a byte string. -/
def u32At (l : List Byte) (o : Nat) : Nat := bytesNat (slice l o 4)

/-- Bytes a to b − 1 of a string are all zero. -/
def zeroAt (l : List Byte) (a b : Nat) : Bool := (slice l a (b - a)).all fun x => x = 0

/-- Segment s of a header. -/
def segmentAt (l : List Byte) (s : Nat) : Segment :=
  let o := 64 + 16 * s
  { src := u32At l o, dest := u32At l (o + 4), len := u32At l (o + 8), kind := (byteAt l (o + 12)).toNat }

/-- The header that 320 bytes spell, when it is well formed (R441).
(Log entry 31 DEDUCED.) -/
def parseHeader (l : List Byte) : Option ImageHeader :=
  let n := (byteAt l 6).toNat
  let segs := (List.range (min n 16)).map (segmentAt l)
  let h : ImageHeader :=
    { keysel := (byteAt l 5).toNat, version := u32At l 8, imgLen := u32At l 12
      entries := (List.range 8).map fun c => u32At l (16 + 4 * c), segs }
  let zeros := byteAt l 7 = 0 && zeroAt l 48 64 && zeroAt l (64 + 16 * n) 320 &&
    (List.range (min n 16)).all fun s => zeroAt l (64 + 16 * s + 13) (64 + 16 * s + 16)
  let lens := h.imgLen % 16 = 0 && 320 ≤ h.imgLen && h.imgLen ≤ 6288784
  let segOk := fun (g : Segment) => g.dest % 4 = 0 && g.len % 4 = 0 && (g.kind ≠ 1 || (320 ≤ g.src && g.src + g.len ≤ h.imgLen))
  if l.take 5 = [0x48#8, 0x56#8, 0x49#8, 0x4D#8, 0x01#8] && zeros && lens && h.entries.headD 0 ≠ 0 && segs.all segOk then some h
  else none

/-- The segment lies in one of the SRAM windows and clear of the ROM's working area (R332 step 5).
(Log entry 31 DEDUCED.) -/
def Segment.placed (g : Segment) : Bool :=
  let inside := fun (lo size : Nat) => lo ≤ g.dest && g.dest + g.len ≤ lo + size
  (inside 0x20000000 0x80000 || (List.range 4).any fun r => inside (0x21000000 + r * 0x100000) 0x100000) &&
    !(g.dest < 0x20080000 && 0x2007C000 < g.dest + g.len)

/-- The bytes that a segment puts at its destination; none where its region is retired.
(Log entry 31 DEDUCED.) -/
def Dev.segmentBytes (d : Dev) (g : Segment) : List Byte :=
  let skipped := match winOf g.dest with | .rsram r _ => (d.regions[r]).retired | _ => false
  if skipped then []
  else match g.kind with
    | 1 => d.flash.bytes (0x08000000 + g.src) g.len
    | 2 => List.replicate g.len 0
    | _ => []

/-- The signed part and the header of the image in the slot, when its header is well formed, its key permitted and its
signature right (R224, R440). -/
def Dev.verifiedImage (d : Dev) : Option (ImageHeader × List Byte) :=
  match parseHeader (d.flash.bytes 0x08000000 320) with
  | none => none
  | some h =>
    let msg := d.flash.bytes 0x08000000 h.imgLen
    match d.otp.permitted h.keysel with
    | none => none
    | some k => if lmsVerify k (d.flash.bytes (0x08000000 + h.imgLen) 2668) msg then some (h, msg) else none

/-- Signature check and copying of the segments.
(Log entry 31 DEDUCED.) -/
def step7 (inp : StartInputs) (s : State) : State × Option ImageHeader :=
  if inp.imageBad then ({ s with d := (s.d.charge .flash 3).die 1 }, none)
  else match s.d.verifiedImage with
    | none => ({ s with d := s.d.die 2 }, none)
    | some (h, msg) =>
      if h.segs.all Segment.placed then
        let ram := h.segs.foldl (fun m g => memWrite 0 m g.dest (s.d.segmentBytes g)) s.ram
        let img : Image := { valid := true, version := BitVec.ofNat 32 h.version, hash := sha256 msg }
        ({ s with ram, d := { s.d with img } }, some h)
      else ({ s with d := s.d.die 2 }, none)

/-! ### Step 8: release (R333, R334) -/

/-- A core is released at its entry; the main core at ENTRY0 where its own entry is 0 (R441). -/
def Dev.releaseCore (d : Dev) (h : ImageHeader) (c : CoreId) : Dev :=
  let e : Word := clrBit (BitVec.ofNat 32 (h.entries.getD c.val 0)) 0
  let e0 : Word := clrBit (BitVec.ofNat 32 (h.entries.headD 0)) 0
  let main := c = d.mainCore
  if (d.cores[c]).retired || (h.entries.getD c.val 0 = 0 && !main) then d
  else (d.modCore c fun x => { x with entry := e }).startCore c (if h.entries.getD c.val 0 = 0 then e0 else e) 0x2007C000

/-- The boot information block. -/
def Dev.bootBlock (d : Dev) : List Byte :=
  let bits := fun (f : Core → Bool) => BitVec.ofNat 8 (bitsNat ((List.finRange 8).map fun c => f d.cores[c]))
  [0x01#8, BitVec.ofNat 8 d.pwr.cause, BitVec.ofNat 8 d.mainCore.val, bits (·.released), bits (·.retired), 0, 0, 0] ++
    padTo 32 d.img.hash ++ natBytes 8 d.datum.now.toNat ++ List.replicate 16 0

/-- Cores released, block written. -/
def step8 (h : ImageHeader) (s : State) : State :=
  let d := (List.finRange 8).foldl (fun d c => d.releaseCore h c) s.d
  { s with ram := memWrite 0 s.ram 0x2007C000 d.bootBlock, d := { d with pwr := { d.pwr with phase := .starting 9 } } }

/-! ### Step 9: ports (R121, R136, R137, R422) -/

/-- One plumb check of a lane at the start.
(Log entry 28 DEDUCED.) -/
def Dev.startLane (inp : StartInputs) (p : PortId) (d : Dev) (i : LaneId) : Dev :=
  if d.gone (.lane p i) then d
  else
    let d := d.modRx p fun x => { x with plumbOrder := if 12 ≤ x.plumbOrder then 6 else x.plumbOrder + 1 }
    if inp.failed.contains (.lane p i) then
      let d := (d.countRx p .plumbfail).modRx p fun x => { x with plumbFail := x.plumbFail ||| (1#48 <<< i.val) }
      d.selfTestFail (.lane p i)
    else (d.modLane p i fun l => { l with due := none, lastVerdict := d.now }).countRx p .plumbpass

/-- A full calibration at an entry's F (R121): the epoch advances, and the entry is valid at the port's temperature. -/
def Dev.startEntry (p : PortId) (d : Dev) (e : Fin 64) : Dev :=
  let f := ((d.ports[p]).syn.bm[e]).freq
  if freqOk f then (d.advanceEpoch p false).storeCalibration p f (some e) else d

/-- The synthesizer calibrates its entries, then PORT_RXFREQ, where it stays. LASTHOP reads 3 after a wake from STANDBY
(R468).
(Log entry 29 DEDUCED.) -/
def Dev.startSynth (d : Dev) (p : PortId) : Dev :=
  let f := (d.ports[p]).rx.rxfreq
  let d := (List.finRange 64).foldl (fun d e => Dev.startEntry p d e) d
  ((d.advanceEpoch p false).storeCalibration p f none).modSyn p fun s =>
    { s with lock := true, hop := none, queued := none, heldHop := false, freq := f, lasthop := if d.pwr.cause = 2 then 3 else 2 }

/-- The reciprocity calibration of a port gives its results; a noise figure above 6.0 dB or a tone not found fails it
(R422). -/
def Dev.startCal (d : Dev) (c : PortCal) : Dev :=
  let d := d.modGauge c.port fun g =>
    { g with nf := BitVec.ofNat 16 c.nf, nfOver := g.nfOver || decide (fld g.ctl 16 8 < c.nf) }
  if 60 < c.nf || !c.toneFound then d.selfTestFail (.port c.port)
  else d.modCal c.port fun x =>
    { x with calph := c.calph, calgain := c.calgain, calvalid := true, tcal := x.tnow, freq := (d.ports[c.port]).syn.freq, calT := d.datum.now, wanted := false
             blocked := false }

/-- One port at step 9: synthesizer, watchers, lanes, calibration. -/
def Dev.startPort (inp : StartInputs) (d : Dev) (p : PortId) : Dev :=
  if (d.ports[p]).rx.retired then d
  else
    let cal := inp.cal.find? fun c => c.port = p
    let d := match cal with | some c => d.modCal p fun x => { x with tnow := c.temp } | none => d
    let d := d.modGauge p fun g => { g with dueAt := d.now + 60 * secTicks }
    if inp.failed.contains (.port p) then d.selfTestFail (.port p)
    else
      let d := d.startSynth p
      let d := ((List.finRange 64).filter fun w => inp.failed.contains (.watcher p w)).foldl (fun d w =>
        if d.gone (.watcher p w) then d else d.selfTestFail (.watcher p w)) d
      let d := allLanes.foldl (fun d i => Dev.startLane inp p d i) d
      if (d.ports[p]).rx.retired then d
      else
        let d := d.femIdle p
        match cal with
        | some c => d.startCal c
        | none => d.modCal p fun x => { x with wanted := x.wanted || x.auto }

/-- Every port, in rising order; then the sequence stands before step 10.
(Log entry 28 DEDUCED.) -/
def Dev.step9 (inp : StartInputs) (d : Dev) : Dev :=
  let d := ((List.finRange 24).foldl (fun d p => Dev.startPort inp d p) d).serveCals
  { d with pwr := { d.pwr with phase := .starting 10 } }

/-! ### The sequence -/

/-- Steps 4 to 9 (R416); any failure ends in DEAD.
(Log entries 9 UNVERIFIED, 14 DESIGN CHOICE.) -/
def startSequence (inp : StartInputs) (s : State) : State :=
  let s := { s with d := { s.d with can := { s.d.can with straps := inp.straps.toNat } }.vinFlag.step4 inp }
  let s := s.unlessDead (step5 inp)
  let s := Dev.unlessDead Dev.step6 s
  match s.d.pwr.phase with
  | .dead _ => s
  | _ =>
    match step7 inp s with
    | (s, none) => s
    | (s, some h) => Dev.unlessDead (Dev.step9 inp) (step8 h s)

/-- The start begins and runs to step 9 or into DEAD; while TESTEN is high the module does not leave reset (R458).
SRAM holds nothing that was written before (R331, log entry 4).
(Log entry 4 DESIGN CHOICE.) -/
def powerUp (cause : Nat) (d : Dev) (inp : StartInputs) (s : State) : State :=
  if d.dbg.testen then { s with d := d.unpowered .reset, ram := [] }
  else startSequence inp { s with d := d.beginStart cause, ram := [] }

/-! ### VIN, RESETN, TESTEN (R404, R416, R458) -/

/-- The datum's remainder and the entry values have no use in a start from first power or RESETN (R414). -/
def Dev.freshRtc (d : Dev) : Dev := { d with rtc := { d.rtc with rem := 0, entry := none } }

/-- Step 2 of a start (R403): BACKUP_USED. -/
def Dev.checkBackup (s : State) (before : Rtc) : State :=
  let d := { s.d with rtc := { s.d.rtc with swPrev := s.d.rtc.swcount } }
  { s with d := if before.swcount = before.swPrev then d else d.pwrFlag 8 }

/-- VIN_VALID (R404): a start from step 1; VIN has just passed 34 V, so VIN_LOW sets. -/
def execVinValid (inp : StartInputs) (s : State) : Host.Outcome State Fault Refusal :=
  .next (if s.d.pwr.now = .off ∧ !s.d.pwr.overvolt then
    finish (Dev.checkBackup (powerUp 0 ((s.d.vinIn 340 359).freshRtc) inp s) s.d.rtc)
  else s)

/-- The converter stops (R404).
(Log entry 32 DEDUCED.) -/
def powerOff (s : State) : State := { s with d := s.d.unpowered .off, ram := [] }

/-- VIN_DROP (R404). -/
def execVinDrop (s : State) : Host.Outcome State Fault Refusal :=
  .next (finish (powerOff { s with d := { s.d with pwr := { s.d.pwr with overvolt := false } }.vinIn 0 319 }))

/-- VIN_OVERVOLTAGE (R404). -/
def execVinOvervoltage (s : State) : Host.Outcome State Fault Refusal :=
  .next (if s.d.pwr.now = .off then s
  else finish (powerOff { s with d := { s.d with pwr := { s.d.pwr with overvolt := true } }.vinIn 821 1000 }))

/-- VIN_OVERVOLTAGE_END (R404): a start from step 3; its CAUSE is that of first power, and VIN stands above 75 V, so
VIN_HIGH sets.
(Log entry 24 DEDUCED.) -/
def execVinOvervoltageEnd (inp : StartInputs) (s : State) : Host.Outcome State Fault Refusal :=
  .next (if s.d.pwr.overvolt then
    finish (powerUp 0 (({ s.d with pwr := { s.d.pwr with overvolt := false } }.vinIn 751 779).freshRtc) inp s)
  else s)

/-- RESETN_ASSERT (R416). -/
def execResetnAssert (s : State) : Host.Outcome State Fault Refusal :=
  .next (if s.d.pwr.now = .off then s else finish { s with d := s.d.unpowered .reset, ram := [] })

/-- RESETN (R416): its release. -/
def execResetn (inp : StartInputs) (s : State) : Host.Outcome State Fault Refusal :=
  .next (if s.d.pwr.now = .off then s else finish (powerUp 1 s.d.freshRtc inp s))

/-- TESTEN_CHANGE (R458): while it is high the module does not leave reset; its fall begins the start that it kept
back.
(Log entry 24 DEDUCED.) -/
def execTestenChange (high : Bool) (s : State) : Host.Outcome State Fault Refusal :=
  .next (onDev (fun d =>
    let was := d.dbg.testen
    let d := { d with dbg := { d.dbg with testen := high } }
    if was && !high && d.pwr.now = .reset then d.freshRtc.beginStart 1 else d) s)

/-- RUN_REACHED (R416): what is left of the sequence, then RUN or DEGRADED. -/
def execRunReached (inp : StartInputs) (s : State) : Host.Outcome State Fault Refusal :=
  .next (match s.d.pwr.now, s.d.pwr.phase with
    | .on, .starting k =>
      let s := if k < 10 then startSequence inp s.begun else s.begun
      finish (Dev.unlessDead (fun d =>
        { d with pwr := { d.pwr with phase := .up, runT := d.datum.now }, att := { d.att with last := d.rtc.count } }) s)
    | _, _ => s)

/-! ### The backup domain (R397, R402, R403) -/

/-- BACKUP_POWER_LOSS (R397). -/
def execBackupPowerLoss (s : State) : Host.Outcome State Fault Refusal :=
  .next (onDev (fun d => if d.rtc.powered then { d with rtc := d.rtc.lose } else d) s)

/-- BACKUP_SWITCH_OVER (R403). -/
def execBackupSwitchOver (s : State) : Host.Outcome State Fault Refusal :=
  .next (onDev (fun d =>
    let r := d.rtc
    if !r.powered ∨ r.onVbat then d
    else
      let r := { r with onVbat := true, swcount := min 255 (r.swcount + 1) }
      { d with rtc := if r.firstswv then r else { r with firstswv := true, firstsw := BitVec.ofNat 32 (r.count / 65536) } }) s)

/-- BACKUP_POWER_RETURN (R397): the domain has power, from VKA.
(Log entry 32 DEDUCED.) -/
def execBackupPowerReturn (s : State) : Host.Outcome State Fault Refusal :=
  .next (onDev (fun d => { d with rtc := { d.rtc with powered := true, onVbat := false } }) s)

/-! ### Waking (R335, R406 to R408, R414) -/

/-- A wake from HOLD: rails, datum, RWP fields, ports, CAN; HOLDWAKE sets, and the cores restart 2 ms later.
(Log entry 33 DEDUCED.) -/
def wakeHold (src : Nat) (s : State) : State :=
  let d := s.d
  let d := { d with pwr := { d.pwr with now := .on, wakeSrc := src, restartAt := some (d.now + 2 * msTicks) } }
  let d := ((d.reseed).setUnsynced true).attnCause 15
  let s := writeBack { s with d := d }
  let d := s.d.canStart
  { s with d := ((List.finRange 24).foldl (fun d p => if d.portUp p then (d.portRise p).femIdle p else d) d).serveCals }

/-- A wake from STANDBY: a start with CAUSE 2.
(Log entry 74 DEDUCED.) -/
def wakeStandby (src : Nat) (inp : StartInputs) (s : State) : State :=
  let d := s.d
  let s := if d.dbg.testen then { s with d := d.unpowered .reset, ram := [] }
    else startSequence inp { s with d := (d.beginStart 2).reseed, ram := [] }
  { s with d := { s.d with pwr := { s.d.pwr with wakeSrc := src } } }

/-- A source wakes the module from NAP or HOLD. -/
def State.wakeUp (s : State) (src : Nat) : State :=
  match s.d.pwr.now with
  | .nap => { s with d := s.d.leaveNap src }
  | .hold => wakeHold src s
  | _ => s

/-- A source acts in the present power state. -/
def wake (src : Nat) (inp : StartInputs) (s : State) : State :=
  match s.d.pwr.now with
  | .standby => wakeStandby src inp s
  | _ => s.wakeUp src

/-- WAKE_SRC of a source that is enabled and wakes from the present state (R407). -/
def Dev.wakes (d : Dev) (src : WakeSource) : Option Nat :=
  let cfg := fun (i : Nat) => bit d.pwr.wakecfg i
  match src with
  | .waken => if cfg 0 then some (if cfg 1 then 6 else 1) else none
  | .alarm => if cfg 2 ∧ d.rtc.alarmf then some 2 else none
  | .gpio g => if cfg 4 ∧ d.evt.gpioWake.getLsbD g.val ∧ (d.pwr.now = .nap ∨ d.pwr.now = .hold) then some 3 else none
  | .trunk l => if cfg 3 ∧ d.pwr.now ≠ .nap then some (4 + l.val) else none
  | .reqRun => if d.pwr.now = .nap then some 8 else none

/-- WAKE_EVENT (R407). -/
def execWakeEvent (src : WakeSource) (inp : StartInputs) (s : State) : Host.Outcome State Fault Refusal :=
  .next (match s.d.wakes src with
    | some n => finish (wake n inp s.begun)
    | none => s)

/-- RTC_ALARM (R402): ALARMF, producer 0x41, and a wake where PWR_WAKECFG.ALARM = 1. -/
def execRtcAlarm (inp : StartInputs) (s : State) : Host.Outcome State Fault Refusal :=
  .next (if !s.d.rtc.alarmen ∨ !s.d.rtc.powered then s
  else
    let d := s.begun.d.untilRtc s.d.rtc.alarmDue
    let d := { d with rtc := { d.rtc with alarmf := true, armed := false } }.fire [⟨0x41, 0⟩]
    let s := { s with d := d }
    finish (if bit d.pwr.wakecfg 2 then wake 2 inp s else s))

/-- A core that was released before HOLD restarts at its wake address (R335).
(Log entry 32 DEDUCED.) -/
def Dev.restartCore (d : Dev) (c : CoreId) : Dev :=
  let x := d.cores[c]
  if !x.released || x.retired then d
  else if x.wake = 0 then d.modCore c fun y => { y with released := false }
  else d.startCore c x.wake 1

/-- HOLD_WAKE_CORE_RESTART (R335): 2 ms after the wake. -/
def execHoldWakeCoreRestart (s : State) : Host.Outcome State Fault Refusal :=
  .next (onDev (fun d =>
    match d.pwr.restartAt with
    | none => d
    | some t =>
      let d := d.until_ t
      (List.finRange 8).foldl (fun d c => d.restartCore c) { d with pwr := { d.pwr with restartAt := none } }) s)

end Sys2Proof.Machine
end

