-- ==== Sys2Proof/Machine/Units.lean ====
section
/-! DEFINITION. Events that a unit meets in its own time: GPIO edges, filter windows, timer steps, the ends of flash
operations, the grant and the end of cipher operations. -/

namespace Sys2Proof.Machine

/-- The level driven on a ball from outside changes; an edge on a ball that GPIO_WAKE selects wakes the module (R407). -/
def gpioEdge (g : Fin 16) (level : Bool) (s : State) : State :=
  let t : State := { s with d := s.d.gpioChange (fun e =>
    { e with gpioExt := if level then e.gpioExt ||| (1#16 <<< g.val) else e.gpioExt &&& ~~~(1#16 <<< g.val) }) 0 }
  if t.d.gpioLevel.getLsbD g.val = s.d.gpioLevel.getLsbD g.val then t
  else match t.d.wakes (.gpio g) with
    | some n => t.wakeUp n
    | none => t

/-- GPIO_EDGE (R385, R407). -/
def execGpioEdge (g : Fin 16) (level : Bool) (s : State) : Host.Outcome State Fault Refusal :=
  .next (finish (gpioEdge g level s.begun))

/-- LUT_FILTER_END (R381). -/
def execLutFilterEnd (j : Fin 16) (s : State) : Host.Outcome State Fault Refusal :=
  .next (onDev (fun d => if d.datumCounts then d.filterEnd j else d) s)

/-- TIMER_STEP (R386). -/
def execTimerStep (t : Fin 16) (s : State) : Host.Outcome State Fault Refusal :=
  .next (onDev (fun d => if d.datumCounts then d.timerStep t else d) s)

/-- FLASH_PROGRAM_DONE (R339, R446): what waits for the flash goes on. -/
def execFlashProgramDone (s : State) : Host.Outcome State Fault Refusal :=
  .next (match s.d.flash.op with
    | .program _ =>
      finish (canNext (State.flashGoOn { s with d := { s.begun.d with flash := s.d.flash.programDone } } (some false)))
    | _ => s)

/-- FLASH_ERASE_PULSE_END (R341, R446); `verify` is what the verify of the block found. At the erase's end, what waits for
the flash goes on. -/
def execFlashErasePulseEnd (verify : Bool) (s : State) : Host.Outcome State Fault Refusal :=
  .next (match s.d.flash.op with
    | .erase .. =>
      let d := s.begun.d.until_ (s.d.flash.pulseDue s.d.now)
      let t : State := { s with d := { d with flash := d.flash.pulseEnd verify d.now } }
      finish (match t.d.flash.op with
        | .idle => canNext (t.flashGoOn (some true))
        | _ => t)
    | _ => s)

/-- CIPHER_GRANT (R214). -/
def execCipherGrant (r : RegionId) (s : State) : Host.Outcome State Fault Refusal :=
  .next (onDev (fun d => d.cipherGrant r) s)

/-- CIPHER_OP_END (R213); `mm` lists the blocks whose two results differed.
(Log entry 2 DESIGN CHOICE.) -/
def execCipherOpEnd (r : RegionId) (n : Fin 2) (mm : List Mismatch) (s : State) : Host.Outcome State Fault Refusal :=
  .next (finish (cipherOpEnd r n mm s.begun))

end Sys2Proof.Machine
end

