-- ==== Sys2Proof/Machine/Dispatch.lean ====
section
/-! DEFINITION. One arm per command: a direct call of its meaning, or its rejection by name. -/

namespace Sys2Proof.Machine

def exec (i : Instr) (s : State) : Host.Outcome State Fault Refusal :=
  match i with
  | .handshakeTimeout t retryOk => Sys2Proof.Machine.execHandshakeTimeout t retryOk s
  | .heldAccessRelease ini => Sys2Proof.Machine.execHeldAccessRelease ini s
  | .preambleCandidate p w k c => Sys2Proof.Machine.execPreambleCandidate p w k c s
  | .syncCheck p w c s0 s1 => Sys2Proof.Machine.execSyncCheck p w c s0 s1 s
  | .laneRequest p n => Sys2Proof.Machine.execLaneRequest p n s
  | .laneRequestWithdrawn p n => Sys2Proof.Machine.execLaneRequestWithdrawn p n s
  | .laneOutcome p ini rep => Sys2Proof.Machine.execLaneOutcome p ini rep s
  | .agcClip p => Sys2Proof.Machine.execAgcClip p s
  | .agcGainDown p => Sys2Proof.Machine.execAgcGainDown p s
  | .agcGainUp p => Sys2Proof.Machine.execAgcGainUp p s
  | .portRxgainWrite ini p v => Sys2Proof.Machine.execPortRxgainWrite ini p v s
  | .portAgcResume ini p v => Sys2Proof.Machine.execPortAgcResume ini p v s
  | .portRxfreqWrite ini p v => Sys2Proof.Machine.execPortRxfreqWrite ini p v s
  | .portRxctlWrite ini p v => Sys2Proof.Machine.execPortRxctlWrite ini p v s
  | .portWcfgWrite ini p w v => Sys2Proof.Machine.execPortWcfgWrite ini p w v s
  | .portCntclr ini p v => Sys2Proof.Machine.execPortCntclr ini p v s
  | .secondLookStart r => Sys2Proof.Machine.execSecondLookStart r s
  | .slExpired r n => Sys2Proof.Machine.execSlExpired r n s
  | .secondLookDone r u rep => Sys2Proof.Machine.execSecondLookDone r u rep s
  | .plumbDue p ini => Sys2Proof.Machine.execPlumbDue p ini s
  | .plumbCheckStart p => Sys2Proof.Machine.execPlumbCheckStart p s
  | .plumbCheckVerdict p decoded snrError => Sys2Proof.Machine.execPlumbCheckVerdict p decoded snrError s
  | .portPlumbRunnow ini p v => Sys2Proof.Machine.execPortPlumbRunnow ini p v s
  | .gaugeStart p => Sys2Proof.Machine.execGaugeStart p s
  | .gaugeRunnow ini p v => Sys2Proof.Machine.execGaugeRunnow ini p v s
  | .gaugeDone p floor => Sys2Proof.Machine.execGaugeDone p floor s
  | .hopLock p => Sys2Proof.Machine.execHopLock p s
  | .hopFail p => Sys2Proof.Machine.execHopFail p s
  | .lockLost p => Sys2Proof.Machine.execLockLost p s
  | .portBmFreqWrite ini p e v => Sys2Proof.Machine.execPortBmFreqWrite ini p e v s
  | .portBmctlFill ini p v => Sys2Proof.Machine.execPortBmctlFill ini p v s
  | .portBmctlInvall ini p v => Sys2Proof.Machine.execPortBmctlInvall ini p v s
  | .portTuneWrite ini p v => Sys2Proof.Machine.execPortTuneWrite ini p v s
  | .portTuneResume ini p v => Sys2Proof.Machine.execPortTuneResume ini p v s
  | .tunerRlMeasured p rl => Sys2Proof.Machine.execTunerRlMeasured p rl s
  | .portTxpwrWrite ini p v => Sys2Proof.Machine.execPortTxpwrWrite ini p v s
  | .portTxcntclr ini p v => Sys2Proof.Machine.execPortTxcntclr ini p v s
  | .portCalRunnow ini p v => Sys2Proof.Machine.execPortCalRunnow ini p v s
  | .calTempDrift p t => Sys2Proof.Machine.execCalTempDrift p t s
  | .calNoiseColdEnd p power => Sys2Proof.Machine.execCalNoiseColdEnd p power s
  | .calNoiseHotEnd p nf => Sys2Proof.Machine.execCalNoiseHotEnd p nf s
  | .calToneStart p => Sys2Proof.Machine.execCalToneStart p s
  | .calToneEnd p calph calgain => Sys2Proof.Machine.execCalToneEnd p calph calgain s
  | .calComplete p => Sys2Proof.Machine.execCalComplete p s
  | .framePrepared p => Sys2Proof.Machine.execFramePrepared p s
  | .stakeArmingDeadline p n => Sys2Proof.Machine.execStakeArmingDeadline p n s
  | .stakeLockCheck p n => Sys2Proof.Machine.execStakeLockCheck p n s
  | .txFemLevels p n => Sys2Proof.Machine.execTxFemLevels p n s
  | .txSwitchToTx p n => Sys2Proof.Machine.execTxSwitchToTx p n s
  | .txRampUp p n => Sys2Proof.Machine.execTxRampUp p n s
  | .stakeRelease p n => Sys2Proof.Machine.execStakeRelease p n s
  | .txFrameEnd p n => Sys2Proof.Machine.execTxFrameEnd p n s
  | .txOff p n => Sys2Proof.Machine.execTxOff p n s
  | .txIntervalEnd p n => Sys2Proof.Machine.execTxIntervalEnd p n s
  | .rxwinEnd p n => Sys2Proof.Machine.execRxwinEnd p n s
  | .stakeIntervalEnd p n => Sys2Proof.Machine.execStakeIntervalEnd p n s
  | .sbBook ini p v => Sys2Proof.Machine.execSbBook ini p v s
  | .sbCancel ini p v => Sys2Proof.Machine.execSbCancel ini p v s
  | .linkUplink r mm => Sys2Proof.Machine.execLinkUplink r mm s
  | .ctxopInstall ini r v => Sys2Proof.Machine.execCtxopInstall ini r v s
  | .ctxopRemove ini r v => Sys2Proof.Machine.execCtxopRemove ini r v s
  | .ctxopRemoveDone n => Sys2Proof.Machine.execCtxopRemoveDone n s
  | .ctxopFind ini r v => Sys2Proof.Machine.execCtxopFind ini r v s
  | .missHoldExpired r n => Sys2Proof.Machine.execMissHoldExpired r n s
  | .downlinkPacket r => Sys2Proof.Machine.execDownlinkPacket r s
  | .downlinkExpired x => Sys2Proof.Machine.execDownlinkExpired x s
  | .schedWindowDue n => Sys2Proof.Machine.execSchedWindowDue n s
  | .chainMoveEnd n => Sys2Proof.Machine.execChainMoveEnd n s
  | .linkCntclr ini r v => Sys2Proof.Machine.execLinkCntclr ini r v s
  | .linkAnchoridWrite ini r v => Sys2Proof.Machine.execLinkAnchoridWrite ini r v s
  | .linkHashstatRead ini r => Sys2Proof.Machine.execLinkHashstatRead ini r s
  | .contextWordWrite ini n w v => Sys2Proof.Machine.execContextWordWrite ini n w v s
  | .refinWindowEnd m => Sys2Proof.Machine.execRefinWindowEnd m s
  | .refinEdgeLoss => Sys2Proof.Machine.execRefinEdgeLoss s
  | .datumNowRead ini => Sys2Proof.Machine.execDatumNowRead ini s
  | .datumTrimWrite ini v => Sys2Proof.Machine.execDatumTrimWrite ini v s
  | .ppsEdge falling => Sys2Proof.Machine.execPpsEdge falling s
  | .ppsLost => Sys2Proof.Machine.execPpsLost s
  | .datumPpsctlWrite ini v => Sys2Proof.Machine.execDatumPpsctlWrite ini v s
  | .datumStepgo ini v => Sys2Proof.Machine.execDatumStepgo ini v s
  | .datumDeclare ini v => Sys2Proof.Machine.execDatumDeclare ini v s
  | .ppsHoldoverExpired => Sys2Proof.Machine.execPpsHoldoverExpired s
  | .ciphCcmEnc ini r n v => Sys2Proof.Machine.execCiphCcmEnc ini r n v s
  | .ciphCcmDec ini r n v => Sys2Proof.Machine.execCiphCcmDec ini r n v s
  | .ciphCmacGen ini r n v => Sys2Proof.Machine.execCiphCmacGen ini r n v s
  | .ciphCmacVer ini r n v => Sys2Proof.Machine.execCiphCmacVer ini r n v s
  | .ciphDerive ini r n v => Sys2Proof.Machine.execCiphDerive ini r n v s
  | .ciphKeyload ini r n v => Sys2Proof.Machine.execCiphKeyload ini r n v s
  | .ciphKeysave ini r n v => Sys2Proof.Machine.execCiphKeysave ini r n v s
  | .cipherGrant r => Sys2Proof.Machine.execCipherGrant r s
  | .cipherOpEnd r n mm => Sys2Proof.Machine.execCipherOpEnd r n mm s
  | .keyCommitDone ok => Sys2Proof.Machine.execKeyCommitDone ok s
  | .keyLoadplain ini v => Sys2Proof.Machine.execKeyLoadplain ini v s
  | .keyErase ini v => Sys2Proof.Machine.execKeyErase ini v s
  | .keyEraseall ini v => Sys2Proof.Machine.execKeyEraseall ini v s
  | .hashSha256 ini v => Sys2Proof.Machine.execHashSha256 ini v s
  | .hashLmsVerify ini v => Sys2Proof.Machine.execHashLmsVerify ini v s
  | .hashDone => Sys2Proof.Machine.execHashDone s
  | .otpProgkey ini v => Sys2Proof.Machine.execOtpProgkey ini v s
  | .otpRevoke ini v => Sys2Proof.Machine.execOtpRevoke ini v s
  | .otpClearrootok ini v => Sys2Proof.Machine.execOtpClearrootok ini v s
  | .attRequest ini v => Sys2Proof.Machine.execAttRequest ini v s
  | .attSigned => Sys2Proof.Machine.execAttSigned s
  | .dbgTokenSubmit ini v => Sys2Proof.Machine.execDbgTokenSubmit ini v s
  | .jtagToken token => Sys2Proof.Machine.execJtagToken token s
  | .jtagGetchal => Sys2Proof.Machine.execJtagGetchal s
  | .secAuthWindowEnd => Sys2Proof.Machine.execSecAuthWindowEnd s
  | .trunkSignalPresent l => Sys2Proof.Machine.execTrunkSignalPresent l s
  | .trunkUp l => Sys2Proof.Machine.execTrunkUp l s
  | .trunkDown l => Sys2Proof.Machine.execTrunkDown l s
  | .trunkFrameRx l bytes codeError => Sys2Proof.Machine.execTrunkFrameRx l bytes codeError s
  | .trunkAdmit l => Sys2Proof.Machine.execTrunkAdmit l s
  | .trunkPing l => Sys2Proof.Machine.execTrunkPing l s
  | .trunkMemrd l => Sys2Proof.Machine.execTrunkMemrd l s
  | .trunkMemwr l => Sys2Proof.Machine.execTrunkMemwr l s
  | .trunkQrd l => Sys2Proof.Machine.execTrunkQrd l s
  | .trunkQwr l => Sys2Proof.Machine.execTrunkQwr l s
  | .qwrResume l t => Sys2Proof.Machine.execQwrResume l t s
  | .qwrParkTimeout l t => Sys2Proof.Machine.execQwrParkTimeout l t s
  | .trunkSread l => Sys2Proof.Machine.execTrunkSread l s
  | .sreadServed l t => Sys2Proof.Machine.execSreadServed l t s
  | .sreadTimeout l t => Sys2Proof.Machine.execSreadTimeout l t s
  | .trunkDict l => Sys2Proof.Machine.execTrunkDict l s
  | .trunkMbxPost l => Sys2Proof.Machine.execTrunkMbxPost l s
  | .trunkMbxTake l => Sys2Proof.Machine.execTrunkMbxTake l s
  | .trunkMbxPeek l => Sys2Proof.Machine.execTrunkMbxPeek l s
  | .trunkRelease l t => Sys2Proof.Machine.execTrunkRelease l t s
  | .trunkRetainExpired l t => Sys2Proof.Machine.execTrunkRetainExpired l t s
  | .trkAttnsetWrite ini v => Sys2Proof.Machine.execTrkAttnsetWrite ini v s
  | .trkCntclr ini v => Sys2Proof.Machine.execTrkCntclr ini v s
  | .tdpRead c index sub => Sys2Proof.Machine.execTdpRead c index sub s
  | .tdpWriteExp c index sub data => Sys2Proof.Machine.execTdpWriteExp c index sub data s
  | .tdpWriteInit c index sub total => Sys2Proof.Machine.execTdpWriteInit c index sub total s
  | .tdpSegReq c seq => Sys2Proof.Machine.execTdpSegReq c seq s
  | .tdpSeg c seq data => Sys2Proof.Machine.execTdpSeg c seq data s
  | .tdpSegLast c seq data => Sys2Proof.Machine.execTdpSegLast c seq data s
  | .tdpAbort c index sub code => Sys2Proof.Machine.execTdpAbort c index sub code s
  | .tdpXferTimeout c => Sys2Proof.Machine.execTdpXferTimeout c s
  | .tdpFwAnswer => Sys2Proof.Machine.execTdpFwAnswer s
  | .tdpFwTimeout c => Sys2Proof.Machine.execTdpFwTimeout c s
  | .attnDetailClear c bit sub data => Sys2Proof.Machine.execAttnDetailClear c bit sub data s
  | .ctxOpChannel c op => Sys2Proof.Machine.execCtxOpChannel c op s
  | .attestWrite c challenge => Sys2Proof.Machine.execAttestWrite c challenge s
  | .clearret c v => Sys2Proof.Machine.execClearret c v s
  | .canRequestFrame x data fd brs => Sys2Proof.Machine.execCanRequestFrame x data fd brs s
  | .canBusoff => Sys2Proof.Machine.execCanBusoff s
  | .canBusoffRecovery => Sys2Proof.Machine.execCanBusoffRecovery s
  | .canTxTimeout => Sys2Proof.Machine.execCanTxTimeout s
  | .canCntclr ini v => Sys2Proof.Machine.execCanCntclr ini v s
  | .cfgRecordCommitted readBackOk => Sys2Proof.Machine.execCfgRecordCommitted readBackOk s
  | .cfgClear ini v => Sys2Proof.Machine.execCfgClear ini v s
  | .coreLoadStore c u => Sys2Proof.Machine.execCoreLoadStore c u s
  | .coreLrW c => Sys2Proof.Machine.execCoreLrW c s
  | .coreScW c => Sys2Proof.Machine.execCoreScW c s
  | .coreAmo c => Sys2Proof.Machine.execCoreAmo c s
  | .coreFence c => Sys2Proof.Machine.execCoreFence c s
  | .coreFenceI c => Sys2Proof.Machine.execCoreFenceI c s
  | .coreWfi c => Sys2Proof.Machine.execCoreWfi c s
  | .coreTimeRead c => Sys2Proof.Machine.execCoreTimeRead c s
  | .mtimecmpWrite c => Sys2Proof.Machine.execMtimecmpWrite c s
  | .machineTimerInterrupt c => Sys2Proof.Machine.execMachineTimerInterrupt c s
  | .coreInterruptTaken c => Sys2Proof.Machine.execCoreInterruptTaken c s
  | .mirqclaimWrite c => Sys2Proof.Machine.execMirqclaimWrite c s
  | .coreCtlWrite ini v => Sys2Proof.Machine.execCoreCtlWrite ini v s
  | .coreMsipWrite ini v => Sys2Proof.Machine.execCoreMsipWrite ini v s
  | .flashRead ini a u => Sys2Proof.Machine.execFlashRead ini a u s
  | .flashProgram ini v => Sys2Proof.Machine.execFlashProgram ini v s
  | .flashProgramDone => Sys2Proof.Machine.execFlashProgramDone s
  | .flashErase ini v => Sys2Proof.Machine.execFlashErase ini v s
  | .flashErasePulseEnd verify => Sys2Proof.Machine.execFlashErasePulseEnd verify s
  | .flashSuspend ini v => Sys2Proof.Machine.execFlashSuspend ini v s
  | .flashResume ini v => Sys2Proof.Machine.execFlashResume ini v s
  | .flashWpWrite ini n v => Sys2Proof.Machine.execFlashWpWrite ini n v s
  | .queWrLo ini q v => Sys2Proof.Machine.execQueWrLo ini q v s
  | .queWrHi ini q v => Sys2Proof.Machine.execQueWrHi ini q v s
  | .queWrendHi ini q v => Sys2Proof.Machine.execQueWrendHi ini q v s
  | .queRdLo ini q u => Sys2Proof.Machine.execQueRdLo ini q u s
  | .queFlush ini q v => Sys2Proof.Machine.execQueFlush ini q v s
  | .queCtlEnWrite ini q v => Sys2Proof.Machine.execQueCtlEnWrite ini q v s
  | .queCfgWrite ini q v => Sys2Proof.Machine.execQueCfgWrite ini q v s
  | .dmaCommit ini n v => Sys2Proof.Machine.execDmaCommit ini n v s
  | .dmaReadBurst r => Sys2Proof.Machine.execDmaReadBurst r s
  | .dmaWriteBurst r => Sys2Proof.Machine.execDmaWriteBurst r s
  | .dmaAbort ini n v => Sys2Proof.Machine.execDmaAbort ini n v s
  | .mbxLockRead ini m => Sys2Proof.Machine.execMbxLockRead ini m s
  | .mbxLockWrite ini m v => Sys2Proof.Machine.execMbxLockWrite ini m v s
  | .mbxMsgWrite ini m v => Sys2Proof.Machine.execMbxMsgWrite ini m v s
  | .mbxTakeRead ini m => Sys2Proof.Machine.execMbxTakeRead ini m s
  | .mbxTakenClear ini m v => Sys2Proof.Machine.execMbxTakenClear ini m v s
  | .gpioEdge g level => Sys2Proof.Machine.execGpioEdge g level s
  | .lutFilterEnd j => Sys2Proof.Machine.execLutFilterEnd j s
  | .evtFireWrite ini high v => Sys2Proof.Machine.execEvtFireWrite ini high v s
  | .timerStep t => Sys2Proof.Machine.execTimerStep t s
  | .tmrStart ini t v => Sys2Proof.Machine.execTmrStart ini t v s
  | .tmrStop ini t v => Sys2Proof.Machine.execTmrStop ini t v s
  | .tmrForce ini t v => Sys2Proof.Machine.execTmrForce ini t v s
  | .tmrGoWrite ini v => Sys2Proof.Machine.execTmrGoWrite ini v s
  | .tmrCaptRead ini t => Sys2Proof.Machine.execTmrCaptRead ini t s
  | .evtCtlClr ini v => Sys2Proof.Machine.execEvtCtlClr ini v s
  | .vinValid inp => Sys2Proof.Machine.execVinValid inp s
  | .vinDrop => Sys2Proof.Machine.execVinDrop s
  | .vinOvervoltage => Sys2Proof.Machine.execVinOvervoltage s
  | .vinOvervoltageEnd inp => Sys2Proof.Machine.execVinOvervoltageEnd inp s
  | .vinRangeFlag high => Sys2Proof.Machine.execVinRangeFlag high s
  | .resetn inp => Sys2Proof.Machine.execResetn inp s
  | .backupPowerLoss => Sys2Proof.Machine.execBackupPowerLoss s
  | .backupSwitchOver => Sys2Proof.Machine.execBackupSwitchOver s
  | .rtcFracRead ini => Sys2Proof.Machine.execRtcFracRead ini s
  | .rtcDateRead ini => Sys2Proof.Machine.execRtcDateRead ini s
  | .rtcHaltSet ini v => Sys2Proof.Machine.execRtcHaltSet ini v s
  | .rtcHaltClear ini v => Sys2Proof.Machine.execRtcHaltClear ini v s
  | .rtcBinary ini v => Sys2Proof.Machine.execRtcBinary ini v s
  | .rtcTimeWrite ini date v => Sys2Proof.Machine.execRtcTimeWrite ini date v s
  | .rtcCtlSyncDone => Sys2Proof.Machine.execRtcCtlSyncDone s
  | .rtcAlarm inp => Sys2Proof.Machine.execRtcAlarm inp s
  | .pwrReqRun ini v => Sys2Proof.Machine.execPwrReqRun ini v s
  | .pwrReqNap ini v => Sys2Proof.Machine.execPwrReqNap ini v s
  | .pwrReqHold ini v => Sys2Proof.Machine.execPwrReqHold ini v s
  | .pwrReqStandby ini v => Sys2Proof.Machine.execPwrReqStandby ini v s
  | .wakeEvent src inp => Sys2Proof.Machine.execWakeEvent src inp s
  | .holdWakeCoreRestart => Sys2Proof.Machine.execHoldWakeCoreRestart s
  | .pwrDomsleepWrite ini r v => Sys2Proof.Machine.execPwrDomsleepWrite ini r v s
  | .domainReady r d => Sys2Proof.Machine.execDomainReady r d s
  | .pwrVsetWrite ini r v => Sys2Proof.Machine.execPwrVsetWrite ini r v s
  | .pwrPaceWrite ini r v => Sys2Proof.Machine.execPwrPaceWrite ini r v s
  | .pwrVceilWrite ini r v => Sys2Proof.Machine.execPwrVceilWrite ini r v s
  | .vcoreSettled r => Sys2Proof.Machine.execVcoreSettled r s
  | .avsMarginLow r => Sys2Proof.Machine.execAvsMarginLow r s
  | .avsPaceStep r => Sys2Proof.Machine.execAvsPaceStep r s
  | .avsMarginHeld r => Sys2Proof.Machine.execAvsMarginHeld r s
  | .tempHigh t => Sys2Proof.Machine.execTempHigh t s
  | .out33Overload => Sys2Proof.Machine.execOut33Overload s
  | .updLockClaim c => Sys2Proof.Machine.execUpdLockClaim c s
  | .updLockRelease c => Sys2Proof.Machine.execUpdLockRelease c s
  | .updLockExpired => Sys2Proof.Machine.execUpdLockExpired s
  | .updImageInit c total => Sys2Proof.Machine.execUpdImageInit c total s
  | .updImageSegment c seq last data flashOk => Sys2Proof.Machine.execUpdImageSegment c seq last data flashOk s
  | .updCommit c flashOk => Sys2Proof.Machine.execUpdCommit c flashOk s
  | .updAbort c => Sys2Proof.Machine.execUpdAbort c s
  | .registerWrite ini a v => Sys2Proof.Machine.execRegisterWrite ini a v s
  | .resetnAssert => Sys2Proof.Machine.execResetnAssert s
  | .runReached inp => Sys2Proof.Machine.execRunReached inp s
  | .backupPowerReturn => Sys2Proof.Machine.execBackupPowerReturn s
  | .v33outRecovery => Sys2Proof.Machine.execV33outRecovery s
  | .coreInstruction c => Sys2Proof.Machine.execCoreInstruction c s
  | .jtagInstruction x => Sys2Proof.Machine.execJtagInstruction x s
  | .testenChange high => Sys2Proof.Machine.execTestenChange high s
  | .otpOperationEnd ok => Sys2Proof.Machine.execOtpOperationEnd ok s
  | .canResponseSent => Sys2Proof.Machine.execCanResponseSent s

end Sys2Proof.Machine
end

