-- ==== Sys2Proof/Safety.lean ====
section
/-! DEFINITION. What counts as a safe run, in the terms claims use: a command answers a next state; which commands are
turned away; when an access reaches its register; the invariant. -/

namespace Sys2Proof.Machine

/-- The command answers a next state that meets `post`. -/
def answers (o : Host.Outcome State Fault Refusal) (post : State → Prop) : Prop := ∃ t, o = .next t ∧ post t

/-- SRAM in its canonical form: the invariant that every step keeps. -/
def State.inv (s : State) : Prop := s.ram.wf = true

/-- The command is not one that the state turns away: a test-mode JTAG instruction while its scope is open (R234). -/
def State.accepts (s : State) (c : Instr) : Bool :=
  match c with
  | .jtagInstruction (.testMode _) => !s.d.dbg.opens 1
  | _ => true

/-- Initiator i can write the register at address a: its part of the module runs, no access of it is held (R16), and
PMP permits the access (R326). -/
def Dev.mayWrite (d : Dev) (i : Initiator) (a : Nat) : Prop := d.initReady i = true ∧ d.initMay i a true = true

/-- Initiator i can read the register at address a. -/
def Dev.mayRead (d : Dev) (i : Initiator) (a : Nat) : Prop := d.initReady i = true ∧ d.initMay i a false = true

/-- A domain of a region is neither asleep nor waking (R409, R410). -/
def Dev.domainUp (d : Dev) (r : RegionId) (k : Nat) : Prop :=
  d.domainAsleep r k = false ∧ (d.regions[r]).pwr.waking.contains k = false

/-- The registers of port p take an access: its region and the port are in service, powered and awake (R35, R116,
R406, R410). -/
def Dev.portAnswers (d : Dev) (p : PortId) : Prop :=
  (d.regions[regionOfPort p]).retired = false ∧ d.rfPowered = true ∧ (d.ports[p]).rx.retired = false ∧
    d.domainUp (regionOfPort p) (localOfPort p).val

/-- A page of region r takes an access: the region is in service and the page's domain awake (R35, R410). -/
def Dev.pageAnswers (d : Dev) (r : RegionId) (page : Fin 4) : Prop :=
  (d.regions[r]).retired = false ∧ ∀ k, pageDomain page = some k → d.domainUp r k

/-! ### Messages at the dispatcher -/

/-- The dispatcher has counted a message (R297). -/
def State.heard (s : State) : State :=
  { s with d := { s.begun.d with tdp := { s.d.tdp with cnt := s.d.tdp.cnt.set 0 (s.d.tdp.cnt[0] + 1) } } }

/-- The dispatcher has counted a request that names an index: the carrier's open transfer is closed (R272). -/
def State.asked (s : State) (c : Carrier) : State :=
  { s with d := (s.heard.d.closeXfer c).modCarrier c fun k => { k with timedOut := none } }

/-- A carrier takes a message at once: it owes no answer, a trunk carrier is in a state in which the message comes to
the dispatcher (R259), the domain of the message's object is ready (R410), and neither the carrier's transfer nor the
update lock has run out of time. -/
def State.tdpReady (s : State) (c : Carrier) (m : List Byte) : Prop :=
  s.d.carrierFree c = true ∧ (c = 0 ∨ dictNotReady s.d m = none) ∧ s.heard.d.dictHeld c m = none ∧
    s.d.xferOverdue c = false ∧ s.d.updOverdue = false

/-- A command that ends with a message on a carrier, given the state before it is sent. -/
def replied (c : Carrier) (m : List Byte) (t : State) : Host.Outcome State Fault Refusal :=
  .next (finish { t with d := t.d.respond c m })

/-- A command that ends with ABORT, which closes the carrier's transfer (R275). -/
def abortedBy (c : Carrier) (index : BitVec 16) (sub : Byte) (code : Nat) (t : State) : Host.Outcome State Fault Refusal :=
  replied c (abortMsg index sub code) { t with d := t.d.closeXfer c }

/-! ### Cores -/

/-- A core takes its next instruction: it is out of reset and not halted, held, or stalled in WFI (R319, R336). -/
def Dev.coreRuns (d : Dev) (c : CoreId) : Prop := d.coreLive c = true ∧ d.coreWakes c = true

/-- Core c fetches the instruction w of len bytes once the bit errors u have come up; t is the state after the fetch. -/
def State.fetches (s : State) (c : CoreId) (u : List BitErr) (w : Word) (len : Nat) (t : State) : Prop :=
  coreFetch c { s with d := (s.begun.d.upset u).modCore c fun x => { x with wfi := false } } = (t, .word w len)

/-- A core's command that ends in the state t. -/
def done (t : State) : Host.Outcome State Fault Refusal := .next (finish t)

end Sys2Proof.Machine
end

