-- ==== Sys2Proof/Certificates/Slice0/Obligations.lean ====
section
/-! DEFINITION. The statements for the provers: what the commands of the HV2448 do, family by family in the order of the
spec's chapters, and what holds of the whole block. Where a statement says that a command answers the state
`onDev f s` or `onDevW f s`, everything that `f` does not name is unchanged: `onDev` adds the SEQ bit of the ATTN word
alone, `onDevW` also a reset that the chip fault unit calls for. -/

open Sys2Proof Sys2Proof.Machine

/-! ### Receive (chapter 3) -/

/-- R74, R75: full scale moves the gain down by 3 steps and sets CLIP, an RMS above target by 1 step, one below target
up by 1 step, within 0 and 31; each move counts in CHANGES. While FROZEN the gain stands, and HELD sets where the loop
would have moved it. Nothing else of the machine changes but the model's note of when the gain changed.
The model's choices in it, and not the spec's rules, are log entry 39 (the gain moves when the command of the step
comes). -/
def Obligations.GainLoopMovesOrNotesHeld : Prop :=
  ∀ (s : State) (p : PortId), s.d.portUp p = true →
    exec (.agcClip p) s = .next (onDev (fun d => d.modRx p fun x =>
      if x.frozen then { x with clip := true, held := x.held || decide (x.gain ≠ 0) }
      else if x.gain = 0 then { x with clip := true }
      else { x.setGain d.now (x.gain - 3) with clip := true, changes := x.changes + 1 }) s) ∧
    exec (.agcGainDown p) s = .next (onDev (fun d => d.modRx p fun x =>
      if x.gain = 0 then x
      else if x.frozen then { x with held := true }
      else { x.setGain d.now (x.gain - 1) with changes := x.changes + 1 }) s) ∧
    ((s.d.ports[p]).rx.gain ≤ 31 →
      exec (.agcGainUp p) s = .next (onDev (fun d => d.modRx p fun x =>
        if x.gain = 31 then x
        else if x.frozen then { x with held := true }
        else { x.setGain d.now (x.gain + 1) with changes := x.changes + 1 }) s)) ∧
    (∀ (x : Rx) (now g : Nat), (x.setGain now g).gain = g ∧ (x.setGain now g).changes = x.changes ∧
      (x.setGain now g).cnt = x.cnt ∧ (x.setGain now g).lanes = x.lanes)

/-- R78, R93: a candidate that a watcher declares is held by the port with the highest RSSI (the lowest-numbered of
equals) among those of the combining group that receive and whose watcher searches its mode; a fifth one is not held
but counted in WATCHFULL. -/
def Obligations.CandidateIsHeldByTheStrongestPort : Prop :=
  ∀ (s : State) (p : PortId) (w : WatcherId) (k : Nat) (c : CandInfo) (b : Heard),
    (∀ h ∈ c.heard, (s.d.combineGroup p).contains h.port = true ∧ s.d.rxOn h.port = true ∧
      ((s.d.ports[h.port]).rx.watchers[w]).searches (fld ((s.d.ports[p]).rx.watchers[w]).cfg 1 2) k = true) →
    (∃ h ∈ c.heard, h.port = p) → 4 ≤ c.npre → c.npre ≤ 32 → b ∈ c.heard →
    (∀ h ∈ c.heard, h ≠ b → h.rssi < b.rssi ∨ (h.rssi = b.rssi ∧ b.port < h.port)) →
    exec (.preambleCandidate p w k c) s = .next (onDev (fun d =>
      let d := d.markActive b.port w.val (fld ((s.d.ports[p]).rx.watchers[w]).cfg 1 2)
      if ((s.d.ports[b.port]).rx.watchers[w]).cands.length < 4 then
        d.modWatcher b.port w fun x => { x with cands := x.cands ++ [⟨k, c⟩] }
      else d.countRx b.port .watchfull) s)

/-- R79, R113: two symbol times after the sync instant, a candidate whose sync value is SYNC0, or SYNC1 while SYNC1EN = 1,
is counted in DET and becomes a detection, with the gain that the port had at the sync instant; any other is counted in
SYNCREJ and discarded.
The model's choices in it, and not the spec's rules, are log entry 39 (what a second look later looks up). -/
def Obligations.SyncValueMakesTheDetection : Prop :=
  ∀ (s : State) (p : PortId) (w : WatcherId) (n s0 s1 : Nat) (c : Cand),
    ((s.d.ports[p]).rx.watchers[w]).cands[n]? = some c →
    exec (.syncCheck p w n s0 s1) s = .next (onDev (fun d =>
      let bw := fld ((s.d.ports[p]).rx.watchers[w]).cfg 1 2
      let sync := (s.d.ports[p]).rx.sync
      let v := syncValue c.k s0 s1
      let d := d.untilDatum ((c.info.syncT.toNat : Int) + 2 * symTicks c.k bw)
      let d := d.modWatcher p w fun x => { x with cands := x.cands.eraseIdx n }
      if v = sync.setWidth 8 ∨ (sync.getLsbD 16 = true ∧ v = (sync >>> 8).setWidth 8) then
        let g := gainAt (d.elapsedAt c.info.syncT) (d.ports[p]).rx.gainLog (d.ports[p]).rx.gain
        ((d.countRx p .det).slReport p w.val bw).modRx p fun y =>
          { y with reqs := y.reqs ++ [{ watcher := w, mode := ⟨c.k, bw, w.val⟩, sync := v, info := c.info
                                        rxgain := g, asked := false, capOnly := true }] }
      else d.countRx p .syncrej) s)

/-- R82, R85: a detection asks for a lane at its sync instant plus 2T. With no other request waiting in the region and
its lanes below the cap, the lowest-numbered free lane of the port takes the frame. A request withdrawn at its sync
instant plus 3T is counted in DROPNOLANE, and in DROPCAP where the cap alone refused it. Memory and the other ports stay
as they are.
The model's choices in it, and not the spec's rules, are log entries 1 (a late command leaves the time), 19 (the order
of requests of several ports, shut out here by the premise). -/
def Obligations.LowestFreeLaneTakesTheRequest : Prop :=
  ∀ (s : State) (p : PortId) (n : Nat) (q : LaneReq), (s.d.ports[p]).rx.reqs[n]? = some q →
    (∀ i : LaneId, q.asked = false → s.d.pendingReqs (regionOfPort p) = [] →
      ((s.d.ports[p]).rx.lanes[i]).free = true → (∀ j : LaneId, j < i → ((s.d.ports[p]).rx.lanes[j]).free = false) →
      (s.d.regionJobs (regionOfPort p)).length < s.d.laneCap (regionOfPort p) →
      answers (exec (.laneRequest p n) s) fun t =>
        (∃ j : LaneJob, ((t.d.ports[p]).rx.lanes[i]).work = .frame j ∧ j.rxPort = p ∧ j.req = { q with asked := true }) ∧
        (∀ j : LaneId, j ≠ i → (t.d.ports[p]).rx.lanes[j] = (s.d.ports[p]).rx.lanes[j]) ∧
        (t.d.ports[p]).rx.cnt = (s.d.ports[p]).rx.cnt ∧ (t.d.ports[p]).sb = (s.d.ports[p]).sb ∧
        (∀ o : PortId, o ≠ p → t.d.ports[o] = s.d.ports[o]) ∧ t.ram = s.ram) ∧
    (q.asked = true →
      answers (exec (.laneRequestWithdrawn p n) s) fun t =>
        t.d.ports = (let d := (s.d.modRx p fun x => { x with reqs := x.reqs.eraseIdx n }).countRx p .dropnolane
          if q.capOnly then d.countRx p .dropcap else d).ports ∧ t.ram = s.ram)

/-- R45, R86, R89, R91: at its outcome a lane is free again, and its frame is counted or goes on: HDRBAD for frequency-sync
peaks that are not M/2 apart within a bin and for a header that does not decode, CRCBAD for a payload whose CRC fails, LANELATE for a lane that fell behind; a frame without error goes to the
link engine, with the bytes of its payload, its SNR, and END_T corrected with the centre of the channel. (No other request waits in the region, so no frame takes the lane at once.)
The model's choices in it, and not the spec's rules, are log entries 7 (the outcome is an operand), 39 (the frame ends
when its outcome comes). -/
def Obligations.LaneOutcomeCountsOrPassesTheFrame : Prop :=
  ∀ (s : State) (p : PortId) (i : LaneId) (j : LaneJob), ((s.d.ports[p]).rx.lanes[i]).job = some j →
    s.d.pendingReqs (regionOfPort j.rxPort) = [] →
    (answers (exec (.laneOutcome p i .behind) s) fun t =>
      ((t.d.ports[p]).rx.lanes[i]).work = .idle ∧ t.ram = s.ram ∧
      (t.d.ports[j.rxPort]).rx.cnt[RxCnt.lanelate.ix] = (s.d.ports[j.rxPort]).rx.cnt[RxCnt.lanelate.ix] + 1) ∧
    (∀ (p0 p1 : Nat) (hd pl : List Nat) (pw : List (Nat × Nat)) (foff : Int) (second : Option Nat),
      let rep := LaneReport.symbols p0 p1 hd pl pw foff second
      (fsyncHolds j.req.mode.k p0 p1 = false ∨ headerOf j.req.mode.k hd = none →
        answers (exec (.laneOutcome p i rep) s) fun t =>
          ((t.d.ports[p]).rx.lanes[i]).work = .idle ∧ t.ram = s.ram ∧
          (t.d.regions[regionOfPort j.rxPort]).link.work = (s.d.regions[regionOfPort j.rxPort]).link.work ∧
          (t.d.ports[j.rxPort]).rx.cnt[RxCnt.hdrbad.ix] = (s.d.ports[j.rxPort]).rx.cnt[RxCnt.hdrbad.ix] + 1) ∧
      (∀ h : Header, fsyncHolds j.req.mode.k p0 p1 = true → headerOf j.req.mode.k hd = some h →
        (h.crcp = true → crcHolds h (payloadOf j.req.mode.k h pl) = false → (s.d.ports[j.rxPort]).rx.rxctl.getLsbD 3 = false →
          answers (exec (.laneOutcome p i rep) s) fun t =>
            ((t.d.ports[p]).rx.lanes[i]).work = .idle ∧ t.ram = s.ram ∧
            (t.d.regions[regionOfPort j.rxPort]).link.work = (s.d.regions[regionOfPort j.rxPort]).link.work ∧
            (t.d.ports[j.rxPort]).rx.cnt[RxCnt.crcbad.ix] = (s.d.ports[j.rxPort]).rx.cnt[RxCnt.crcbad.ix] + 1) ∧
        ((h.crcp = true → crcHolds h (payloadOf j.req.mode.k h pl) = true) →
          (s.d.regions[regionOfPort j.rxPort]).link.cfg.getLsbD 0 = true →
          answers (exec (.laneOutcome p i rep) s) fun t =>
            ((t.d.ports[p]).rx.lanes[i]).work = .idle ∧ t.ram = s.ram ∧
            ∃ f : AirFrame, (t.d.regions[regionOfPort j.rxPort]).link.work =
                (s.d.regions[regionOfPort j.rxPort]).link.work ++ [{ frame := f }] ∧
              f.port = j.rxPort ∧ f.mode = j.req.mode ∧ f.syncT = j.req.info.syncT ∧ f.rate = h.rate ∧
              f.snr = clampInt (-320) 400 (snrTenths j.req.mode.k pw) ∧ f.rxgain = j.req.rxgain ∧
              f.endT = j.req.info.syncT + BitVec.ofNat 64 (nodeTicks
                (channelCentre (s.d.ports[j.rxPort]).syn.freq j.req.mode.chan j.req.mode.bw) foff
                (symbolsAfterSync j.req.mode.k h * symTicks j.req.mode.k j.req.mode.bw)) ∧
              f.bytes = (payloadOf j.req.mode.k h pl).take h.len)))

/-- R101, R102: the lowest free second-look unit takes the request whose weak frame began first, counted in SLTRIED; a
request whose earliest sample leaves the slice is dropped and counted in SLEXPIRED; a unit that ends without a frame is
free again. A weak frame with a good header and CRC is counted in SLRECOVERED and goes to the link engine, unless nobody
detected it and its sync value is none that the port takes.
The model's choices in it, and not the spec's rules, are log entry 7 (what a look finds is an operand). -/
def Obligations.SecondLookTakesExpiresAndRecovers : Prop :=
  ∀ (s : State) (r : RegionId) (u : Fin 4) (q : SlReq),
    ((∀ x ∈ (s.d.regions[r]).second.reqs, s.d.now < x.need + sliceSpan) → q ∈ (s.d.regions[r]).second.reqs →
      (∀ x ∈ (s.d.regions[r]).second.reqs, x ≠ q → q.wStart < x.wStart) →
      ((s.d.regions[r]).second.units[u]).job = none → ((s.d.regions[r]).second.units[u]).fenced = false →
      (∀ v : Fin 4, v < u → ((s.d.regions[r]).second.units[v]).fenced = true ∨
        ((s.d.regions[r]).second.units[v]).job.isSome = true) →
      exec (.secondLookStart r) s = .next (onDev (fun d => (d.countRx q.port .sltried).modSecond r fun x =>
        { x with reqs := x.reqs.erase q, units := x.units.set u { x.units[u] with job := some q } }) s)) ∧
    (∀ n : Nat, (s.d.regions[r]).second.reqs[n]? = some q →
      exec (.slExpired r n) s = .next (onDev (fun d =>
        (((d.until_ (q.need + sliceSpan)).modSecond r fun x => { x with reqs := x.reqs.eraseIdx n }).countRx q.port
          .slexpired).gcSlices r) s)) ∧
    (((s.d.regions[r]).second.units[u]).job = some q →
      (exec (.secondLookDone r u .nothing) s = .next (onDev (fun d =>
        (d.modSecond r fun x => { x with units := x.units.set u { x.units[u] with job := none } }).gcSlices r) s)) ∧
      ∀ (hd pl : List Nat) (sync : Byte) (rssi foff : Int) (pw : List (Nat × Nat)) (syncT : Word64) (npre : Nat) (h : Header),
        let rep := LookReport.found hd pl sync rssi pw foff syncT npre
        (headerOf q.mode.k hd = some h → crcHolds h (payloadOf q.mode.k h pl) = true →
          (q.seen.isSome = true ∨ (s.d.ports[q.port]).rx.accepts sync = true) →
          (s.d.regions[regionOfPort q.port]).link.cfg.getLsbD 0 = true →
          answers (exec (.secondLookDone r u rep) s) fun t =>
            ((t.d.regions[r]).second.units[u]).job = none ∧ t.ram = s.ram ∧
            t.d.ports = (s.d.countRx q.port .slrecovered).ports ∧
            ∃ f : AirFrame, (t.d.regions[regionOfPort q.port]).link.work =
                (s.d.regions[regionOfPort q.port]).link.work ++ [{ frame := f }] ∧
              f.port = q.port ∧ f.sl = true ∧ f.syncT = syncT ∧ f.bytes = (payloadOf q.mode.k h pl).take h.len) ∧
        (q.seen = none → (s.d.ports[q.port]).rx.accepts sync = false →
          exec (.secondLookDone r u rep) s = exec (.secondLookDone r u .nothing) s))

/-- R104 to R106: a lane falls due INTERVAL seconds after its last verdict; the generator takes the next due lane when it
is free; a check that decodes with its SNR within 0.3 dB passes and gives the lane back, any other fails, withholds the
lane for a check at once, sets its flag and is charged to the lane's fault unit.
The model's choices in it, and not the spec's rules, are log entries 7 (the verdict is measured from an operand), 37
(where a failed lane is charged). -/
def Obligations.PlumbChecksPassOrWithholdTheLane : Prop :=
  ∀ (s : State) (p : PortId) (i : LaneId),
    ((s.d.ports[p]).rx.interval ≠ 0 → ((s.d.ports[p]).rx.lanes[i]).due = none →
      ((s.d.ports[p]).rx.lanes[i]).retired = false →
      exec (.plumbDue p i) s = .next (onDev (fun d =>
        let d := d.until_ (((d.ports[p]).rx.lanes[i]).lastVerdict + (d.ports[p]).rx.interval * 200000000)
        d.modLane p i fun l => { l with due := some d.now }) s)) ∧
    ((s.d.ports[p]).rx.plumbLane = none → s.d.portUp p = true → (s.d.ports[p]).rx.plumbNext = some i →
      exec (.plumbCheckStart p) s = .next (onDev (fun d => d.modRx p fun x =>
        { x with lanes := x.lanes.set i { x.lanes[i] with work := .plumb }, plumbLane := some i }) s)) ∧
    (∀ e : Int, (s.d.ports[p]).rx.plumbLane = some i →
      (-3 ≤ e → e ≤ 3 →
        exec (.plumbCheckVerdict p true e) s = .next (onDevW (fun d =>
          (((d.modRx p fun x =>
            { x with plumbLane := none, plumbOrder := if 12 ≤ x.plumbOrder then 6 else x.plumbOrder + 1
                     lanes := x.lanes.set i { x.lanes[i] with
                       work := .idle, withheld := false, due := none, lastVerdict := s.d.now, repeatNow := false }
                     cnt := x.cnt.set RxCnt.plumbpass.ix (x.cnt[RxCnt.plumbpass.ix] + 1) }).serveLanes
            (regionOfPort p)).gcSlices (regionOfPort p))) s)) ∧
      (∀ dec : Bool, (dec = false ∨ e < -3 ∨ 3 < e) →
        exec (.plumbCheckVerdict p dec e) s = .next (onDevW (fun d =>
          (d.modRx p fun x =>
            { x with plumbLane := none, plumbOrder := if 12 ≤ x.plumbOrder then 6 else x.plumbOrder + 1
                     lanes := x.lanes.set i { x.lanes[i] with
                       work := .idle, withheld := true, due := none, lastVerdict := s.d.now, repeatNow := true }
                     cnt := x.cnt.set RxCnt.plumbfail.ix (x.cnt[RxCnt.plumbfail.ix] + 1)
                     plumbFail := x.plumbFail ||| (1#48 <<< i.val) }).charge (.unit (.lane p i)) 4) s)))

/-- R107, R108, R110: at its time the gauge starts a 10 ms measurement on a quiet channel; a transmission puts it off by
1 s, and no quiet channel sets NOQUIET. At the end FLOOR, CH, GAIN and T are written, EXCESS is FLOOR + 121.0 dBm, and OVER
sets where EXCESS exceeds THRESH.
The model's choices in it, and not the spec's rules, are log entries 7 (FLOOR is an operand), 18 (rounding), 41 (a
transmission in progress at the start puts the gauge off). -/
def Obligations.GaugeMeasuresFloorAndExcess : Prop :=
  ∀ (s : State) (p : PortId),
    ((s.d.ports[p]).rx.gauge.ctl.getLsbD 0 = true → (s.d.ports[p]).rx.gauge.run = none → s.d.portUp p = true →
      s.d.now ≤ (s.d.ports[p]).rx.gauge.dueAt →
      ((s.d.ports[p]).txBlock = true →
        answers (exec (.gaugeStart p) s) fun t =>
          t.d.now = (s.d.ports[p]).rx.gauge.dueAt ∧ t.ram = s.ram ∧ t.d.ports =
            (s.d.modGauge p fun g => { g with dueAt := g.dueAt + 200000000 }).ports) ∧
      ((s.d.ports[p]).txBlock = false →
        (∀ c : Nat, (s.d.until_ (s.d.ports[p]).rx.gauge.dueAt).quietChannel p = some c →
          answers (exec (.gaugeStart p) s) fun t =>
            t.d.now = (s.d.ports[p]).rx.gauge.dueAt ∧ t.ram = s.ram ∧ t.d.ports = (s.d.modGauge p fun g =>
              { g with dueAt := g.dueAt + 60 * 200000000
                       run := some ⟨c, (s.d.ports[p]).rx.gain, t.d.datum.now, g.dueAt + 2000000⟩ }).ports) ∧
        ((s.d.until_ (s.d.ports[p]).rx.gauge.dueAt).quietChannel p = none →
          answers (exec (.gaugeStart p) s) fun t =>
            t.d.now = (s.d.ports[p]).rx.gauge.dueAt ∧ t.ram = s.ram ∧ t.d.ports =
              (s.d.modGauge p fun g => { g with noquiet := true, dueAt := g.dueAt + 60 * 200000000 }).ports))) ∧
    (∀ (floor : Int) (u : GaugeRun), (s.d.ports[p]).rx.gauge.run = some u → s.d.now ≤ u.endAt →
      answers (exec (.gaugeDone p floor) s) fun t =>
        t.d.now = u.endAt ∧ t.ram = s.ram ∧ t.d.ports = (s.d.modGauge p fun g =>
          { g with run := none, last := some u.chan, chan := u.chan, gain := u.gain, t := u.startT
                   floor := BitVec.ofInt 16 floor, excess := BitVec.ofInt 16 (floor - (-1230 + 20))
                   isOver := g.isOver || decide (((g.ctl >>> 8).setWidth 8).toNat < floor - (-1230 + 20)) }).ports)

/-! ### Port registers (chapters 3, 4 and 6) -/

/-- R72, R73, R75, R87, R104, R107, R114: what a write of a receive register of a port that answers does, by an initiator
that may write it; the initiator's access is done. A frequency outside 400 to 960 MHz changes nothing but FREQ_BAD; one
written in a transmission interval waits for its end.
The model's choices in it, and not the spec's rules, are log entries 43 (PORT_RXFREQ during a calibration), 62 (the
row is an access, not an instruction). -/
def Obligations.PortReceiveRegisterWrites : Prop :=
  ∀ (s : State) (i : Initiator) (p : PortId) (v : Word), s.d.portAnswers p →
    (s.d.mayWrite i (portBase p + 0x00) →
      exec (.portRxctlWrite i p v) s = .next (onDevW (fun d =>
        let d := d.modRx p fun x => { x with rxctl := v &&& 0x033F1F0F }
        let d := if (d.ports[p]).txBlock then d else d.femTo p (if v.getLsbD 0 then .rx else .off)
        let d := if v.getLsbD 0 then d else (d.stopFrames p).leaveCombines p
        ((d.serveLanes (regionOfPort p)).gcSlices (regionOfPort p)).answer i .done) s)) ∧
    (s.d.mayWrite i (portBase p + 0x04) →
      let f := (v.setWidth 30).toNat
      ((f < 400000000 ∨ 960000000 < f) → exec (.portRxfreqWrite i p v) s = .next (onDevW (fun d =>
        (d.modRx p fun x => { x with freqBad := true }).answer i .done) s)) ∧
      (400000000 ≤ f → f ≤ 960000000 → (s.d.ports[p]).tx.interval.isSome = true →
        exec (.portRxfreqWrite i p v) s = .next (onDevW (fun d =>
          ((d.modRx p fun x => { x with rxfreq := f }).modSyn p fun x => { x with heldHop := true }).answer i .done) s)) ∧
      (400000000 ≤ f → f ≤ 960000000 → (s.d.ports[p]).tx.interval = none →
        exec (.portRxfreqWrite i p v) s = .next (onDevW (fun d =>
          let d := d.modRx p fun x => { x with rxfreq := f }
          ((((d.retuneRx p).hop p f)).serveCal (regionOfPort p)).answer i .done) s))) ∧
    (s.d.mayWrite i (portBase p + 0x0C) →
      exec (.portRxgainWrite i p v) s = .next (onDevW (fun d =>
        (d.modRx p fun x => { x.setGain d.now (v.toNat % 32) with frozen := true }).answer i .done) s)) ∧
    (s.d.mayWrite i (portBase p + 0x10) →
      exec (.portAgcResume i p v) s = .next (onDevW (fun d => (d.modRx p fun x =>
        { x with frozen := if v.getLsbD 1 then false else x.frozen, held := if v.getLsbD 2 then false else x.held
                 clip := if v.getLsbD 3 then false else x.clip, target := fld v 8 4 }).answer i .done) s)) ∧
    (s.d.mayWrite i (portBase p + 0x1C) → v.getLsbD 0 = true →
      exec (.portCntclr i p v) s = .next (onDevW (fun d =>
        ((d.modRx p fun x => { x with cnt := Vector.replicate 20 0 }).modSb p fun x =>
          { x with cnt := Vector.replicate 6 0 }).answer i .done) s)) ∧
    (∀ w : WatcherId, s.d.mayWrite i (portBase p + 0x1000 + 4 * w.val) →
      (((fld v 1 2 = 2 ∧ w.val % 2 ≠ 0) ∨ (fld v 1 2 = 3 ∧ w.val % 4 ≠ 0)) →
        exec (.portWcfgWrite i p w v) s = .next (onDevW (fun d => ((d.modWatcher p w fun x =>
          { x with cfg := v &&& 0x7F6 }).modRx p fun x => { x with wcfgBad := true }).answer i .done) s)) ∧
      (¬ ((fld v 1 2 = 2 ∧ w.val % 2 ≠ 0) ∨ (fld v 1 2 = 3 ∧ w.val % 4 ≠ 0)) →
        exec (.portWcfgWrite i p w v) s = .next (onDevW (fun d => (d.modWatcher p w fun x =>
          { x with cfg := v &&& 0x7F7 }).answer i .done) s))) ∧
    (s.d.mayWrite i (portBase p + 0x200) → v.getLsbD 8 = true →
      exec (.portPlumbRunnow i p v) s = .next (onDevW (fun d => (d.modRx p fun x =>
        { x with interval := v.toNat % 256, lanes := vmap x.lanes fun l =>
            if l.retired ∨ l.due.isSome then l else { l with due := some s.d.now } }).answer i .done) s)) ∧
    (s.d.mayWrite i (portBase p + 0x3000) → v.getLsbD 1 = true →
      exec (.gaugeRunnow i p v) s = .next (onDevW (fun d =>
        ((d.modGauge p fun g => { g with ctl := v &&& 0x00FFFF01 }).gaugeRun p).answer i .done) s))

/-- R120, R130, R133, R137, R143: what a write of a register of the synthesizer, transmitter, tuner or calibration block
does. A power outside −10 to +14 dBm changes nothing but PWR_BAD; a tuner state written applies at once, freezes the loop,
and advances the phase epoch where it changes the state.
The model's choices in it, and not the spec's rules, are log entry 62 (the row is an access, not an instruction). -/
def Obligations.PortTransmitRegisterWrites : Prop :=
  ∀ (s : State) (i : Initiator) (p : PortId) (v : Word), s.d.portAnswers p →
    (∀ e : Fin 64, s.d.mayWrite i (portBase p + 0x8100 + 8 * e.val) →
      exec (.portBmFreqWrite i p e v) s = .next (onDevW (fun d => (d.modSyn p fun x =>
        { x with bm := x.bm.set e { x.bm[e] with freq := (v.setWidth 30).toNat, valid := false } }).answer i .done) s)) ∧
    (s.d.mayWrite i (portBase p + 0x8010) →
      (v.getLsbD 1 = true → v.getLsbD 0 = false →
        exec (.portBmctlInvall i p v) s = .next (onDevW (fun d => (d.modSyn p fun x =>
          { x with bm := vmap x.bm fun b => { b with valid := false } }).answer i .done) s)) ∧
      (v.getLsbD 1 = false → v.getLsbD 0 = true →
        ((∀ e : Fin 64, ((s.d.ports[p]).syn.bm[e]).valid = true ∨ ((s.d.ports[p]).syn.bm[e]).freq < 400000000 ∨
            960000000 < ((s.d.ports[p]).syn.bm[e]).freq) →
          exec (.portBmctlFill i p v) s = .next (onDevW (fun d => d.answer i .done) s)) ∧
        (∀ es : List (Fin 64), es ≠ [] → es = (List.finRange 64).filter (fun e =>
            !((s.d.ports[p]).syn.bm[e]).valid && decide (400000000 ≤ ((s.d.ports[p]).syn.bm[e]).freq) &&
            decide (((s.d.ports[p]).syn.bm[e]).freq ≤ 960000000)) →
          exec (.portBmctlFill i p v) s = .next (onDevW (fun d =>
            (d.bookEarliest p { release := 0, action := 5, origin := 6, fill := es
                                param := BitVec.ofNat 32 (1 + 2 * es.length) }).1.answer i .done) s)))) ∧
    (s.d.mayWrite i (portBase p + 0x8404) →
      exec (.portTxpwrWrite i p v) s = .next (onDevW (fun d => (d.modTx p fun x =>
        if -20 ≤ (v.setWidth 8).toInt ∧ (v.setWidth 8).toInt ≤ 28 then { x with pwr := v.setWidth 8 }
        else { x with pwrBad := true }).answer i .done) s)) ∧
    (s.d.mayWrite i (portBase p + 0x8414) → v.getLsbD 0 = true →
      exec (.portTxcntclr i p v) s = .next (onDevW (fun d => (d.modTx p fun x =>
        { x with cnt := Vector.replicate 5 0, txtime := 0, onSince := x.onSince.map fun _ => d.now }).answer i .done) s)) ∧
    (s.d.mayWrite i (portBase p + 0x8800) →
      exec (.portTuneWrite i p v) s = .next (onDevW (fun d =>
        let d := d.modTun p fun x => { x with tune := v &&& 0x3FFF, frozen := true, next := none, trial := false }
        (if (s.d.ports[p]).tun.tune = v &&& 0x3FFF then d
         else d.modSyn p fun x => { x with epoch := x.epoch + 1, epochT := s.d.datum.now }).answer i .done) s)) ∧
    (s.d.mayWrite i (portBase p + 0x8804) → v.getLsbD 1 = true →
      exec (.portTuneResume i p v) s = .next (onDevW (fun d => (d.modTun p fun x =>
        { x with ctl := v &&& 0x003F3F00, held := x.held && !v.getLsbD 2, mismatch := x.mismatch && !v.getLsbD 3
                 frozen := false, best := if x.rlTune = some x.tune then x.rl else 0, bestTune := x.tune, next := none
                 trial := false }).answer i .done) s)) ∧
    (s.d.mayWrite i (portBase p + 0x8C00) → v.getLsbD 0 = true →
      exec (.portCalRunnow i p v) s = .next (onDevW (fun d => ((d.modCal p fun x =>
        { x with auto := v.getLsbD 1, wanted := true, blocked := false }).serveCal (regionOfPort p)).answer i .done) s))

/-! ### Stakes, hops and transmission (chapters 4 and 6) -/

/-- R197, R202, R203, R208: BOOK without EARLIEST answers by the checks in their order (RESULT 7 BADPARAM, 5 PAST, 3
CONFLICT, 4 FULL), a refusal counting the stake as late and changing no entry; a stake that passes takes the lowest free
entry, named in SLOT, with RESULT 2, READY unless it is a TX stake. CANCEL frees a BOOKED or READY stake and is refused
with RESULT 8 for any other entry. (No stake of the port is HWCAL, which a software booking would displace, and no port
of the region waits for a calibration.)
The model's choices in it, and not the spec's rules, are log entries 44 and 45 (the order of causes within a check,
and when a booking completes). -/
def Obligations.BookAndCancelAnswerByTheChecks : Prop :=
  ∀ (s : State) (i : Initiator) (p : PortId) (v : Word), s.d.portAnswers p → s.d.mayWrite i (portBase p + 0xF014) →
    v.getLsbD 10 = true → (∀ q ∈ portsOf (regionOfPort p), (s.d.ports[q]).cal.wanted = false) →
    (fld v 8 2 = 1 → v.getLsbD 11 = false → (∀ y ∈ (s.d.ports[p]).sb.used, y.2.origin ≠ 6) →
      ∀ (b : SlotBook) (q : BookReq) (k : Stake), b = (s.d.ports[p]).sb →
        q = b.newReq (s.d.named48 (b.new[0].toNat + (b.new[1].setWidth 16).toNat * 2 ^ 32)) →
        k = (s.d.ports[p]).mkStake q q.release s.d.now →
        (∀ c : Nat,
          ((c = 7 ∧ (s.d.ports[p]).paramOk q = false) ∨
           ((s.d.ports[p]).paramOk q = true ∧
             ((c = 5 ∧ k.deadline < s.d.datum.now.toNat + 200) ∨
              ((s.d.datum.now.toNat : Int) + 200 ≤ k.deadline ∧
                ((c = 3 ∧ ∃ y ∈ b.used, overlap y.2.interval k.interval = true) ∨
                 (c = 4 ∧ (∀ y ∈ b.used, overlap y.2.interval k.interval = false) ∧
                   (∀ x ∈ b.blocked s.d.datum.now.toNat, overlap x k.interval = false) ∧ b.freeSlot = none)))))) →
          exec (.sbBook i p v) s = .next (onDevW (fun d => (d.modSb p fun x =>
            { x with cmdSlot := fld v 0 8, cmdOp := 1, earliest := false, result := c
                     txLate := x.txLate || decide (k.action = 1), late := x.late || decide (k.action ≠ 1)
                     cnt := if k.action = 1 then x.cnt.set SbCnt.txlate.ix (x.cnt[SbCnt.txlate.ix] + 1)
                            else x.cnt.set SbCnt.late.ix (x.cnt[SbCnt.late.ix] + 1) }).answer i .done) s)) ∧
        (∀ n : SlotId, (s.d.ports[p]).paramOk q = true → (s.d.datum.now.toNat : Int) + 200 ≤ k.deadline →
          (∀ y ∈ b.used, overlap y.2.interval k.interval = false) →
          (∀ x ∈ b.blocked s.d.datum.now.toNat, overlap x k.interval = false) →
          b.stakes[n] = none → (∀ m : SlotId, m < n → b.stakes[m] ≠ none) →
          exec (.sbBook i p v) s = .next (onDevW (fun d => (d.modSb p fun x =>
            { x with cmdSlot := n.val, cmdOp := 1, earliest := false, result := 2, stakes := x.stakes.set n (some k)
                     cnt := x.cnt.set SbCnt.booked.ix (x.cnt[SbCnt.booked.ix] + 1) }).answer i .done) s))) ∧
    (fld v 8 2 = 2 → ∀ n : SlotId, n.val = fld v 0 8 →
      ((∀ k, (s.d.ports[p]).sb.stakes[n] = some k → k.state = .armed ∨ k.state = .active) →
        exec (.sbCancel i p v) s = .next (onDevW (fun d => (d.modSb p fun x =>
          { x with cmdSlot := n.val, cmdOp := 2, earliest := v.getLsbD 11, result := 8 }).answer i .done) s)) ∧
      (∀ k, (s.d.ports[p]).sb.stakes[n] = some k → k.state = .booked ∨ k.state = .ready → k.origin ≠ 6 → k.link = none →
        (s.d.ports[p]).tx.interval ≠ some n →
        answers (exec (.sbCancel i p v) s) fun t =>
          (t.d.ports[p]).sb.stakes = (s.d.ports[p]).sb.stakes.set n none ∧ (t.d.ports[p]).sb.result = 2 ∧
          (t.d.ports[p]).tx.buffer = (s.d.ports[p]).tx.buffer.filter (fun b => b.slot ≠ n) ∧ t.ram = s.ram))

/-- R118, R122, R123, R468: a table hop that made no relock ends with LOCK, LASTHOP 1 and the epoch unchanged, a full
calibration with LOCK, LASTHOP 2 and the epoch one further; a relock on wake ends with LASTHOP 3; a failed hop of a port that goes on in service is charged to
it and tried again as a full calibration at the same target, which is no relock on wake. A lock lost sets UNLOCK, advances the epoch, and starts a
relock at the present F unless the datum runs on holdover. (The port's calibration is not valid and no calibration
waits in its region.)
The model's choices in it, and not the spec's rules, are log entries 42 and 43 (hops to the present F, and when
CALVALID clears). -/
def Obligations.HopsLockFailAndRelock : Prop :=
  ∀ (s : State) (p : PortId), (∀ q ∈ portsOf (regionOfPort p), (s.d.ports[q]).cal.wanted = false) →
    (s.d.ports[p]).cal.calvalid = false → (s.d.ports[p]).sb.filling = none →
    (∀ h : Hop, (s.d.ports[p]).syn.hop = some h → (s.d.ports[p]).syn.queued = none →
      (h.kind = .table → h.wake = false → ∀ e, h.entry = some e →
        exec (.hopLock p) s = .next (onDev (fun d => (d.until_ h.endAt).modSyn p fun x =>
          { x with lock := true, hop := none, lasthop := 1, queued := none, useCtr := x.useCtr + 1
                   bm := x.bm.set e { x.bm[e] with used := x.useCtr + 1 } }) s)) ∧
      (h.wake = true →
        answers (exec (.hopLock p) s) fun t => (t.d.ports[p]).syn.lock = true ∧ (t.d.ports[p]).syn.lasthop = 3 ∧
          (t.d.ports[p]).syn.epoch = (s.d.ports[p]).syn.epoch + 1 ∧ t.ram = s.ram) ∧
      (h.kind = .full → h.wake = false →
        answers (exec (.hopLock p) s) fun t =>
          (t.d.ports[p]).syn.lock = true ∧ (t.d.ports[p]).syn.hop = none ∧ (t.d.ports[p]).syn.lasthop = 2 ∧
          (t.d.ports[p]).syn.freq = (s.d.ports[p]).syn.freq ∧
          (t.d.ports[p]).syn.epoch = (s.d.ports[p]).syn.epoch + 1 ∧ (t.d.ports[p]).syn.epochT = t.d.datum.now ∧
          (400000000 ≤ h.target → h.target ≤ 960000000 → (t.d.ports[p]).syn.bmfull = true ∨
            ∃ e : Fin 64, ((t.d.ports[p]).syn.bm[e]).freq = h.target ∧ ((t.d.ports[p]).syn.bm[e]).valid = true ∧
              ((t.d.ports[p]).syn.bm[e]).temp = (s.d.ports[p]).cal.tnow) ∧
          (∀ o : PortId, o ≠ p → t.d.ports[o] = s.d.ports[o]) ∧ t.ram = s.ram) ∧
      (exec (.hopFail p) s = .next (onDevW (fun d =>
        let d := (d.until_ (h.startAt + 2 * (h.kind.settle * 200))).modSyn p fun x =>
          { x with unlock := true, epoch := x.epoch + 1, epochT := (s.d.until_ (h.startAt + 2 * (h.kind.settle * 200))).datum.now
                   bm := match h.kind, h.entry with
                     | .table, some e => x.bm.set e { x.bm[e] with valid := false }
                     | _, _ => x.bm }
        let d := d.charge (.unit (.port p)) 10
        if (d.ports[p]).rx.retired then d
        else
          (((d.beginHop p h.target (.full, match h.kind with | .full => h.entry | .table => none) false)).modSyn p fun x =>
            { x with queued := (d.ports[p]).syn.queued }).serveCal (regionOfPort p)) s))) ∧
    ((s.d.ports[p]).syn.lock = true → (s.d.ports[p]).tx.interval = none →
      answers (exec (.lockLost p) s) fun t =>
        (t.d.ports[p]).syn.lock = false ∧ (t.d.ports[p]).syn.unlock = true ∧
        (t.d.ports[p]).syn.epoch = (s.d.ports[p]).syn.epoch + 1 ∧ (t.d.ports[p]).syn.freq = (s.d.ports[p]).syn.freq ∧
        (t.d.ports[p]).syn.hop.isSome = !s.d.datum.holdover ∧ (t.d.ports[p]).tx = (s.d.ports[p]).tx ∧ t.ram = s.ram)

/-- R136, R137: the steps of a calibration end 2.020, 4.020, 4.040, 5.040 and 5.060 ms after its start, each with what
it finds; a temperature more than 8 degrees from TCAL clears CALVALID, and one within leaves it.
The model's choices in it, and not the spec's rules, are log entries 7 (what a step finds is an operand), 43 (when
CALVALID clears), 84 (the FEMCTL lines return at the end of the tone). -/
def Obligations.CalibrationStepsEndOnTime : Prop :=
  ∀ (s : State) (p : PortId),
    (∀ power : Int, (s.d.ports[p]).cal.step = some .cold → exec (.calNoiseColdEnd p power) s = .next (onDev (fun d =>
      (d.until_ ((s.d.ports[p]).cal.startAt + 2020 * 200)).modCal p fun x => { x with step := some .hot }) s)) ∧
    (∀ nf : Nat, (s.d.ports[p]).cal.step = some .hot → exec (.calNoiseHotEnd p nf) s = .next (onDev (fun d =>
      ((d.until_ ((s.d.ports[p]).cal.startAt + 4020 * 200)).modCal p fun x => { x with step := some .loop }).modGauge p
        fun g => { g with nf := BitVec.ofNat 16 nf, nfOver := g.nfOver || decide (((g.ctl >>> 16).setWidth 8).toNat < nf) }) s)) ∧
    ((s.d.ports[p]).cal.step = some .loop → exec (.calToneStart p) s = .next (onDev (fun d =>
      (d.until_ ((s.d.ports[p]).cal.startAt + 4040 * 200)).modCal p fun x => { x with step := some .tone }) s)) ∧
    (∀ ph gain : BitVec 8, (s.d.ports[p]).cal.step = some .tone → exec (.calToneEnd p ph gain) s = .next (onDev (fun d =>
      ((d.until_ ((s.d.ports[p]).cal.startAt + 5040 * 200)).modCal p fun x =>
        { x with step := some .ending, calph := ph, calgain := gain }).femTo p
          (if (s.d.ports[p]).rx.rxctl.getLsbD 0 then .rx else .off)) s)) ∧
    ((s.d.ports[p]).cal.step = some .ending → exec (.calComplete p) s = .next (onDev (fun d =>
      (d.until_ ((s.d.ports[p]).cal.startAt + 5060 * 200)).modCal p fun x =>
        { x with step := none, calvalid := true, tcal := x.tnow, wanted := false, blocked := false }) s)) ∧
    (∀ temp : Int,
      (temp - (s.d.ports[p]).cal.tcal ≤ 8 → (s.d.ports[p]).cal.tcal - temp ≤ 8 →
        exec (.calTempDrift p temp) s = .next (onDev (fun d => d.modCal p fun x => { x with tnow := temp }) s)) ∧
      (8 < temp - (s.d.ports[p]).cal.tcal ∨ 8 < (s.d.ports[p]).cal.tcal - temp →
        exec (.calTempDrift p temp) s = .next (onDev (fun d => (d.modCal p fun x =>
          if x.calvalid then { x with tnow := temp, calvalid := false, blocked := false, wanted := x.wanted || x.auto }
          else { x with tnow := temp }).serveCal (regionOfPort p)) s)))

/-- R126, R199: the events of a transmission that goes on, at their distances from the release tick: the FEMCTL lines
take TXLVL RAMP + 2 µs + FEMLEAD before, the switch goes to transmit RAMP + 2 µs before, ramp-up starts RAMP before;
frame end counts TXDONE and starts ramp-down; RAMP later the transmitter is off, and with no return hop due the interval
ends 2 µs later, when a retune that waited for it begins; at the end of the stake's own interval its entry is FREE, and a
port whose domain was put to sleep meanwhile sleeps then.
The model's choices in it, and not the spec's rules, are log entry 21 (the FEMCTL level after a transmission). -/
def Obligations.TransmissionRunsItsTimedSequence : Prop :=
  ∀ (s : State) (p : PortId) (n : SlotId) (k : Stake), (s.d.ports[p]).sb.stakes[n] = some k → k.action = 1 →
    (k.state = .armed → k.checked = true → (s.d.ports[p]).tx.interval = some n → (s.d.ports[p]).tx.endAt = none →
      (s.d.ports[p]).tx.rampDown = none →
      ((s.d.ports[p]).tun.next = none →
        exec (.txFemLevels p n) s = .next (onDev (fun d =>
          (d.untilDatum (k.release - ((k.ramp + 2 + k.femlead) * 200 : Nat))).modTx p fun x =>
            if x.fem = .tx then x else { x with fem := .tx, femLevel := BitVec.ofNat 2 (fld x.femctl 2 2) }) s)) ∧
      (∀ w, (s.d.ports[p]).tun.next = some w → (s.d.ports[p]).tun.tune ≠ w →
        answers (exec (.txFemLevels p n) s) fun t =>
          (t.d.ports[p]).tun = { (s.d.ports[p]).tun with next := none, tune := w } ∧
          (t.d.ports[p]).syn.epoch = (s.d.ports[p]).syn.epoch + 1 ∧ (t.d.ports[p]).syn.epochT = t.d.datum.now ∧
          (t.d.ports[p]).cal = (s.d.ports[p]).cal ∧ t.ram = s.ram) ∧
      exec (.txSwitchToTx p n) s = .next (onDev (fun d =>
        (d.untilDatum (k.release - ((k.ramp + 2) * 200 : Nat))).modTx p fun x => { x with toTx := true }) s) ∧
      ((s.d.ports[p]).tx.onSince = none →
        exec (.txRampUp p n) s = .next (onDev (fun d =>
          (d.untilDatum (k.release - (k.ramp * 200 : Nat))).modTx p fun x =>
            { x with onSince := some (s.d.untilDatum (k.release - (k.ramp * 200 : Nat))).now
                     mari := x.mari || k.param.getLsbD 8 }) s))) ∧
    (k.state = .active → (s.d.ports[p]).tx.interval = some n → (s.d.ports[p]).tx.endAt = none →
      ((s.d.ports[p]).tx.rampDown = none →
        exec (.txFrameEnd p n) s = .next (onDev (fun d => (d.until_ (k.firedAt + k.onAir)).modTx p fun x =>
          { x with rampDown := some (s.d.until_ (k.firedAt + k.onAir)).now
                   cnt := x.cnt.set TxCnt.txdone.ix (x.cnt[TxCnt.txdone.ix] + 1) }) s)) ∧
      (∀ x, (s.d.ports[p]).tx.rampDown = some x →
        exec (.txOff p n) s = .next (onDev (fun d =>
          let d := d.until_ (x + (s.d.ports[p]).tx.rampUs * 200)
          ((d.modTx p fun y =>
            { y with onSince := none, rampDown := none, toTx := false, mari := false
                     txtime := y.txtime + BitVec.ofNat 64 (d.now - y.onSince.getD d.now)
                     buffer := y.buffer.filter fun b => b.slot ≠ n }).femTo p
            (if (s.d.ports[p]).rx.rxctl.getLsbD 0 then .rx else .off)).returnHop p) s))) ∧
    (∀ (d : Dev), (d.ports[p]).tx.retHop = false →
      d.returnHop p = d.modTx p fun x => { x with retHop := false, endAt := some (d.now + 400) }) ∧
    (∀ e, (s.d.ports[p]).tx.interval = some n → (s.d.ports[p]).tx.endAt = some e →
      ((s.d.ports[p]).tx.retHop = false ∨ (s.d.ports[p]).syn.hop = none) →
      ((s.d.ports[p]).syn.heldHop = false →
        exec (.txIntervalEnd p n) s = .next (onDev (fun d => (((d.until_ e).modTx p fun x =>
          { x with interval := none, endAt := none, rampDown := none, retHop := false }).modSyn p fun x =>
            { x with heldHop := false }).serveCal (regionOfPort p)) s)) ∧
      ((s.d.ports[p]).syn.heldHop = true →
        exec (.txIntervalEnd p n) s = .next (onDev (fun d => (((((d.until_ e).modTx p fun x =>
          { x with interval := none, endAt := none, rampDown := none, retHop := false }).modSyn p fun x =>
            { x with heldHop := false }).retuneRx p).hop p (s.d.ports[p]).rx.rxfreq).serveCal (regionOfPort p)) s))) ∧
    (k.state = .active → (s.d.ports[p]).tx.interval ≠ some n →
      exec (.stakeIntervalEnd p n) s = .next (onDev (fun d =>
        let d := (d.until_ (k.firedAt + k.span)).modSb p fun x => { x with stakes := x.stakes.set n none }
        (if d.portAsleep p then d.portSleep p else d).serveCal (regionOfPort p)) s))

/-- R125, R199 to R201: a SOFTWARE TX stake is prepared from the packet of its length at the head of its TX queue, or at
once without payload, and becomes READY; a packet of another length ends it late (BADLEN); at its arming deadline
a READY stake is ARMED, a BOOKED one ends late (NOTREADY); the lock check passes at the F of the window; at its release an
armed stake becomes ACTIVE and its action begins; a receive window on an entry ends with the hop back.
The model's choices in it, and not the spec's rules, are log entries 44 and 45 (the order of late causes, and what a
failed stake reserves). -/
def Obligations.StakesArePreparedArmedAndFired : Prop :=
  ∀ (s : State) (p : PortId) (n : SlotId) (k : Stake), (s.d.ports[p]).sb.stakes[n] = some k →
    ((s.d.ports[p]).tx.buffer.length < 2 → s.d.portUp p = true → (s.d.ports[p]).sb.toPrepare.head? = some (n, k) →
      k.link = none →
      let len := fld k.param 0 8
      let q := queueOf (regionOfPort p) (Fin.ofNat 32 (fld k.w2 24 5))
      let air := fun (b : List Byte) =>
        airTicks (fld k.w2 8 3 + 6) (fld k.w2 6 2) (w2Pre k.w2) { stakeHeader k.w2 k.param with len := b.length }
      let ready := fun (d : Dev) (b : List Byte) =>
        (d.setStake p n (some { k with state := .ready, param := setFld k.param 0 8 b.length, onAir := air b })).modTx p
          fun x => { x with buffer := x.buffer ++ [s.d.encodeFrame p n k b] }
      ∀ mm,
        (len = 0 → exec (.framePrepared ⟨p, mm⟩) s = .next (onDevW (fun d => ready d []) s)) ∧
        (∀ ws, len ≠ 0 → s.d.queueUsable q = true → (s.d.queue q).packet = some ws →
          (ws.length = (len + 7) / 8 → exec (.framePrepared ⟨p, mm⟩) s = .next (onDevW (fun d =>
            ready (d.takeWords q ws.length) ((bytesOf64 (ws.map (·.value))).take len)) s)) ∧
          (ws.length ≠ (len + 7) / 8 → exec (.framePrepared ⟨p, mm⟩) s = .next (onDevW (fun d =>
            ((d.takeWords q ws.length).endLate p n k 3).serveCal (regionOfPort p)) s)))) ∧
    (k.state = .ready → (originGrid k.origin = true → s.d.datum.unsynced = false) → s.d.portUp p = true →
      (k.action ≠ 1 → k.action ≠ 2 →
        exec (.stakeArmingDeadline p n) s = .next (onDev (fun d =>
          (d.untilDatum k.deadline).setStake p n (some { k with
            state := .armed, winF := if k.winsel then ((s.d.ports[p]).syn.bm[k.entry]).freq else (s.d.ports[p]).syn.freq })) s)) ∧
      (k.action = 1 → (s.d.ports[p]).tx.ctl.getLsbD 0 = true → k.winsel = false →
        answers (exec (.stakeArmingDeadline p n) s) fun t =>
          (t.d.ports[p]).sb.stakes = (s.d.ports[p]).sb.stakes.set n
            (some { k with state := .armed, winF := (s.d.ports[p]).syn.freq }) ∧
          (t.d.ports[p]).tx = { (s.d.ports[p]).tx with
            interval := some n, endAt := none, rampDown := none, rampUs := k.ramp, retHop := false } ∧
          t.d.rxOn p = false ∧ t.ram = s.ram)) ∧
    (k.state = .booked → k.action = 1 → exec (.stakeArmingDeadline p n) s = .next (onDev (fun d =>
      ((d.untilDatum k.deadline).endLate p n k 0).serveCal (regionOfPort p)) s)) ∧
    (k.state = .armed → k.checked = false → k.action = 1 → (s.d.ports[p]).syn.lock = true →
      (s.d.ports[p]).syn.freq = (if k.winsel then ((s.d.ports[p]).syn.bm[k.entry]).freq else k.winF) →
      exec (.stakeLockCheck p n) s = .next (onDev (fun d =>
        (d.untilDatum (k.release - ((k.ramp + 20) * 200 : Nat))).setStake p n (some { k with checked := true })) s)) ∧
    (k.state = .armed → k.action = 4 → k.link = none →
      exec (.stakeRelease p n) s = .next (onDev (fun d =>
        let d := d.untilDatum k.release
        let d := (d.setStake p n (some { k with state := .active, firedAt := d.now })).countSb p .fired
        let d := d.modTun p fun x => { x with frozen := true, next := none, trial := false }
        d.applyTune p (BitVec.ofNat 32 (fld k.param 0 14))) s)) ∧
    (k.state = .armed → k.action = 1 → k.checked = true → (s.d.ports[p]).tx.interval = some n →
      (s.d.ports[p]).tx.endAt = none → (s.d.ports[p]).tx.rampDown = none → (s.d.ports[p]).tx.onSince.isSome = true →
      k.link = none →
      exec (.stakeRelease p n) s = .next (onDev (fun d =>
        let d := d.untilDatum k.release
        let d := ((d.setStake p n (some { k with state := .active, firedAt := d.now })).countSb p .fired).modTun p fun x =>
          { x with measured := false }
        if k.param.getLsbD 8 then d.countTx p .marijoin else d) s)) ∧
    (k.state = .active → k.action = 2 → k.winsel = true → k.checked = true →
      exec (.rxwinEnd p n) s = .next (onDev (fun d =>
        (((d.until_ (k.firedAt + fld k.param 0 22 * 200)).setStake p n (some { k with checked := false })).retuneRx p).hop p
          (s.d.ports[p]).rx.rxfreq) s))

/-- R132, R133: with its transmission on air and not yet measured, the return loss found 64 µs after full power is RL (63
at most), VALID sets, and MISMATCH sets below RLMIN, whatever the loop does next. A frozen loop only notes HELD where RL
misses RLGOAL; an unfrozen loop with no trial under way keeps the state as BEST when RL reaches RLGOAL. (In these last two
RL is at or above RLMIN, so no producer fires.)
The model's choices in it, and not the spec's rules, are log entry 46 (BEST is the highest return loss kept). -/
def Obligations.ReturnLossIsMeasuredAndKept : Prop :=
  ∀ (s : State) (p : PortId) (n : SlotId) (k : Stake) (rl : Nat), (s.d.ports[p]).tx.interval = some n →
    (s.d.ports[p]).sb.stakes[n] = some k → k.state = .active → (s.d.ports[p]).tx.onSince.isSome = true →
    (s.d.ports[p]).tx.rampDown = none → (s.d.ports[p]).tun.measured = false →
    let x := (s.d.ports[p]).tun
    (answers (exec (.tunerRlMeasured p rl) s) fun t =>
      let y := (t.d.ports[p]).tun
      y.rl = min 63 rl ∧ y.valid = true ∧ y.measured = true ∧ y.tune = x.tune ∧ y.frozen = x.frozen ∧ y.ctl = x.ctl ∧
      y.mismatch = (x.mismatch || decide (min 63 rl < fld x.ctl 8 6)) ∧ t.ram = s.ram ∧
      (∀ o : PortId, o ≠ p → t.d.ports[o] = s.d.ports[o])) ∧
    (rl < 64 → fld x.ctl 8 6 ≤ rl →
      (x.frozen = true →
        exec (.tunerRlMeasured p rl) s = .next (onDev (fun d => (d.until_ (k.firedAt + 64 * 200)).modTun p fun x =>
          { x with rl := rl, rlTune := some x.tune, valid := true, measured := true
                   held := x.held || decide (rl < fld x.ctl 16 6) }) s)) ∧
      (x.frozen = false → x.trial = false → fld x.ctl 16 6 ≤ rl →
        exec (.tunerRlMeasured p rl) s = .next (onDev (fun d => (d.until_ (k.firedAt + 64 * 200)).modTun p fun x =>
          { x with rl := rl, rlTune := some x.tune, valid := true, measured := true
                   best := if x.bestTune = x.tune then max x.best rl else rl, bestTune := x.tune }) s)))

/-! ### The link engine (chapter 5) -/

/-- R161, R162: GO with no operation pending. INSTALL of a context that is not installed, with an address and a LIFE that
R161 allows and no key in the table yet, enters its keys, empties its chain and answers DONE; FIND answers DONE with the
context that the lookup finds, else NOTINST; REMOVE of an installed context with no frame in a link engine takes its keys
out, ends its packets and answers DONE, with one in flight it stays PENDING. Each walk counts towards LONGEST.
The model's choices in it, and not the spec's rules, are log entries 47 (when a clash is found), 53 (what a REMOVE
waits for). -/
def Obligations.ContextOperationsAnswer : Prop :=
  ∀ (s : State) (i : Initiator) (r : RegionId) (v : Word), s.d.pageAnswers r 2 → s.d.mayWrite i (regionPage r 2 + 0x8020) →
    v.getLsbD 15 = true → ((s.d.regions[r]).link.op).status ≠ 1 →
    let n : CtxId := Fin.ofNat 4096 (v.toNat % 4096)
    let o : CtxOp := { (s.d.regions[r]).link.op with index := v.toNat % 4096, op := fld v 12 2, short := v.getLsbD 14 }
    (fld v 12 2 = 1 → s.d.installed n = false → s.d.laddr n ≠ 0 → s.d.laddr n ≠ 0xFFFFFFFF → s.d.life n ≠ 0 →
      (∀ k ∈ s.d.keysOf n, s.d.find k.1 k.2 = none) →
      answers (exec (.ctxopInstall i r v) s) fun t =>
        (t.d.regions[r]).link.op = { o with status := 2 } ∧ t.d.installed n = true ∧
        t.d.cl.table = ((s.d.keysOf n).map fun k =>
          { short := k.1, addr := BitVec.ofNat 32 k.2, ctx := n : HashEntry }).reverse ++ s.d.cl.table ∧
        t.d.packets n = [] ∧ t.d.bus[i] = .done ∧ t.ram = s.ram) ∧
    (fld v 12 2 = 1 → s.d.installed n = true →
      exec (.ctxopInstall i r v) s = .next (onDevW (fun d =>
        (d.modLink r fun l => { l with op := { o with status := 6 } }).answer i .done) s)) ∧
    (fld v 12 2 = 2 →
      (s.d.installed n = false → exec (.ctxopRemove i r v) s = .next (onDevW (fun d =>
        (d.modLink r fun l => { l with op := { o with status := 5 } }).answer i .done) s)) ∧
      (s.d.installed n = true → s.d.inFlight n = true → exec (.ctxopRemove i r v) s = .next (onDevW (fun d =>
        ({ d.modLink r (fun l => { l with op := { o with status := 1 } }) with
            cl := { d.cl with removing := d.cl.removing ++ [(n, some r)] } }).answer i .done) s)) ∧
      (s.d.installed n = true → s.d.inFlight n = false →
        answers (exec (.ctxopRemove i r v) s) fun t =>
          (t.d.regions[r]).link.op = { o with status := 2 } ∧ t.d.installed n = false ∧ t.d.packets n = [] ∧
          t.d.cl.table = s.d.cl.table.filter (fun e => e.ctx ≠ n) ∧ t.d.bus[i] = .done ∧ t.ram = s.ram)) ∧
    (fld v 12 2 = 3 →
      let a := if v.getLsbD 14 then o.key.toNat % 65536 else o.key.toNat
      (∀ m : CtxId, s.d.find (v.getLsbD 14) a = some m → exec (.ctxopFind i r v) s = .next (onDevW (fun d =>
        (d.modLink r fun l => { l with op := { o with index := m.val, status := 2 }
                                       longest := max l.longest (min (d.lookup (v.getLsbD 14) a).2 255) }).answer i .done) s)) ∧
      (s.d.find (v.getLsbD 14) a = none → exec (.ctxopFind i r v) s = .next (onDevW (fun d =>
        (d.modLink r fun l => { l with op := { o with status := 5 }
                                       longest := max l.longest (min (d.lookup (v.getLsbD 14) a).2 255) }).answer i .done) s)))

/-- R161 to R163, R180, R181, R469: the end of a REMOVE that waited; CNTCLR zeroes the region's link counters; 0xFFFFFFFF
is no anchor address; a read of LINK_HASHSTAT clears LONGEST; a word written to context memory is what it holds then, but
offset 0x3C of an installed context takes none.
The model's choices in it, and not the spec's rules, are log entries 53 (what a REMOVE waits for), 62 (the rows are
accesses). -/
def Obligations.LinkRegistersAndContextWords : Prop :=
  ∀ (s : State),
    (∀ (n : CtxId) (r : RegionId), s.d.cl.removing.find? (fun x => x.1 = n) = some (n, some r) → s.d.inFlight n = false →
      answers (exec (.ctxopRemoveDone n) s) fun t =>
        ((t.d.regions[r]).link.op).status = (if s.d.installed n then 2 else 5) ∧ t.d.installed n = false ∧
        (s.d.installed n = true → t.d.packets n = []) ∧
        t.d.cl.removing = s.d.cl.removing.erase (n, some r) ∧ t.ram = s.ram) ∧
    (∀ (i : Initiator) (r : RegionId) (v : Word), s.d.pageAnswers r 2 →
      (s.d.mayWrite i (regionPage r 2 + 0x802C) → v.getLsbD 0 = true →
        exec (.linkCntclr i r v) s = .next (onDevW (fun d =>
          (d.modLink r fun l => { l with cnt := Vector.replicate 21 0 }).answer i .done) s)) ∧
      (s.d.mayWrite i (regionPage r 2 + 0x8004) →
        exec (.linkAnchoridWrite i r v) s = .next (onDevW (fun d =>
          ({ d with cl := { d.cl with anchor := if v = 0xFFFFFFFF then d.cl.anchor else v } }).answer i .done) s)) ∧
      (s.d.mayRead i (regionPage r 2 + 0x8028) →
        exec (.linkHashstatRead i r) s = .next (onDevW (fun d =>
          (d.modLink r fun l => { l with longest := 0 }).answer i (.data (pack
            [(0, (d.cl.table.map (·.ctx)).eraseDups.length), (16, (d.regions[r]).link.longest),
             (24, ((List.finRange 16).filter fun j => ((d.regions[r]).link.hold[j]).isSome).length)]))) s))) ∧
    (∀ (i : Initiator) (n : CtxId) (w : Fin 16) (v : Word), s.d.mayWrite i (0x30000000 + 64 * n.val + 4 * w.val) →
      (w ≠ 15 ∨ s.d.installed n = false →
        exec (.contextWordWrite i n w v) s = .next (onDevW (fun d =>
          ({ d with errs := d.errs.filter (fun x => decide (x.1 < 0x30000000 + (64 * n.val + 4 * w.val)) ||
                      decide (0x30000000 + (64 * n.val + 4 * w.val) + 4 ≤ x.1))
                    cl := { d.cl with ctx := memWrite 0 d.cl.ctx (64 * n.val + 4 * w.val) (natBytes 4 v.toNat) } }).answer i
            .done) s)) ∧
      (w = 15 → s.d.installed n = true →
        exec (.contextWordWrite i n w v) s = .next (onDevW (fun d => d.answer i .done) s)))

/-- R165 to R172, R174: the link engine takes the frame that has waited longest. One that does not parse is MALFORMED, one
relayed too deep RELAYDEEP, one whose address no context has is a miss; a frame of a context that is not ACTIVE counts
STATE, an FCNT beyond MAXGAP counts GAP; one to verify takes a pipe pair: a tag that does not verify is a tag failure, a
data frame with a good tag is accepted with the FCNT of R166 and its plain payload. A frame released from hold by its
INSTALL goes on from the state check. A hold that ends unreleased is counted in MISSEXPIRED and its slot is free.
The model's choices in it, and not the spec's rules, are log entries 47, 48 and 52 (the order of link work at the
pipes). -/
def Obligations.UplinksAreCheckedInOrder : Prop :=
  ∀ (s : State) (r : RegionId),
    (∀ (w : UpWork) (l : List UpWork), (s.d.regions[r]).retired = false → (s.d.regions[r]).link.work = w :: l →
      let f := w.frame
      let ex := fun (mm : List Mismatch) (g : Dev → Dev) => exec (.linkUplink r mm) s = .next (onDevW g s)
      let take := fun (d : Dev) (k : Nat) => (d.modLink r fun x => { x with work := l }).noteWalk (some r) k
      let checks := fun (h : LinkHdr) (n : CtxId) (k : Nat) =>
        (s.d.life n ≠ 2 → ¬ (s.d.life n = 1 ∧ h.type = 4) → ∀ mm, ex mm fun d => (take d k).countLink r .state) ∧
        (h.type ≠ 4 → s.d.life n = 2 →
          (extendFcnt (s.d.fcntup n) h.fcnt (s.d.regions[r]).link.maxgap = .gap →
            ∀ mm, ex mm fun d => (take d k).countLink r .gap) ∧
          (∀ c, extendFcnt (s.d.fcntup n) h.fcnt (s.d.regions[r]).link.maxgap = .ok c →
            (h.size + 8 + 231 < f.bytes.length → ∀ mm, ex mm fun d => (take d k).countLink r .cipherlen) ∧
            (f.bytes.length ≤ h.size + 8 + 231 → ∀ d1 pair key, s.begun.d.linkPair r = (d1, some pair) →
              let d2 := take d1 k
              d2.keys.keyOf (2 * d2.keyPair n + 1) 0 = .ok key →
              let out := ccmDec key (nonceOf (d2.laddr n) c false d2.cl.anchor) (additional f.bytes h)
                (slice f.bytes h.size (f.bytes.length - h.size - 8)) (f.bytes.drop (f.bytes.length - 8))
              (∀ b, out = some b → ex [] fun _ => d2.acceptData r n w h c b) ∧
              (out = none → ex [] fun _ => d2.tagFailed r n f))))
      (w.resumed = none →
        (parseUplink f.bytes f.crcp ((s.d.regions[r]).link.cfg.getLsbD 1) = none →
          ∀ mm, ex mm fun d => (take d 0).countLink r .malformed) ∧
        (∀ h, parseUplink f.bytes f.crcp ((s.d.regions[r]).link.cfg.getLsbD 1) = some h →
          (h.relay = true → 1 < h.hops → ∀ mm, ex mm fun d => (take d 0).countLink r .relaydeep) ∧
          ((h.relay = false ∨ h.hops ≤ 1) →
            (s.d.find h.short h.addr = none →
              ∀ mm, ex mm fun d => (take d (s.d.lookup h.short h.addr).2).miss r f h) ∧
            (∀ n : CtxId, s.d.find h.short h.addr = some n → checks h n (s.d.lookup h.short h.addr).2)))) ∧
      (∀ n at_ h, w.resumed = some (n, at_) → parseUplink f.bytes true true = some h → checks h n 0)) ∧
    (∀ (j : Fin 16) (x : Held), (s.d.regions[r]).link.hold[j] = some x →
      exec (.missHoldExpired r j) s = .next (onDev (fun d =>
        ((d.until_ x.until_).modLink r fun y => { y with hold := y.hold.set j none }).countLink r .missexpired) s))

/-- R166: with U the counter of the context and f the 24 bits on air, the FCNT of a frame is the least value above U whose
low 24 bits are f; the same low bits as U's are a duplicate; more than 2^MAXGAP above U is a gap, and so is a value above
0xFFFFFFFF. The frame that the link engine takes of an ACTIVE context counts as a gap by this, and is verified under the
nonce of this FCNT when it passes. -/
def Obligations.FcntIsTheNextWithTheseLowBits : Prop :=
  (∀ (u f g : Nat), u < 2 ^ 32 → f < 2 ^ 24 →
    (f = u % 2 ^ 24 → extendFcnt u f g = .dup) ∧
    (f ≠ u % 2 ^ 24 → ∀ c, extendFcnt u f g = .ok c →
      u < c ∧ c < 2 ^ 32 ∧ c % 2 ^ 24 = f ∧ c - u ≤ 2 ^ g ∧ ∀ x, u < x → x % 2 ^ 24 = f → c ≤ x) ∧
    (f ≠ u % 2 ^ 24 → (∀ c, extendFcnt u f g ≠ .ok c) → ∀ x, u < x → x % 2 ^ 24 = f → 2 ^ 32 ≤ x ∨ 2 ^ g < x - u) ∧
    (u = 2 ^ 32 - 1 → ∀ c, extendFcnt u f g ≠ .ok c)) ∧
  (∀ (s : State) (r : RegionId) (w : UpWork) (l : List UpWork) (h : LinkHdr) (n : CtxId),
    (s.d.regions[r]).retired = false → (s.d.regions[r]).link.work = w :: l → w.resumed = none →
    let f := w.frame
    let take := fun (d : Dev) =>
      (d.modLink r fun x => { x with work := l }).noteWalk (some r) (s.d.lookup h.short h.addr).2
    parseUplink f.bytes f.crcp ((s.d.regions[r]).link.cfg.getLsbD 1) = some h → (h.relay = false ∨ h.hops ≤ 1) →
    s.d.find h.short h.addr = some n → h.type ≠ 4 → s.d.life n = 2 →
    (extendFcnt (s.d.fcntup n) h.fcnt (s.d.regions[r]).link.maxgap = .gap →
      exec (.linkUplink r []) s = .next (onDevW (fun d => (take d).countLink r .gap) s)) ∧
    (∀ c d1 pair key b, extendFcnt (s.d.fcntup n) h.fcnt (s.d.regions[r]).link.maxgap = .ok c →
      f.bytes.length ≤ h.size + 8 + 231 → s.begun.d.linkPair r = (d1, some pair) →
      (take d1).keys.keyOf (2 * (take d1).keyPair n + 1) 0 = .ok key →
      ccmDec key (nonceOf ((take d1).laddr n) c false (take d1).cl.anchor) (additional f.bytes h)
        (slice f.bytes h.size (f.bytes.length - h.size - 8)) (f.bytes.drop (f.bytes.length - 8)) = some b →
      exec (.linkUplink r []) s = .next (onDevW (fun _ => (take d1).acceptData r n w h c b) s)))

/-- R175, R177 to R179: the first whole packet of DNINQ ends NOANCHOR with no anchor address, BADPKT with an unknown kind,
NOTINST for a context that is not installed, FULL beyond DNMAX, and is else appended to its chain, where a JOIN_ACC is tried
at once; a beacon or a broadcast that fits and names a port is booked there, with its lifetime. A lifetime that ends before
the release drops its packet as EXPIRED, of a chain the earliest, of a broadcast its stake; a chain has moved at the end of
its move; a scheduled window of a node with a chain is requested at its first instant that can still be staked.
The model's choices in it, and not the spec's rules, are log entries 49, 50 and 51 (the moments and RESULT codes of
packets, and when a window is requested), 85 (how a broadcast that is cut or expires ends). -/
def Obligations.DownlinkPacketsAreQueuedAndExpire : Prop :=
  ∀ s : State, (∀ (r : RegionId) (q : QueueId) (ws : List QWord),
    q = queueOf r (Fin.ofNat 32 (fld (s.d.regions[r]).link.qsel 8 5)) → s.d.queueUsable q = true →
    (s.d.queue q).packet = some ws →
    let b := ws.map (·.value)
    let w0 := b.headD 0
    let n : CtxId := Fin.ofNat 4096 (fld64 w0 0 12)
    let ex := fun (g : Dev → Dev) =>
      exec (.downlinkPacket r) s = .next (onDevW (fun d => g (d.takeWords q ws.length)) s)
    (s.d.cl.anchor = 0 → ex fun d => d.refusePacket r w0 11) ∧
    (s.d.cl.anchor ≠ 0 →
      (5 ≤ fld64 w0 12 3 → ex fun d => d.refusePacket r w0 9) ∧
      (fld64 w0 12 3 ≤ 2 → s.d.installed n = false → ex fun d => d.refusePacket r w0 5) ∧
      (fld64 w0 12 3 ≤ 2 → s.d.installed n = true → s.d.dnmax r ≤ (s.d.packets n).length →
        ex fun d => (d.refusePacket r w0 4).countLink r .dnfull) ∧
      (fld64 w0 12 3 ≤ 2 → s.d.installed n = true → (s.d.packets n).length < s.d.dnmax r → ex fun d =>
        let c := (d.chain n).getD { ctx := n, region := regionOfPort (d.homeport n), packets := [], moveEnd := none }
        let p : DnPacket := { id := d.cl.packets, kind := fld64 w0 12 3, ackreq := w0.getLsbD 15
                              tag := BitVec.ofNat 24 (fld64 w0 40 24)
                              payload := padTo (fld64 w0 16 8) (bytesOf64 (b.drop 1))
                              expires := if fld64 w0 24 16 = 0 then none else some (d.now + fld64 w0 24 16 * secTicks)
                              sent := 0, fcnt := none }
        let d := ({ d with cl := { d.cl with packets := d.cl.packets + 1 } }).putChain { c with packets := c.packets ++ [p] }
        if fld64 w0 12 3 = 2 then d.tryJoin n else d) ∧
      (3 ≤ fld64 w0 12 3 → fld64 w0 12 3 ≤ 4 →
        let len := (if fld64 w0 12 3 = 3 then 8 else 6) + fld64 w0 16 8 + 8
        let port := fld64 (b.getD 1 0) 48 5
        (255 < len → ex fun d => d.refusePacket r w0 6) ∧
        (len ≤ 255 → 24 ≤ port → ex fun d => d.refusePacket r w0 10) ∧
        (len ≤ 255 → port < 24 → ex fun d =>
          let lt : LinkTx := { ctx := none, type := if fld64 w0 12 3 = 3 then 3 else 7, ackOf := none
                               packet := some (BitVec.ofNat 24 (fld64 w0 40 24))
                               payload := padTo (fld64 w0 16 8) (bytesOf64 (b.drop 3)), used := none
                               home := Fin.ofNat 24 port, region := r, expires := d.lifeEnd w0 }
          let m : DnMode := { mode := { k := fld64 (b.getD 2 0) 0 3 + 6, bw := fld64 (b.getD 1 0) 59 2
                                        chan := fld64 (b.getD 1 0) 53 6 }
                              rate := fld64 (b.getD 2 0) 3 2, robust := false, pre := min 63 (fld64 (b.getD 2 0) 5 8) }
          let t := d.named48 (fld64 (b.getD 1 0) 0 48)
          let rel := if fld64 w0 12 3 = 3 then ceilSecond t else t
          (d.book (Fin.ofNat 24 port) (linkReq rel (if fld64 w0 12 3 = 3 then 4 else 5) len m lt false 0 none) rel).1)))) ∧
    (∀ (m : CtxId) (p : DnPacket) (e : Nat), p ∈ s.d.packets m → p.expires = some e →
      (∀ q ∈ s.d.packets m, q ≠ p → ∀ x, q.expires = some x → e < x) →
      exec (.downlinkExpired (.chain m)) s = .next (onDev (fun d =>
        let d := d.until_ e
        ((d.endPacket m p 2).countLink (d.chainRegion m) .dnexpired).refreshWait m) s)) ∧
    (∀ (p : PortId) (n : SlotId) (k : Stake) (lt : LinkTx) (e : Nat), s.d.stake p n = some k → k.link = some lt →
      lt.expires = some e → k.state ≠ .active →
      exec (.downlinkExpired (.broadcast p n)) s = .next (onDev (fun d =>
        let d := (d.until_ e).standDown p n k 10
        ((d.dnStatus lt.region (match lt.packet with | some t => t.toNat | none => 0) 0 2 0).countLink lt.region
          .dnexpired).serveCal (regionOfPort p)) s)) ∧
    (∀ (m : CtxId) (c : Chain) (e : Nat), s.d.chain m = some c → c.moveEnd = some e →
      exec (.chainMoveEnd m) s = .next (onDev (fun d =>
        (d.until_ e).putChain { c with region := regionOfPort (d.homeport m), moveEnd := none }) s)) ∧
    (∀ m : CtxId, s.d.ctxN m 0x1A 2 ≠ 0 → s.d.installed m = true → (s.d.chainHead m).isSome = true →
      s.d.cl.anchor ≠ 0 → s.d.schedBooked m = false →
      let home := s.d.homeport m
      let t := s.d.schedAt m ((s.d.datum.now.toNat : Int) + usTicks + us (s.d.txPrep home))
      exec (.schedWindowDue m) s = .next (onDev (fun d => d.requestWindow (regionOfPort home) m t 3
        { mode := { k := d.ctxN m 0x19 1 % 8 + 6, bw := d.ctxN m 0x18 1 / 64, chan := d.ctxN m 0x18 1 % 64 }
          rate := d.ctxN m 0x19 1 / 8 % 4, robust := (d.ctxN m 0x19 1).testBit 5
          pre := d.dnpre (regionOfPort home) } none) s))

/-! ### The datum (chapter 6) -/

/-- R184, R186, R187, R190, R193, R207: what an access of a datum register does. A read of DATUM_NOW_LO latches the whole
datum for its reader; a trim outside ±100000 changes nothing but TRIM_BAD, one that moves by 1000 or less disturbs no
port; a write of PPSCTL that sets EN restarts the capture, one that clears it ends the lock; STEPGO adds DATUM_STEP now, or
with STEPATPPS at the next PPS; a step that waits keeps its value; DECLARE clears UNSYNCED.
The model's choices in it, and not the spec's rules, are log entries 54 (trim in holdover), 62 (the rows are
accesses). -/
def Obligations.DatumRegisterAccesses : Prop :=
  ∀ (s : State) (i : Initiator) (v : Word),
    (s.d.mayRead i (chipPage 3 + 0x8000) → exec (.datumNowRead i) s = .next (onDevW (fun d =>
      (d.modLatch i fun l => { l with datum := d.datum.now }).answer i (.data (d.datum.now.setWidth 32))) s)) ∧
    (s.d.mayWrite i (chipPage 3 + 0x8010) →
      ((v.toInt < -100000 ∨ 100000 < v.toInt) → exec (.datumTrimWrite i v) s = .next (onDevW (fun d =>
        ({ d with datum := { d.datum with trimBad := true } }).answer i .done) s)) ∧
      (-100000 ≤ v.toInt → v.toInt ≤ 100000 → -1000 ≤ v.toInt - s.d.datum.trim → v.toInt - s.d.datum.trim ≤ 1000 →
        exec (.datumTrimWrite i v) s = .next (onDevW (fun d =>
          ({ d with datum := { d.datum with trim := v.toInt } }).answer i .done) s)) ∧
      (-100000 ≤ v.toInt → v.toInt ≤ 100000 → s.d.datum.onHoldover = false →
        (1000 < v.toInt - s.d.datum.trim ∨ v.toInt - s.d.datum.trim < -1000) →
        exec (.datumTrimWrite i v) s = .next (onDevW (fun d =>
          let d := { d with datum := { d.datum with trim := v.toInt } }
          ((allPorts.foldl (fun (d : Dev) p => (d.unlockPort p).relockUnlocked p) d).serveCals).answer i .done) s))) ∧
    (s.d.mayWrite i (chipPage 3 + 0x8034) →
      (v.getLsbD 0 = true → (s.d.datum.pps.ctl.getLsbD 0 = false ∨ s.d.datum.pps.ctl.getLsbD 1 ≠ v.getLsbD 1) →
        exec (.datumPpsctlWrite i v) s = .next (onDevW (fun d => ({ d with datum := { d.datum with pps := { d.datum.pps with
          ctl := v &&& 0xFFFFFF03, lastEdge := none, since := some d.now, good := 0, bad := 0 } } }).answer i .done) s)) ∧
      (v.getLsbD 0 = false →
        exec (.datumPpsctlWrite i v) s = .next (onDevW (fun d => ({ d with datum := { d.datum with ppslock := false, pps :=
          { d.datum.pps with ctl := v &&& 0xFFFFFF03, lastEdge := none, since := none, good := 0, bad := 0, lostAt := none
                             lostLong := false } } }).answer i .done) s))) ∧
    (s.d.mayWrite i (chipPage 3 + 0x8008) →
      (v.getLsbD 0 = false → v.getLsbD 1 = true → v.getLsbD 2 = false → s.d.datum.pend = none →
        exec (.datumStepgo i v) s = .next (onDevW (fun d =>
          (({ d with datum := { d.datum with stepAtPps := false, pend := some d.datum.step } }).applyStep d.datum.step).answer i
            .done) s)) ∧
      (v.getLsbD 0 = false → v.getLsbD 1 = true → v.getLsbD 2 = true → s.d.datum.pend = none →
        exec (.datumStepgo i v) s = .next (onDevW (fun d =>
          ({ d with datum := { d.datum with stepAtPps := true, pend := some d.datum.step } }).answer i .done) s)) ∧
      (v.getLsbD 0 = true → v.getLsbD 1 = false → s.d.datum.pend = none →
        exec (.datumDeclare i v) s = .next (onDevW (fun d =>
          (({ d with datum := { d.datum with stepAtPps := v.getLsbD 2 } }).setUnsynced false).answer i .done) s)))

/-- R190, R193: at a step the next tick carries the datum's value plus 1 plus the step; the value before stays in
DATUM_STEPT and the step is counted (no stake is booked and no calibration waits); every change of UNSYNCED sets the
cause SYNCCHG.
The model's choices in it, and not the spec's rules, are log entry 1 (the step takes one tick). -/
def Obligations.StepsAndSyncChanges : Prop :=
  ∀ (d : Dev) (w : Word64),
    ((∀ (p : PortId) (n : SlotId), (d.ports[p]).sb.stakes[n] = none) → (∀ p : PortId, (d.ports[p]).cal.wanted = false) →
      (d.applyStep w).datum.now = d.datum.now + 1 + w ∧ (d.applyStep w).datum.stepT = d.datum.now ∧
      (d.applyStep w).datum.pend = none ∧ (d.applyStep w).datum.steps = d.datum.steps + 1 ∧
      (d.applyStep w).now = d.now + 1 ∧ (d.applyStep w).trk.cause.getLsbD 13 = true) ∧
    (∀ b, (d.setUnsynced b).datum.unsynced = b ∧ (d.datum.unsynced ≠ b → (d.setUnsynced b).trk.cause.getLsbD 14 = true) ∧
      (d.datum.unsynced = b → d.setUnsynced b = d))

/-- R183, R187, R188, R193: a window without a valid REFIN, or an edge lost, starts holdover, sets REF_LOST and UNSYNCED
and unlocks every port; a valid window gives the frequency and ends a holdover. A PPS edge of the polarity chosen, the
first or one second ± 1 ms after the last, is stamped DLY before its tick and counted towards the lock; another sets
PPS_GLITCH; 220 000 000 ticks without one set PPS_LOST and clear PPSLOCK; HOLDOVER seconds later UNSYNCED sets.
The model's choices in it, and not the spec's rules, are log entries 54 and 55 (epochs when REFIN is lost, PPS_LOST
before the first edge, and oscillators at their nominal rate). -/
def Obligations.ReferenceAndPpsAreJudged : Prop :=
  ∀ s : State,
    (s.d.datum.holdover = false →
      (∀ c, c = Instr.refinEdgeLoss ∨ c = .refinWindowEnd .invalid →
        exec c s = .next (onDev (fun d =>
          ((allPorts.foldl (fun (d : Dev) p => d.unlockPort p)
            ({ d with datum := { d.datum with refLost := true, holdover := true, seeded := false, reff := 0 } })).setUnsynced
              true).serveCals) s)) ∧
      (∀ f, exec (.refinWindowEnd (.valid f)) s = .next (onDev (fun d =>
        { d with datum := { d.datum with reff := f.val, holdover := false, seeded := false } }) s))) ∧
    (s.d.datum.holdover = true → ∀ f, exec (.refinWindowEnd (.valid f)) s = .next (onDev (fun d =>
      (allPorts.foldl (fun (d : Dev) p => d.returnPort p)
        { d with datum := { d.datum with reff := f.val, holdover := false, seeded := false } }).serveCals) s)) ∧
    (∀ falling : Bool, s.d.datum.pps.ctl.getLsbD 0 = true → s.d.datum.pps.ctl.getLsbD 1 = falling → s.d.datumCounts = true →
      (∀ e, s.d.datum.pps.lastEdge = some e → (s.d.now < e + 199800000 ∨ e + 200200000 < s.d.now) →
        exec (.ppsEdge falling) s = .next (onDev (fun d => { d with datum := { d.datum with ppsGlitch := true } }) s)) ∧
      ((∀ e, s.d.datum.pps.lastEdge = some e → e + 199800000 ≤ s.d.now ∧ s.d.now ≤ e + 200200000) → s.d.datum.pend = none →
        exec (.ppsEdge falling) s = .next (onDev (fun d =>
          let x := d.datum.now - d.datum.pps.dly.signExtend 64
          let d := { d with datum := ({ d.datum with pps := { d.datum.pps with
            t := x, err := ppsErr x, lastEdge := some d.now, lostAt := none, lostLong := false } } : Datum).judgeLock (ppsErr x) }
          (if d.datum.ppslock && !s.d.datum.ppslock then d.setUnsynced false else d).fire [⟨0x40, 0⟩]) s))) ∧
    (∀ e, s.d.datum.pps.countFrom = some e → s.d.datum.pps.ctl.getLsbD 0 = true →
      exec .ppsLost s = .next (onDev (fun d =>
        let d := d.until_ (e + 220000000)
        { d with datum := { d.datum with ppsLost := true, ppslock := false, pps := { d.datum.pps with
            good := 0, bad := 0, lastEdge := none, since := none, lostAt := some d.now, lostLong := false } } }) s)) ∧
    (∀ e, s.d.datum.pps.lostAt = some e → fld s.d.datum.pps.ctl 16 16 ≠ 0 → s.d.datum.pps.lostLong = false →
      exec .ppsHoldoverExpired s = .next (onDev (fun d =>
        let d := d.until_ (e + fld d.datum.pps.ctl 16 16 * 200000000)
        ({ d with datum := { d.datum with pps := { d.datum.pps with lostLong := true } } }).setUnsynced true) s))

/-! ### Cipher blocks, keys, hash, OTP, attestation, debug (chapter 7) -/

/-- R211, R214 to R216: GO of a channel with no operation pending makes it wait with a copy of its registers, whichever
operation its command names. A grant with no link work waiting gives the channel whose turn it is the next free pair of
the rotation, and the key of its slot as it is then, or the status with which a slot gives none.
The model's choices in it, and not the spec's rules, are log entry 52 (link work goes before firmware at the pipes). -/
def Obligations.CipherRequestsAreGranted : Prop :=
  ∀ (s : State) (r : RegionId),
    (∀ (i : Initiator) (n : Fin 2) (v : Word) (c : Instr), s.d.pageAnswers r 2 →
      s.d.mayWrite i (regionPage r 2 + 0x40 * n.val + 0x20) → v.getLsbD 3 = true → fld v 0 3 ≠ 0 →
      ((s.d.regions[r]).cipher.chans[n]).status ≠ 1 →
      c ∈ [Instr.ciphCcmEnc i r n v, .ciphCcmDec i r n v, .ciphCmacGen i r n v, .ciphCmacVer i r n v, .ciphDerive i r n v,
           .ciphKeyload i r n v, .ciphKeysave i r n v] →
      exec c s = .next (onDevW (fun d => (d.modChan r n fun x =>
        { x with regs := { x.regs with op := fld v 0 3 }, status := 1, ended := false
                 stage := .waiting { x.regs with op := fld v 0 3 } }).answer i .done) s)) ∧
    (∀ (n : Fin 2) (g : CiphRegs) (p : Fin 6), (s.d.regions[r]).retired = false →
      (s.d.regions[r]).link.work = [] → (s.d.regions[r]).cipher.waiter = some (n, g) →
      (s.d.regions[r]).cipher.nextPair = some p →
      let runs := fun (key : Option (List Byte)) (bad : Option Nat) =>
        exec (.cipherGrant r) s = .next (onDev (fun d => d.modCiph r fun c =>
          { c with rot := Fin.ofNat 6 (p.val + 1), turn := 1 - n, share := 0, chans := c.chans.set n { c.chans[n] with
              stage := .running { regs := g, key, bad, saved := if g.op = 7 then s.d.keys.slotOf (fld g.key 16 13) else none
                                  pair := pairAt p, since := s.d.now } } }) s)
      (∀ key, g.keyAt s.d.keys = .ok key → runs (some key) none) ∧
      (∀ e, g.keyAt s.d.keys = .error e → runs none (some e)))

/-- R154, R211 to R218, R237, R329: an operation whose addresses lie outside SRAM ends BADADDR, one with a length outside
R154 CIPHER_LEN, one whose slot gave no key NOKEY or ROLE. Two results that differ and a retry that differs again end it
FAULT; else each operation ends as its OP says: CCM and CMAC generation and KEYSAVE write their output and are DONE, an
authentication or an unwrap that fails is AUTHFAIL and writes nothing, a DERIVE or a KEYLOAD waits for the commit of its slot.
The model's choices in it, and not the spec's rules, are log entries 56 (the order of the status codes), 82 (a source word
that cannot be read is BADADDR). -/
def Obligations.CipherOperationsEnd : Prop :=
  ∀ (s : State) (r : RegionId) (n : Fin 2) (u : CiphRun), ((s.d.regions[r]).cipher.chans[n]).stage = .running u →
    let g := u.regs
    let a := fld g.len 8 5
    let p := fld g.len 0 8
    let nonce := (bytesOf32 g.nonce.toList).take 13
    let ends := fun (mm : List Mismatch) (d : Dev) (st : Nat) =>
      exec (.cipherOpEnd r n mm) s = .next (finish { s.begun with d := d.cipherEnd r n st })
    let inSram := sramOk r g.src.toNat g.srcLen = true ∧ sramOk r g.dst.toNat u.dstLen = true
    (∀ mm, ¬ inSram → ends mm s.begun.d 8) ∧
    (inSram →
      (∀ mm, g.lenOk = false → ends mm s.begun.d 4) ∧
      (g.lenOk = true →
        (∀ mm e, u.key = none → u.bad = some e → ends mm s.begun.d e) ∧
        (∀ key mm, u.key = some key →
          let rd := if g.srcLen = 0 then (s.begun.d, StrRd.data []) else s.begun.d.strRead s.ram g.src.toNat g.srcLen
          (∀ d, rd = (d, .error) → ends mm d 8) ∧
          (∀ d e src, rd = (d, .data src) →
            (Dev.mismatches r u.pair.1 u.pair.2 mm d = (e, false) → ends mm e 7) ∧
            (Dev.mismatches r u.pair.1 u.pair.2 mm d = (e, true) →
              let out := fun (st : Nat) (b : List Byte) =>
                exec (.cipherOpEnd r n mm) s = .next (finish (cipherOutput r n u st b { s.begun with d := e }))
              let commits := fun (k : KeySlot) => exec (.cipherOpEnd r n mm) s = .next (finish { s.begun with
                d := { e.modChan r n (fun c => { c with stage := .committing k.slot }) with
                  keys := { e.keys with commits := e.keys.commits ++ [(.cipher r n, .put k)] } } })
              (g.op = 1 → out 2 (ccmEnc key nonce (src.take a) (slice src a p))) ∧
              (g.op = 2 →
                (∀ t, ccmDec key nonce (src.take a) (slice src a p) (slice src (a + p) 8) = some t → out 2 t) ∧
                (ccmDec key nonce (src.take a) (slice src a p) (slice src (a + p) 8) = none → out 3 [])) ∧
              (g.op = 3 → out 2 (cmacTag key src)) ∧
              (g.op = 4 →
                (cmacTag key (src.take (a + p)) = slice src (a + p) 8 → out 2 []) ∧
                (cmacTag key (src.take (a + p)) ≠ slice src (a + p) 8 → out 3 [])) ∧
              (g.op = 5 → commits { slot := fld g.key 16 13, key := deriveS key src, role := 0, export_ := true }) ∧
              (g.op = 6 →
                (∀ k, (kwUnwrap key src).bind (unwrapSlot (fld g.key 16 13)) = some k → commits k) ∧
                ((kwUnwrap key src).bind (unwrapSlot (fld g.key 16 13)) = none → out 3 [])) ∧
              (g.op = 7 → ∀ k, u.saved = some k → out 2 (kwWrap key (wrapHeader k ++ k.key)))))))) ∧
    (∀ (t v : State) (st : Nat) (b : List Byte), t.sramWrite g.dst.toNat b = (v, .done) →
      cipherOutput r n u st b t = { v with d := v.d.cipherEnd r n st })

/-- R150 to R154, R213: what CCM encryption gives decrypts to what it was given, and its tag verifies, for every key,
nonce, additional data and payload. -/
def Obligations.CcmDecryptionUndoesEncryption : Prop :=
  ∀ (key nonce a p : List Byte), (key.length = 16 ∨ key.length = 32) → nonce.length = 13 → p.length < 65536 →
    let c := ccmEnc key nonce a p
    c.length = p.length + 8 ∧ ccmDec key nonce a (c.take p.length) (c.drop p.length) = some p

/-- R217, R219, R221: a plain key operation by a core in machine mode, with none pending, waits for its commit; a plain
load of a reserved role ends at once and clears KEY_LOAD. A commit that reads back takes effect, is counted, and ends its
operation; one that does not leaves the store as it was.
The model's choices in it, and not the spec's rules, are log entry 57 (the order of security answers). -/
def Obligations.KeyStoreWritesCommit : Prop :=
  ∀ s : State,
    (∀ (i : Initiator) (v : Word) (c : Instr), s.d.mayWrite i (chipPage 6 + 0x1020) → s.d.machineCore i = true →
      s.d.keys.status ≠ 1 → v.getLsbD 19 = true → c ∈ [Instr.keyLoadplain i v, .keyErase i v, .keyEraseall i v] →
      (fld v 17 2 = 1 → fld v 14 2 ≤ 1 → exec c s = .next (onDevW (fun d => ({ d with keys := { d.keys with
        ctl := v &&& 0x7FFFF, status := 1, commits := d.keys.commits ++ [(Committer.keyPage, KeyWrite.put
          { slot := fld v 0 13, key := (bytesOf32 d.keys.load.toList).take (if v.getLsbD 13 then 32 else 16)
            role := fld v 14 2, export_ := v.getLsbD 16 })] } }).answer i .done) s)) ∧
      (fld v 17 2 = 1 → 2 ≤ fld v 14 2 → exec c s = .next (onDevW (fun d => ({ d with keys := { d.keys with
        ctl := v &&& 0x7FFFF, status := 3, load := Vector.replicate 8 0 } }).answer i .done) s)) ∧
      (fld v 17 2 = 2 → exec c s = .next (onDevW (fun d => ({ d with keys := { d.keys with
        ctl := v &&& 0x7FFFF, status := 1, commits := d.keys.commits ++ [(Committer.keyPage, KeyWrite.erase (fld v 0 13))] } }).answer i
          .done) s)) ∧
      (fld v 17 2 = 3 → exec c s = .next (onDevW (fun d => ({ d with keys := { d.keys with
        ctl := v &&& 0x7FFFF, status := 1, commits := d.keys.commits ++ [(Committer.keyPage, KeyWrite.eraseAll)] } }).answer i .done) s))) ∧
    (∀ (w : KeyWrite) (l : List (Committer × KeyWrite)),
      (s.d.keys.commits = (.keyPage, w) :: l →
        exec (.keyCommitDone true) s = .next (onDev (fun d => { d with keys := { d.keys.apply w with
          commits := l, status := 2, load := Vector.replicate 8 0 } }) s) ∧
        exec (.keyCommitDone false) s = .next (onDev (fun d => { d with keys := { d.keys with
          commits := l, status := 4, load := Vector.replicate 8 0 } }) s)) ∧
      (∀ (r : RegionId) (n : Fin 2), s.d.keys.commits = (.cipher r n, w) :: l →
        exec (.keyCommitDone true) s = .next (onDev (fun d =>
          ({ d with keys := { d.keys.apply w with commits := l } }).cipherEnd r n 2) s)))

/-- R222, R224, R225, R329, R343: GO of the hash engine, with no operation pending: at an engine that another user has, the
operation waits; at a free one it runs, and reads its operands: SHA256 of a message gives its digest; LMS_VERIFY gives VALID
or INVALID by the key that KEYSEL names, REVOKED where that key is absent or revoked, BADADDR where message or signature is
no memory's or cannot be read; the answer stands once the operation has ended, and the engine goes on with the next user.
The model's choices in it, and not the spec's rules, are log entries 57 (the order of security answers), 82 (a read with a
bus error is BADADDR). -/
def Obligations.HashOperationsAnswer : Prop :=
  (∀ (s : State) (i : Initiator) (v : Word) (c : Instr), s.d.mayWrite i (chipPage 6 + 0x8) → s.d.hash.status ≠ 1 →
    v.getLsbD 2 = true → (c = .hashSha256 i v ∧ fld v 0 2 = 1) ∨ (c = .hashLmsVerify i v ∧ fld v 0 2 = 2) →
    let h := s.d.hash
    let j : HashJob := { op := fld v 0 2, keysel := fld v 8 2, src := h.src, len := h.len.toNat, sig := h.sig, pub := h.pub }
    let asked := fun (d : Dev) => { d with hash := { d.hash with
      op := fld v 0 2, keysel := fld v 8 2, status := 1, ended := false, job := some j, result := none } }
    (s.d.eng.user = some .att →
      exec c s = .next (onDevW (fun d => (asked d).answer i .done) s)) ∧
    (s.d.eng.user = none → s.d.att.run = none → s.d.eng.tokens = [] →
      ∀ d o, ({ asked s.begun.d with eng := { s.d.eng with user := some .hash } } : Dev).hashRun s.ram j = (d, some o) →
        exec c s = .next (onDevW (fun _ => ({ d with hash := { d.hash with result := some o } }).answer i .done) s))) ∧
  (∀ (d : Dev) (ram : Memory) (j : HashJob),
    (∀ e m, d.strRead ram j.src.toNat j.len = (e, .data m) →
      (j.op = 1 → d.hashRun ram j = (e, some (2, sha256 m))) ∧
      (j.op = 2 → j.keysel ≠ 3 →
        (∀ x sg k, e.strRead ram j.sig.toNat 2668 = (x, .data sg) → d.otp.usable j.keysel = some k → x.otp = d.otp →
          d.hashRun ram j = (x, some (if lmsVerify k sg m then 2 else 3, []))) ∧
        (∀ x, e.strRead ram j.sig.toNat 2668 = (x, .outside) → (d.otp.usable j.keysel).isSome = true →
          d.hashRun ram j = (x, some (4, [])))) ∧
      (j.op = 2 → j.keysel = 3 → ∀ x sg y k, e.strRead ram j.sig.toNat 2668 = (x, .data sg) →
        x.strRead ram j.pub.toNat 56 = (y, .data k) →
        d.hashRun ram j = (y, some (if lmsVerify k sg m then 2 else 3, [])))) ∧
    (j.op = 2 → j.keysel ≠ 3 → d.otp.usable j.keysel = none → d.hashRun ram j = (d, some (5, []))) ∧
    (j.op = 1 → ∀ e, (d.strRead ram j.src.toNat j.len = (e, .outside) ∨ d.strRead ram j.src.toNat j.len = (e, .error)) →
      d.hashRun ram j = (e, some (4, [])))) ∧
  (∀ (s : State) st dg, s.d.eng.user = some .hash → s.d.hash.result = some (st, dg) →
    exec .hashDone s = .next (onDevW (fun d => (({ d with hash := { d.hash with
      status := st, job := none, result := none, ended := true
      digest := if dg = [] then d.hash.digest else Vector.ofFn fun i => (wordsOf 8 dg).getD i.val 0 } }).engFree .hash).engGo
        s.ram) s))

/-- R222, R223: an OTP operation is refused DENIED when R223 does, with no other effect; one that is not runs, a PROGKEY
with the 56 bytes read at GO. A key programmed and read back provisions the module and sets the OTP cause; a key revoked and
ROOTOK cleared stay so; an operation that fails sets no cause, and a PROGKEY that fails leaves a field that does not check.
GO while an operation runs is ignored.
The model's choices in it, and not the spec's rules, are log entry 57 (the order of security answers). -/
def Obligations.OtpOperationsAreOneWay : Prop :=
  ∀ s : State,
    (∀ (i : Initiator) (v : Word) (c : Instr), s.d.mayWrite i (chipPage 6 + 0x2004) → s.d.machineCore i = true →
      v.getLsbD 3 = true → fld v 0 2 ≠ 0 → c ∈ [Instr.otpProgkey i v, .otpRevoke i v, .otpClearrootok i v] →
      let sel : Fin 2 := Fin.ofNat 2 (fld v 2 1)
      let set := fun (o : Otp) => { o with op := fld v 0 2, sel := fld v 2 1 }
      let put := fun (f : Otp → Otp) =>
        exec c s = .next (onDevW (fun d => ({ d with otp := f (set d.otp) }).answer i .done) s)
      (s.d.otp.run.isSome = true → put id) ∧
      (s.d.otp.run = none →
        (s.d.otp.denied (fld v 0 2) sel = true → put fun o => { o with status := 3 }) ∧
        (s.d.otp.denied (fld v 0 2) sel = false →
          (fld v 0 2 ≠ 1 → put fun o => { o with status := 1, run := some (fld v 0 2, sel), taken := none }) ∧
          (fld v 0 2 = 1 → ∀ d k,
            let o : Otp := { s.d.otp with op := 1, sel := fld v 2 1, status := 1, run := some (1, sel), taken := none }
            ({ s.begun.d with otp := o } : Dev).strRead s.ram s.d.otp.src.toNat 56 = (d, .data k) →
            exec c s = .next (onDevW (fun _ => ({ d with otp := { d.otp with taken := some k } }).answer i .done) s))))) ∧
    (∀ sel : Fin 2,
      let ends := fun (ok : Bool) (g : Dev → Dev) => exec (.otpOperationEnd ok) s = .next (onDevW g s)
      let ended := fun (o : Otp) (status : Nat) => { o with run := none, taken := none, status }
      (∀ k, s.d.otp.run = some (1, sel) → s.d.otp.taken = some k →
        (ends true fun d => ({ d with otp := { ended d.otp 2 with cust := d.otp.cust.set sel (some (k, true)), provisioned := true } }
          ).secCause 3) ∧
        (ends false fun d => { d with otp := { ended d.otp 4 with cust := d.otp.cust.set sel (some (k, false)) } })) ∧
      (s.d.otp.run = some (2, sel) →
        (ends true fun d => ({ d with otp := { ended d.otp 2 with rev := d.otp.rev.set sel true } }).secCause 3) ∧
        (ends false fun d => { d with otp := ended d.otp 4 })) ∧
      (s.d.otp.run = some (3, sel) →
        (ends true fun d => ({ d with otp := { ended d.otp 2 with rootok := false } }).secCause 3) ∧
        (ends false fun d => { d with otp := ended d.otp 4 })))

/-- R225 to R230: a request is refused KEYLOST, SPENT, TOOSOON or BADADDR in that order, the first two with the ATTLOST
cause; else it takes the next index, which is consumed at once, and waits for the engine. The signature that the engine ends
is the two-level LMS signature of R226 with that index over the report; both stand at the destination, and the engine goes on
with the next user.
The model's choices in it, and not the spec's rules, are log entries 58 (the order of refusals), 82 (a challenge that
cannot be read is BADADDR). -/
def Obligations.AttestationConsumesAnIndex : Prop :=
  ∀ s : State,
    (∀ (i : Initiator) (v : Word), s.d.mayWrite i (chipPage 6 + 0x3000) → v.getLsbD 0 = true → s.d.att.run = none →
      let early := s.d.pwr.phase ≠ .up ∨ s.d.rtc.count < s.d.att.last + 16 * 65536
      let addr := inChipSram s.d.att.src.toNat 32 && inChipSram s.d.att.dst.toNat 5332
      let ends := fun (st : Nat) (cause : Bool) => exec (.attRequest i v) s = .next (onDevW (fun d =>
        let d := { d with att := { d.att with status := st } }
        ((if cause then d.secCause 5 else d).engGo s.ram).answer i .done) s)
      (s.d.att.lost = true → ends 5 true) ∧
      (s.d.att.lost = false → 33554432 ≤ s.d.att.c → ends 4 true) ∧
      (s.d.att.lost = false → s.d.att.c < 33554432 → early → ends 3 false) ∧
      (s.d.att.lost = false → s.d.att.c < 33554432 → ¬ early → addr = false → ends 6 false) ∧
      (s.d.att.lost = false → s.d.att.c < 33554432 → ¬ early → addr = true →
        ∀ d ch, s.begun.d.strRead s.ram s.d.att.src.toNat 32 = (d, .data ch) → d.att = s.d.att → d.rtc = s.d.rtc →
          exec (.attRequest i v) s = .next (onDevW (fun _ =>
            let d := { d with att := { d.att with c := s.d.att.c + 1, last := s.d.rtc.count, status := 1
                                                  run := some { from_ := .regs s.d.att.src s.d.att.dst, challenge := ch
                                                                q := s.d.att.c } } }
            ((if 33554432 ≤ s.d.att.c + 1 then d.secCause 5 else d).engGo s.ram).answer i .done) s))) ∧
    (∀ u src dst, s.d.eng.user = some .att → s.d.att.run = some u → u.from_ = .regs src dst →
      let rep := s.d.report u.challenge u.q
      let x := ({ s.begun with d := { s.begun.d with att := { s.d.att with run := none } } } : State).sramWrite dst.toNat
        (rep ++ hssSign s.d.drv.attSeed u.q rep)
      exec .attSigned s = .next (finish (canNext { x.1 with d := (({ x.1.d with att := { x.1.d.att with
        status := if x.2 = Wr.done then 2 else 6 } }).engFree .att).engGo x.1.ram }))) ∧
    (∀ (seed msg : List Byte) (q : Nat), let low := lowTree (q / 1024)
      hssSign seed q msg = [0#8, 0, 0, 1] ++ topTree.sign seed (q / 1024) (low.pub seed) ++ low.pub seed ++
        low.sign seed (q % 1024) msg)

/-- R225, R234 to R236: a token is accepted only with the module's serial number, the present challenge and a valid
signature under a permitted key; an accepted one opens its scope, each draws a fresh challenge; at an engine that has other
work it waits. GETCHAL shifts the challenge out. While debug is locked, an instruction on a core is as BYPASS; IDCODE acts
always, SAMPLE shifts out the levels of the balls and loads the boundary register, EXTEST drives the balls with it; the fall
of TESTEN in reset begins the start that it kept back.
The model's choices in it, and not the spec's rules, are log entries 10 (IDCODE, and which ball a cell stands at), 79
(unlocked test-mode instructions are refused). -/
def Obligations.DebugOpensByToken : Prop :=
  ∀ s : State,
    let idle := s.d.eng.user = none ∧ s.d.eng.tokens = [] ∧ s.d.att.run = none ∧ s.d.hash.job = none
    let checked := fun (d : Dev) (ok : Bool) =>
      let x := { d.dbg with status := if ok then 2 else 3, chal := d.freeCtr }
      let x := if ok then { x with unlocked := true } else x
      (({ d with dbg := x, eng := { d.eng with user := none, last := .token, tokens := [] } } : Dev).secCause
        (if ok then 1 else 2)).took
    (∀ t : List Byte,
      (idle → s.d.tokenOk t = true → exec (.jtagToken t) s = .next (onDevW (fun d => checked { d with dbg := { d.dbg with
        extest := false, scope := d.dbg.scope ||| (byteAt t 2).toNat % 4 } } true) s)) ∧
      (idle → s.d.tokenOk t = false → exec (.jtagToken t) s = .next (onDevW (fun d => checked { d with dbg := { d.dbg with
        extest := false } } false) s)) ∧
      (s.d.eng.user = some .att → exec (.jtagToken t) s = .next (onDevW (fun d => { d with
        dbg := { d.dbg with extest := false, status := 1 }, eng := { d.eng with tokens := d.eng.tokens ++ [.bytes t] } }) s))) ∧
    (∀ (i : Initiator) (v : Word), s.d.mayWrite i (chipPage 6 + 0x4014) → v.getLsbD 0 = true →
      exec (.dbgTokenSubmit i v) s = .next (onDevW (fun d => (d.tokenGo s.ram (.at_ s.d.dbg.src)).answer i .done) s)) ∧
    exec .jtagGetchal s = .next (onDev (fun d => { d with dbg := { d.dbg with
      jtagOut := d.challenge, extest := false } }) s) ∧
    exec (.jtagInstruction .idcode) s = .next (onDev (fun d => { d with dbg := { d.dbg with
      jtagOut := natBytes 4 Config.idcode.toNat, extest := false } }) s) ∧
    (∀ l, exec (.jtagInstruction (.sample l)) s = .next (onDev (fun d => { d with dbg := { d.dbg with
        jtagOut := d.scanned, boundary := l, extest := false } }) s) ∧
      exec (.jtagInstruction (.extest l)) s = .next (onDev (fun d => { d with dbg := { d.dbg with
        boundary := l, extest := true } }) s)) ∧
    (∀ c : CoreId, s.d.dbg.locked = true → s.d.dbg.scope = 0 →
      exec (.jtagInstruction (.halt c)) s = .next (onDev (fun d => { d with dbg := { d.dbg with
        jtagOut := [0], extest := false } }) s)) ∧
    (∀ c : CoreId, s.d.debugged c = true →
      exec (.jtagInstruction (.halt c)) s = .next (onDevW (fun d =>
        ({ d with dbg := { d.dbg with extest := false } }).modCore c fun x => { x with halted := true }) s)) ∧
    (∀ high : Bool, s.d.pwr.now ≠ .reset →
      exec (.testenChange high) s = .next (onDev (fun d => { d with dbg := { d.dbg with testen := high } }) s)) ∧
    (s.d.pwr.now = .reset → s.d.dbg.testen = true →
      exec (.testenChange false) s = .next (onDev (fun d =>
        ({ d with dbg := { d.dbg with testen := false } }).freshRtc.beginStart 1) s))

/-- R237, R238: the window's end counts from zero again; the AUTHFAIL that reaches THRESH sets AUTH, once in a window.
The model's choices in it, and not the spec's rules, are log entry 57 (saturation). -/
def Obligations.AuthFailuresAreCountedByWindow : Prop :=
  (∀ s : State, s.d.sec.winStart ≤ s.d.datumSec → s.d.datumSec < s.d.sec.winStart + s.d.sec.window →
    s.d.datum.now.toNat + s.d.sec.window * 200000000 < 2 ^ 64 → s.d.datumCounts = true →
    answers (exec .secAuthWindowEnd s) fun t =>
      t.d.sec.cnt = 0 ∧ t.d.sec.hit = false ∧ t.d.sec.winStart = s.d.sec.winStart + s.d.sec.window ∧
      t.d.sec.stat = s.d.sec.stat ∧ t.d.datum.now.toNat = (s.d.sec.winStart + s.d.sec.window) * 200000000 ∧ t.ram = s.ram) ∧
  (∀ d : Dev, d.sec.winStart ≤ d.datumSec → d.datumSec < d.sec.winStart + d.sec.window →
    d.countAuth.sec.cnt = min 65535 (d.sec.cnt + 1) ∧
    (d.sec.hit = false → max 1 (fld d.sec.authctl 0 16) ≤ d.sec.cnt + 1 →
      d.countAuth.sec.stat = d.sec.stat ||| 1 ∧ d.countAuth.sec.hit = true) ∧
    (d.sec.hit = true ∨ d.sec.cnt + 1 < max 1 (fld d.sec.authctl 0 16) → d.countAuth.sec.stat = d.sec.stat))

/-! ### The trunk (chapter 8) -/

/-- R243, R249: a signal on an enabled link takes it from DOWN to ALIGN; the IDLE characters take it to UP, once no
ingress unit is held, and the host gets 128 units; a link that leaves UP drops what it has not admitted, gives its units
back, sets LINKDOWN and counts it; what it has admitted stays.
The model's choices in it, and not the spec's rules, are log entry 61 (what stands ready when a link leaves UP). -/
def Obligations.TrunkLinkStates : Prop :=
  ∀ (s : State) (l : LinkId), s.d.trk.ctl.getLsbD l.val = true → (s.d.pwr.now = .on ∨ s.d.pwr.now = .nap) →
    ((s.d.links[l]).state = 0 → exec (.trunkSignalPresent l) s = .next (onDev (fun d =>
      d.modTrunk l fun k => { k with state := 1 }) s)) ∧
    ((s.d.links[l]).state = 1 → (s.d.links[l]).freein = 128 →
      exec (.trunkUp l) s = .next (onDev (fun d => d.modTrunk l fun k =>
        { k with state := 2, sent := [0xDC#8, 128#8] :: k.sent }) s)) ∧
    ((s.d.links[l]).state = 1 → (s.d.links[l]).freein ≠ 128 → exec (.trunkUp l) s = .next (onDev id s)) ∧
    ((s.d.links[l]).state = 2 → exec (.trunkDown l) s = .next (onDev (fun d => d.modTrunk l fun k =>
      { k with state := 0, linkdown := true, waiting := []
               freein := min 128 (k.freein + (k.waiting.map fun r => r.units).foldl (· + ·) 0)
               cnt := k.cnt.set TrkCnt.linkdown.ix (k.cnt[TrkCnt.linkdown.ix] + 1) }) s))

/-- R245, R248, R249, R252: on a link that is UP, a frame without its units free counts OVERRUN and is dropped; a frame with a
code error or of more than 4199 characters counts CODEERR, one with a wrong CRC CRCERR, one with a TAG above 31 or a new
request on a tag in use MALFORMED, and each is dropped; one whose length is not what its header says is answered BADLEN and a
retry of an expired tag STALE, at once or, where no reply space is free, when there is; a retry of a tag in use is ignored; a
retry of a retained tag gets the kept reply; another request takes its units and waits for admission, its tag as it was. The
host gets the units of a frame that is not kept back with a CREDIT set, but for one that overran.
The model's choices in it, and not the spec's rules, are log entry 59 (the units of dropped frames, short frames, waiting
tags). -/
def Obligations.TrunkFramesAreChecked : Prop :=
  ∀ (s : State) (l : LinkId) (b : List Byte), (s.d.links[l]).state = 2 →
    let k := s.d.links[l]
    let body := b.take (b.length - 4)
    let good := b.length < 4200 ∧ 4 ≤ b.length ∧ bytesNat (b.drop (b.length - 4)) = (crc32 body).toNat
    let r := frameReq b
    let makes := fun (e : Bool) (f : Dev → Dev) => exec (.trunkFrameRx l b e) s = .next (onDev f s)
    let back := fun (f : Dev → Dev) (d : Dev) => (f d).trkSend l [0xDC#8, BitVec.ofNat 8 r.units]
    let count := fun (c : TrkCnt) (d : Dev) => d.countTrk l c
    let answered := fun (f : Dev → Dev) (status : Nat) =>
      (k.resv + 1 ≤ 1024 + k.back r → makes false fun d => ((f d).trkRefuse l r status 0).trkSend l [0xDC#8, BitVec.ofNat 8 r.units]) ∧
      (1024 + k.back r < k.resv + 1 → makes false fun d => (f d).modTrunk l fun k =>
        { k with freein := k.freein - r.units, waiting := k.waiting ++ [{ r with answer := some status, resv := 1 }] })
    let fits := ∀ m, reqDataLen r.opc r.len r.param = some m → b.length = 16 + m
    (∀ e, (e = true ∨ 4200 ≤ b.length) → makes e (back (count .codeerr))) ∧
    (b.length < 4200 → ¬ good → makes false (back (count .crcerr))) ∧
    (good → k.freein < r.units → makes false (count .overrun)) ∧
    (good → r.units ≤ k.freein →
      ((32 ≤ (byteAt b 0).toNat ∨ (r.flags.testBit 0 = false ∧ k.active r.tag = true)) → makes false (back (count .malformed))) ∧
      ((byteAt b 0).toNat < 32 → (r.flags.testBit 0 = true ∨ k.active r.tag = false) →
        ((b.length < 16 ∨ ¬ fits) → answered id 2) ∧
        (16 ≤ b.length → fits →
          (r.flags.testBit 0 = true → k.active r.tag = true → makes false (back id)) ∧
          (k.active r.tag = false →
            (r.flags.testBit 0 = true → (k.tags[r.tag]).st = .retained →
              makes false (back fun d => (d.trkReply l r.tag).countTrk l .resend)) ∧
            (r.flags.testBit 0 = true → (k.tags[r.tag]).st = .expired → answered (count .stale) 9) ∧
            ((r.flags.testBit 0 = false ∨ (k.tags[r.tag]).st = .idle) → makes false fun d => d.modTrunk l fun k =>
              { k with freein := k.freein - r.units, waiting := k.waiting ++ [r] })))))

/-- R250, R252, R263: the request that can reserve its reply is admitted and its tag becomes ACTIVE; an opcode or a flag
that does not exist is answered BADOPC, and a frame that waits for a STATUS alone gets it. Where none can reserve, nothing is
admitted. A RELEASE set frees a retained tag, and the end of its retention makes it EXPIRED.
Firmware sets attention causes of its own bits; CNTCLR zeroes the counters of the links it names.
The model's choices in it, and not the spec's rules, are log entry 59 (unknown opcodes). -/
def Obligations.TrunkAdmissionAndTags : Prop :=
  ∀ (s : State) (l : LinkId),
    ((s.d.links[l]).nextAdmit = none → exec (.trunkAdmit l) s = .next (onDev id s)) ∧
    (∀ r e, (s.d.links[l]).nextAdmit = some r → r.answer = some e → exec (.trunkAdmit l) s = .next (onDev (fun d =>
      Dev.trkRefuse (d.modTrunk l fun k => { k with waiting := k.waiting.erase r }) l r e r.units) s)) ∧
    (∀ r, (s.d.links[l]).nextAdmit = some r → r.answer = none →
      let takeIn := fun (d : Dev) (q : List TrunkReq) =>
        (({ d with trk := { d.trk with admits := d.trk.admits + 1 } }).modTrunk l fun k =>
          { k with waiting := k.waiting.erase r, tags := k.tags.set r.tag { st := .active, opc := r.opc, resv := r.resv }
                   admitted := k.admitted ++ q }).countTrk l .req
      (r.opc < 8 → r.flags < 8 → exec (.trunkAdmit l) s = .next (onDev (fun d =>
        takeIn d [{ r with seq := d.trk.admits, at_ := d.now }]) s)) ∧
      ((8 ≤ r.opc ∨ 8 ≤ r.flags) → exec (.trunkAdmit l) s = .next (onDev (fun d => (takeIn d []).trkDone l r 1 0 []) s))) ∧
    (∀ t : Fin 32, ((s.d.links[l]).tags[t]).st = .retained →
      ((s.d.links[l]).state = 2 → exec (.trunkRelease l (BitVec.ofNat 8 t.val)) s = .next (onDev (fun d =>
        d.modTrunk l fun k => { k with tags := k.tags.set t {} }) s)) ∧
      exec (.trunkRetainExpired l t) s = .next (onDev (fun d =>
        (d.until_ ((s.d.links[l]).tags[t]).expires).modTrunk l fun k => { k with tags := k.tags.set t { st := .expired } }) s)) ∧
    (∀ (i : Initiator) (v : Word),
      (s.d.mayWrite i (chipPage 7 + 0x28) → exec (.trkAttnsetWrite i v) s = .next (onDevW (fun d =>
        ({ d with trk := { d.trk with cause := d.trk.cause ||| (v &&& 0xFFFF0000) } }).answer i .done) s)) ∧
      (s.d.mayWrite i (chipPage 7 + 0x30) → v.getLsbD 0 = true → v.getLsbD 1 = true →
        exec (.trkCntclr i v) s = .next (onDevW (fun d => (((d.modTrunk 0 fun k => { k with cnt := Vector.replicate 9 0 }
          ).modTrunk 1 fun k => { k with cnt := Vector.replicate 9 0 })).answer i .done) s)))

/-- R253, R254, R259: the request at the front of a link. A PING with zero fields answers OK with the state's code, one
with another field BADLEN; a MEMRD or MEMWR before RUN is NOTREADY; one refused by length, alignment, window or access list
answers BADLEN, BADADDR or DENIED without an access; any other makes its accesses word by word in rising order: one word read
or written answers with what the bus gives, and a held one keeps the request in progress, its reply not yet produced.
The model's choices in it, and not the spec's rules, are log entry 60 (NOTREADY before the range checks). -/
def Obligations.TrunkMemoryRequests : Prop :=
  ∀ (s : State) (l : LinkId) (r : TrunkReq) (u : List BitErr),
    let d0 := s.begun.d.popReq l
    let s0 : State := { s.begun with d := d0 }
    let reply := fun (st aux : Nat) (b : List Byte) (t : State) =>
      (Host.Outcome.next · : State → Host.Outcome State Fault Refusal) (finish { t with d := t.d.trkDone l r st aux b })
    (s.d.frontReq l (fun r => r.opc = 0) = some r →
      (r.addr = 0 → r.len = 0 → r.param = 0 → exec (.trunkPing l) s = reply 0 d0.stateCode [] s0) ∧
      ((r.addr ≠ 0 ∨ r.len ≠ 0 ∨ r.param ≠ 0) → exec (.trunkPing l) s = reply 2 0 [] s0)) ∧
    (∀ (c : Instr) (k : Nat), ((c = .trunkMemrd ⟨l, u⟩ ∧ k = 1) ∨ (c = .trunkMemwr l ∧ k = 2)) →
      s.d.frontReq l (fun r => r.opc = k) = some r →
      (∀ j, s.d.pwr.phase = .starting j → exec c s = reply 10 0 [] s0) ∧
      (s.d.pwr.phase = .up → ∀ e, d0.memRefusal r = some e → exec c s = reply e 0 [] s0)) ∧
    (s.d.pwr.phase = .up → d0.memRefusal r = none →
      (s.d.frontReq l (fun r => r.opc = 1) = some r →
        exec (.trunkMemrd ⟨l, u⟩) s = .next (finish (memRead_ l r (r.len / 4) 0 [] (s0.upset u)))) ∧
      (s.d.frontReq l (fun r => r.opc = 2) = some r →
        exec (.trunkMemwr l) s = .next (finish (memWrite_ l r (r.len / 4) 0 s0)))) ∧
    (∀ (t x : State) (k : Nat) (out : List Byte) (n : Nat),
      let read := (trunkAt l r k out t).busRead (initOfLink l) (r.addr.toNat + 4 * k) 4 false
      let write := (trunkAt l r k [] t).busWrite (initOfLink l) (r.addr.toNat + 4 * k) 4
        (BitVec.ofNat 32 (bytesNat (slice r.data (4 * k) 4)))
      (∀ w, read = (x, .data w) → memRead_ l r 1 k out t = trunkOver l r 0 (out ++ natBytes 4 w.toNat) x) ∧
      (∀ w, read = (x, .data w) → memRead_ l r (n + 1) k out t = memRead_ l r n (k + 1) (out ++ natBytes 4 w.toNat) x) ∧
      (read = (x, .error) → memRead_ l r (n + 1) k out t = trunkOver l r 5 out x) ∧
      (read = (x, .held) → memRead_ l r (n + 1) k out t = x) ∧
      (write = (x, .done) → memWrite_ l r 1 k t = trunkOver l r 0 (natBytes 2 (k + 1)) x) ∧
      (write = (x, .done) → memWrite_ l r (n + 1) k t = memWrite_ l r n (k + 1) x) ∧
      (write = (x, .error) → memWrite_ l r (n + 1) k t = trunkOver l r 5 (natBytes 2 k) x) ∧
      (write = (x, .held) → memWrite_ l r (n + 1) k t = x))

/-- R251, R255, R256: a QRD that is not refused takes what the queue holds, up to LEN; a QWR with space is written whole
and answered OK, without space it parks for QWAIT, or is FULL at once with QWAIT 0; it resumes when space has come and is
FULL at its end, and BADQ where the queue can no longer be used. An SREAD on a queue with a packet is served as a QRD of a packet, else it parks, is served when one comes,
and answers TIMEOUT at its end; eight stand at most.
The model's choices in it, and not the spec's rules, are log entry 60 (LEN and QWAIT corners, the order of parked
requests). -/
def Obligations.TrunkQueueRequests : Prop :=
  ∀ (s : State) (l : LinkId) (r : TrunkReq) (u : List BitErr),
    let d0 := s.begun.d.popReq l
    let go := fun (d : Dev) => (Host.Outcome.next · : State → Host.Outcome State Fault Refusal) (finish { s.begun with d := d })
    (s.d.pwr.phase = .up → ∀ e, d0.queueRefusal r = some e → ∀ c k,
      ((c = Instr.trunkQrd ⟨l, u⟩ ∧ k = 3) ∨ (c = .trunkQwr l ∧ k = 4) ∨ (c = .trunkSread l ∧ k = 7)) →
      s.d.frontReq l (fun r => r.opc = k) = some r → exec c s = go (d0.trkDone l r e 0 [])) ∧
    (s.d.pwr.phase = .up → d0.queueRefusal r = none →
      (s.d.frontReq l (fun r => r.opc = 3) = some r → exec (.trunkQrd ⟨l, u⟩) s = go ((d0.upset u).qrd l r (r.flags.testBit 2))) ∧
      (s.d.frontReq l (fun r => r.opc = 4) = some r →
        (r.len / 8 ≤ (s.d.queue r.queue).free → exec (.trunkQwr l) s =
          go (((d0.wakeDomain (regionOfQueue r.queue) 8).modQueue r.queue fun q => q.pushAll r.words).trkDone l r 0 0 [])) ∧
        ((s.d.queue r.queue).free < r.len / 8 → fld s.d.trk.ctl 8 8 ≠ 0 →
          exec (.trunkQwr l) s = go (d0.park l r (s.d.now + s.d.qwaitTicks))) ∧
        ((s.d.queue r.queue).free < r.len / 8 → fld s.d.trk.ctl 8 8 = 0 →
          exec (.trunkQwr l) s = go (d0.trkDone l r 6 0 []))) ∧
      (s.d.frontReq l (fun r => r.opc = 7) = some r →
        (0 < (s.d.queue r.queue).pktcnt → d0.olderSread r = false →
          exec (.trunkSread l) s = go (d0.qrd l r true)) ∧
        (((s.d.queue r.queue).pktcnt = 0 ∨ d0.olderSread r = true) → (s.d.links[l]).standing < 8 →
          exec (.trunkSread l) s = go (d0.park l r (r.at_ + r.param * 20000))) ∧
        (((s.d.queue r.queue).pktcnt = 0 ∨ d0.olderSread r = true) → 8 ≤ (s.d.links[l]).standing →
          exec (.trunkSread l) s = go (d0.trkDone l r 8 0 [])))) ∧
    (∀ (t : Fin 32) (p : Parked),
      ((s.d.links[l]).parkedTag t 4 = some p →
        (s.d.queueUsable p.req.queue = false → exec (.qwrResume l t) s = .next (onDev (fun d =>
          (d.unpark l p).trkDone l p.req 12 0 []) s)) ∧
        (s.d.queueUsable p.req.queue = true → (s.d.queue p.req.queue).free < p.req.len / 8 →
          exec (.qwrResume l t) s = .next (onDev id s)) ∧
        (s.d.queueUsable p.req.queue = true → p.req.len / 8 ≤ (s.d.queue p.req.queue).free →
          exec (.qwrResume l t) s = .next (onDev (fun d => (((d.unpark l p).wakeDomain (regionOfQueue p.req.queue) 8
            ).modQueue p.req.queue fun q => q.pushAll p.req.words).trkDone l p.req 0 0 []) s)) ∧
        exec (.qwrParkTimeout l t) s = .next (onDev (fun d => ((d.until_ p.until_).unpark l p).trkDone l p.req 6 0 []) s)) ∧
      ((s.d.links[l]).parkedTag t 7 = some p →
        (s.d.queueUsable p.req.queue = false → exec (.sreadServed l t) s = .next (onDevW (fun d =>
          (d.unpark l p).trkDone l p.req 12 0 []) s)) ∧
        (s.d.queueUsable p.req.queue = true → ((s.d.queue p.req.queue).pktcnt = 0 ∨ s.d.olderSread p.req = true) →
          exec (.sreadServed l t) s = .next (onDevW id s)) ∧
        (s.d.queueUsable p.req.queue = true → 0 < (s.d.queue p.req.queue).pktcnt → s.d.olderSread p.req = false →
          exec (.sreadServed l t) s = .next (onDevW (fun d => (d.unpark l p).qrd l p.req true) s)) ∧
        exec (.sreadTimeout l t) s = .next (onDev (fun d => ((d.until_ p.until_).unpark l p).trkDone l p.req 7 0 []) s)))

/-- R253, R257, R259, R372 to R374: a DICT request whose fields are in range goes to the dispatcher of its carrier, where
the module's state lets it, else it gets its STATUS; POST writes an empty mailbox and answers
FULL for a full one; TAKE reads a mailbox and empties it; PEEK reads it and leaves it; a request that names no mailbox of 12 to 15 is refused.
The model's choices in it, and not the spec's rules, are log entries 60 (LEN of POST, TAKE and PEEK), 61 (a DICT
request waits while its carrier owes an answer). -/
def Obligations.TrunkDictionaryAndMailboxRequests : Prop :=
  ∀ (s : State) (l : LinkId) (r : TrunkReq),
    let d0 := s.begun.d.popReq l
    let reply := fun (st aux : Nat) (b : List Byte) (d : Dev) =>
      (Host.Outcome.next · : State → Host.Outcome State Fault Refusal) (finish { s.begun with d := d.trkDone l r st aux b })
    let m : Fin 16 := Fin.ofNat 16 r.addr.toNat
    (s.d.frontReq l (fun r => r.opc = 5) = some r → s.d.owed (carrierOf l) = false →
      ((r.addr ≠ 0 ∨ r.param ≠ 0 ∨ r.len < 1 ∨ 256 < r.len) → exec (.trunkDict l) s = reply 2 0 [] d0) ∧
      (r.addr = 0 → r.param = 0 → 1 ≤ r.len → r.len ≤ 256 →
        (∀ e, dictNotReady d0 r.data = some e → exec (.trunkDict l) s = reply e 0 [] d0) ∧
        (dictNotReady d0 r.data = none → exec (.trunkDict l) s = .next (finish (tdpServe (carrierOf l) r.data true
        { s.begun with d := d0.modTrunk l fun k => { k with run := some (r, 0, []) } }))))) ∧
    (∀ c k, ((c = Instr.trunkMbxPost l ∧ k = (1 : Nat)) ∨ (c = .trunkMbxTake l ∧ k = 2)) → s.d.pwr.phase = .up →
      s.d.frontReq l (fun r => r.opc = 6 && r.param = k) = some r → (r.addr.toNat < 12 ∨ 16 ≤ r.addr.toNat) →
      exec c s = reply 13 0 [] d0) ∧
    (s.d.pwr.phase = .up → 12 ≤ r.addr.toNat → r.addr.toNat < 16 →
      (s.d.frontReq l (fun r => r.opc = 6 && r.param = 1) = some r → (r.len = 0 ∨ r.len = 4) →
        let x := d0.mbxPost (partyOf l) m (BitVec.ofNat 32 (bytesNat r.data))
        exec (.trunkMbxPost l) s = reply (if x.2 then 0 else 6) 0 [] x.1) ∧
      (s.d.frontReq l (fun r => r.opc = 6 && r.param = 2) = some r → (r.len = 0 ∨ r.len = 4) →
        let x := d0.mbxTake (partyOf l) m
        exec (.trunkMbxTake l) s = reply 0 (b2n x.2.isSome) (natBytes 4 (x.2.getD 0).toNat) x.1) ∧
      (s.d.frontReq l (fun r => r.opc = 6 && r.param ≠ 1 && r.param ≠ 2) = some r → (r.len = 0 ∨ r.len = 4) → r.param = 3 →
        exec (.trunkMbxPeek l) s = reply 0 (b2n (d0.mbx[m]).full)
          (natBytes 4 (if (d0.mbx[m]).full then (d0.mbx[m]).msg.toNat else 0)) d0))

/-! ### TDP, the dictionary, update, CAN and config memory (chapters 9, 10 and 16) -/

/-- R270: every request message that the model writes is read as the request it stands for: bytes beyond its own length
are ignored, and a segment must fit the carrier's limit. -/
def Obligations.MessagesParseBack : Prop :=
  ∀ (lim : TdpLimits) (i : BitVec 16) (b e q : Byte) (t : Word) (l pad : List Byte) (last : Bool),
    parseTdp lim (msgRead i b ++ pad) = .read i b ∧
    (l.length ≤ 60 → parseTdp lim (msgWrite i b l ++ pad) = .writeExp i b l) ∧
    (60 < l.length → parseTdp lim (msgWrite i b l) = .bad i b) ∧
    parseTdp lim (msgInit i b t ++ pad) = .writeInit i b t.toNat ∧
    parseTdp lim ([0x42#8, q] ++ pad) = .segReq q ∧
    (1 ≤ l.length → l.length ≤ 255 → l.length ≤ lim.wseg → parseTdp lim (msgSeg last q l ++ pad) = .seg last q l) ∧
    (l.length ≤ 255 → lim.wseg < l.length → parseTdp lim (msgSeg last q l ++ pad) = .bad 0 0) ∧
    (∀ code : Nat, parseTdp lim (abortMsg i b code ++ pad) = .abort i b (BitVec.ofNat 8 code)) ∧
    parseTdp lim ([0xC0#8] ++ natBytes 2 i.toNat ++ [b, e] ++ pad) = .abort i b e

/-- R267, R271, R272, R273, R275, R299: a READ or a write of an object of the HV2448 closes the open transfer of its
carrier and gets one answer: NOOBJ or NOSUB where no object stands; READ_EXP with a value within the carrier's limit;
READ_INIT, with the value captured, for a longer value or a DOMAIN; WRITE_OK for a value that the object takes, else ABORT
with its code; BADCMD for an expedited write of a DOMAIN; WRITE_READY for a segmented write of the object's length (32 bytes
of ATTEST, 64 bytes a context of CTXDATA), TYPELEN for another.
The model's choices in it, and not the spec's rules, are log entries 61 (a carrier that owes an answer), 75 (codes of
odd accesses). -/
def Obligations.DictionaryRequestsAreServed : Prop :=
  ∀ (s : State) (c : Carrier) (i : BitVec 16) (b : Byte),
    let t := s.asked c
    let lim := s.d.tdpLimits c
    let opens := fun (total : Nat) (l : List Byte) (u : State) => replied c ([0x43#8] ++ natBytes 4 total) { u with
      d := u.d.openXfer c {
            write := false, index := i, sub := b, total := some total, data := l, last := none, lastResp := [],
            pos := 0, at_ := u.d.now, ctxSel := u.d.tdp.ctxSel } }
    t.d.route i.toNat = .hw →
    (s.tdpReady c (msgRead i b) →
      (∀ e, objAt t.d i.toNat b.toNat = .error e → exec (.tdpRead c i b) s = abortedBy c i b e t) ∧
      (∀ o, objAt t.d i.toNat b.toNat = .ok o → (∀ k, o.src ≠ .dom k) →
        (∀ u e, objRead o i b t = (u, .error e) → exec (.tdpRead c i b) s = abortedBy c i b e u) ∧
        (∀ u l, objRead o i b t = (u, .ok l) →
          (l.length ≤ lim.exp → exec (.tdpRead c i b) s = replied c ([BitVec.ofNat 8 l.length] ++ l) u) ∧
          (lim.exp < l.length → exec (.tdpRead c i b) s = opens l.length l u))) ∧
      (∀ o k, objAt t.d i.toNat b.toNat = .ok o → o.src = .dom k →
        (o.acc = .wo → exec (.tdpRead c i b) s = abortedBy c i b 5 t) ∧
        (o.acc ≠ .wo → k = .ctxData →
          (t.d.ctxWindow = true → exec (.tdpRead c i b) s = opens (64 * s.d.tdp.ctxCount) [] t) ∧
          (t.d.ctxWindow = false → exec (.tdpRead c i b) s = abortedBy c i b 7 t)) ∧
        (o.acc ≠ .wo → k ≠ .ctxData →
          (∀ l, t.d.deadVal o i b = some l → exec (.tdpRead c i b) s = opens l.length l t) ∧
          (∀ l, t.d.deadVal o i b = none → t.d.domBytes k = some l → exec (.tdpRead c i b) s = opens l.length l t) ∧
          (t.d.deadVal o i b = none → t.d.domBytes k = none → exec (.tdpRead c i b) s = abortedBy c i b 0x0F t)))) ∧
    (∀ l : List Byte, l.length ≤ 60 → s.tdpReady c (msgWrite i b l) → t.d.deadWrite i = false →
      (∀ e, objAt t.d i.toNat b.toNat = .error e → exec (.tdpWriteExp c i b l) s = abortedBy c i b e t) ∧
      (∀ o k, objAt t.d i.toNat b.toNat = .ok o → o.src = .dom k → exec (.tdpWriteExp c i b l) s = abortedBy c i b 1 t) ∧
      (∀ o, objAt t.d i.toNat b.toNat = .ok o → (∀ k, o.src ≠ .dom k) →
        (lim.exp < l.length → exec (.tdpWriteExp c i b l) s = abortedBy c i b 1 t) ∧
        (l.length ≤ lim.exp →
          (∀ u e, objWrite o c i b l true t = (u, some e) → exec (.tdpWriteExp c i b l) s = abortedBy c i b e u) ∧
          (∀ u, objWrite o c i b l true t = (u, none) → (∀ j, u.d.upd.job = some j → j.carrier ≠ c) →
            exec (.tdpWriteExp c i b l) s = replied c [0x44#8] u)))) ∧
    (∀ total : Word, s.tdpReady c (msgInit i b total) → t.d.deadWrite i = false →
      let ready := replied c [0x45#8, BitVec.ofNat 8 lim.wseg] { t with d := t.d.openXfer c {
        write := true, index := i, sub := b,
        total := some total.toNat, data := [], last := none, lastResp := [], pos := 0, at_ := t.d.now,
        ctxSel := t.d.tdp.ctxSel } }
      (∀ e, objAt t.d i.toNat b.toNat = .error e → exec (.tdpWriteInit c i b total) s = abortedBy c i b e t) ∧
      (∀ o e, objAt t.d i.toNat b.toNat = .ok o → o.noWrite = some e →
        exec (.tdpWriteInit c i b total) s = abortedBy c i b e t) ∧
      (∀ o, objAt t.d i.toNat b.toNat = .ok o → o.noWrite = none →
        ((∀ k, o.src ≠ .dom k) →
          (o.ty.size ≠ some total.toNat → exec (.tdpWriteInit c i b total) s = abortedBy c i b 6 t) ∧
          (o.ty.size = some total.toNat → exec (.tdpWriteInit c i b total) s = ready)) ∧
        (o.src = .dom .ctxData →
          (t.d.ctxWindow = false → exec (.tdpWriteInit c i b total) s = abortedBy c i b 7 t) ∧
          (t.d.ctxWindow = true → total.toNat ≠ 64 * s.d.tdp.ctxCount →
            exec (.tdpWriteInit c i b total) s = abortedBy c i b 6 t) ∧
          (t.d.ctxWindow = true → total.toNat = 64 * s.d.tdp.ctxCount → exec (.tdpWriteInit c i b total) s = ready)) ∧
        (o.src = .dom .attest →
          (total.toNat ≠ 32 → exec (.tdpWriteInit c i b total) s = abortedBy c i b 6 t) ∧
          (total.toNat = 32 → exec (.tdpWriteInit c i b total) s = ready))))

/-- R272 to R275: SEG_REQ gets the next segment of a captured value, the same one again for a repeated SEQ, and SEQERR
for another; SEG is acknowledged and its bytes kept; SEG_LAST applies the value whole and is answered WRITE_OK, or
TYPELEN where the sum differs from TOTAL; no transfer is NOXFER; ABORT is answered in kind; 1 s without a message
closes. A transfer of CTXDATA reads and writes its contexts as its segments come, one of ATTEST asks for an attestation.
R278: firmware's packet with an awaited SERIAL and a length within the carrier's limit leaves on its carrier; one whose
SERIAL is not awaited, or whose length is not within the limit, is taken, discarded and counted; TMO without one ends with
NOFWRESP; then the CAN port's next request is taken.
The model's choices in it, and not the spec's rules, are log entries 76 and 77 (codes of odd message orders, and
matching by SERIAL alone). -/
def Obligations.TransfersAndFirmwareAnswers : Prop :=
  (∀ (s : State) (c : Carrier), (s.d.tdp.car[c]).fwXfer = none →
    let t := s.heard
    let put := fun (x : Xfer) => { t with d := t.d.putXfer c x }
    ((s.d.tdp.car[c]).xfer = none → (s.d.tdp.car[c]).timedOut = none →
      (∀ q, s.tdpReady c [0x42#8, q] → exec (.tdpSegReq c q) s = replied c (abortMsg 0 0 9) t) ∧
      (∀ q l, 1 ≤ l.length → l.length ≤ 255 → l.length ≤ (s.d.tdpLimits c).wseg → s.tdpReady c (msgSeg false q l) →
        exec (.tdpSeg c q l) s = replied c (abortMsg 0 0 9) t) ∧
      (∀ i b e, s.tdpReady c ([0xC0#8] ++ natBytes 2 i.toNat ++ [b, e]) →
        exec (.tdpAbort c i b e) s = replied c (abortMsg i b 9) t)) ∧
    (∀ x, (s.d.tdp.car[c]).xfer = some x →
      let next := match x.last with | some q => q + 1 | none => 0
      (∀ i b e, x.done = false → s.tdpReady c ([0xC0#8] ++ natBytes 2 i.toNat ++ [b, e]) →
        exec (.tdpAbort c i b e) s = abortedBy c x.index x.sub e.toNat t) ∧
      (∀ q, x.write = false → s.tdpReady c [0x42#8, q] →
        (x.last = some q → exec (.tdpSegReq c q) s = replied c x.lastResp (put { x with at_ := s.d.now })) ∧
        (x.last ≠ some q → q ≠ next → exec (.tdpSegReq c q) s = abortedBy c x.index x.sub 8 t) ∧
        (∀ total l u, x.last ≠ some q → q = next → x.done = false → x.isCtx = true → x.total = some total →
          let n := min (s.d.tdpLimits c).rseg (total - x.pos)
          let m := msgSeg (total ≤ x.pos + n) q (l.take n)
          ctxFill n 5 (x.ctxSel + (x.pos + x.data.length) / 64) x.data t = (u, some l) →
          exec (.tdpSegReq c q) s = replied c m { u with d := u.d.putXfer c { x with
            last := some q, lastResp := m, pos := x.pos + n, at_ := u.d.now, data := l.drop n } }) ∧
        (∀ total, x.last ≠ some q → q = next → x.done = false → x.isCtx = false → x.total = some total →
          let n := min (s.d.tdpLimits c).rseg (total - x.pos)
          let m := msgSeg (total ≤ x.pos + n) q (slice x.data x.pos n)
          exec (.tdpSegReq c q) s = replied c m (put { x with last := some q, lastResp := m, pos := x.pos + n, at_ := s.d.now }))) ∧
      (∀ q l, x.write = true → 1 ≤ l.length → l.length ≤ 255 → l.length ≤ (s.d.tdpLimits c).wseg →
        (∀ last, s.tdpReady c (msgSeg last q l) →
          let ex := exec (if last then Instr.tdpSegLast c q l else .tdpSeg c q l) s
          (x.last = some q → ex = replied c x.lastResp (put { x with at_ := s.d.now })) ∧
          (x.last ≠ some q → x.done = false → q ≠ next → ex = abortedBy c x.index x.sub 8 t)) ∧
        (x.last ≠ some q → x.done = false → q = next → x.index ≠ 0x9010 → x.isCtx = false →
          (s.tdpReady c (msgSeg false q l) → exec (.tdpSeg c q l) s = replied c [0x46#8, q] (put { x with
            last := some q, at_ := s.d.now, pos := x.pos + l.length, data := x.data ++ l, lastResp := [0x46#8, q] })) ∧
          (∀ total, x.total = some total → s.tdpReady c (msgSeg true q l) →
            (x.pos + l.length ≠ total → exec (.tdpSegLast c q l) s = abortedBy c x.index x.sub 6 t) ∧
            (x.pos + l.length = total → x.index = 0x6010 →
              (∀ d e, t.d.attDict t.ram c (x.data ++ l) = (d, some e) →
                exec (.tdpSegLast c q l) s = abortedBy c x.index x.sub e { t with d := d }) ∧
              (∀ d, t.d.attDict t.ram c (x.data ++ l) = (d, none) → exec (.tdpSegLast c q l) s =
                .next (finish { t with d := d.putXfer c { x with
                  last := some q, at_ := s.d.now, pos := total, data := [], lastResp := [0x44#8] } }))) ∧
            (∀ o u, x.pos + l.length = total → x.index ≠ 0x6010 → objAt t.d x.index.toNat x.sub.toNat = .ok o →
              objWrite o c x.index x.sub (x.data ++ l) true t = (u, none) →
              exec (.tdpSegLast c q l) s = replied c [0x44#8] { u with d := u.d.putXfer c { x with
                last := some q, at_ := s.d.now, pos := total, data := [], lastResp := [0x44#8] } })))) ∧
      (∀ q l, x.write = true → 1 ≤ l.length → l.length ≤ 255 → l.length ≤ (s.d.tdpLimits c).wseg → x.last ≠ some q →
        x.done = false → q = next → x.isCtx = true →
        let r := ctxDrain 5 (x.ctxSel + x.pos / 64) (x.data ++ l.take (x.total.getD 0 - x.pos)) t
        let y : Xfer := { x with last := some q, at_ := s.d.now, pos := x.pos + l.length, data := r.2, lastResp := [0x46#8, q] }
        (s.tdpReady c (msgSeg false q l) → exec (.tdpSeg c q l) s =
          replied c [0x46#8, q] { r.1 with d := r.1.d.putXfer c y }) ∧
        (∀ total, x.total = some total → s.tdpReady c (msgSeg true q l) →
          (x.pos + l.length ≠ total → exec (.tdpSegLast c q l) s = abortedBy c x.index x.sub 6 r.1) ∧
          (x.pos + l.length = total → exec (.tdpSegLast c q l) s =
            replied c [0x44#8] { r.1 with d := r.1.d.putXfer c { y with data := [], lastResp := [0x44#8] } }))) ∧
      (exec (.tdpXferTimeout c) s = .next (onDev (fun d =>
        ((d.until_ (x.at_ + 200000000)).closeXfer c).modCarrier c fun k =>
          { k with timedOut := if x.done then none else some (x.index, x.sub) }) s)))) ∧
  (∀ s : State,
    (∀ (c : Carrier) n i b at_, (s.d.tdp.car[c]).fw = some (n, i, b, at_) →
      exec (.tdpFwTimeout c) s = .next (finish (canNext { s with
        d := ((s.begun.d.until_ at_).noFwResp c).respond c (abortMsg i b 0x0E) }))) ∧
    (∀ q, q = queueOf 0 (Fin.ofNat 32 (fld s.d.tdp.fwctl 16 5)) →
      ((s.d.queueUsable q = false ∨ (s.d.queue q).packet = none) → exec .tdpFwAnswer s = .next (finish (canNext s.begun))) ∧
      (∀ ws, s.d.queueUsable q = true → (s.d.queue q).packet = some ws →
        let w0 := (ws.map (·.value)).headD 0
        let n := fld64 w0 18 9
        let m := padTo n (bytesOf64 ((ws.map (·.value)).drop 1))
        let d := s.begun.d.takeWords q ws.length
        let ends := fun (d : Dev) => exec .tdpFwAnswer s = .next (finish (canNext { s with d := d }))
        ((s.d.awaits (w0.setWidth 16) = none ∨ n = 0 ∨
            (∃ c, s.d.awaits (w0.setWidth 16) = some c ∧ (s.d.tdpLimits c).resp < n)) →
          ends { d with tdp := { d.tdp with cnt := d.tdp.cnt.set 3 (d.tdp.cnt[3] + 1) } }) ∧
        (∀ c k i b at_, s.d.awaits (w0.setWidth 16) = some c → (s.d.tdp.car[c]).fw = some (k, i, b, at_) → 1 ≤ n →
          n ≤ (s.d.tdpLimits c).resp →
          ends ((d.modCarrier c fun x => { x with fw := none, fwXfer := fwAfter m i b x.fwXfer }).respond c m)))))

/-- R262, R311, R313, R315: W1C bits written to the detail object of a latched ATTN bit clear its flags; OP starts a
context operation on the dictionary's own channel, STATE while one is pending; a whole challenge of 32 bytes starts an
attestation whose answer follows when the report is signed, or ends with STATE; 0x8003 arms the emptying of the retirement list.
The model's choices in it, and not the spec's rules, are log entries 57 and 58 (the order of attestation refusals), 75
(codes). -/
def Obligations.DictionaryCommandsAct : Prop :=
  ∀ (s : State) (c : Carrier),
    let t := s.asked c
    (∀ (b : Fin 14) (sub : Byte) (l : List Byte), s.tdpReady c (msgWrite (BitVec.ofNat 16 (0x1010 + b.val)) sub l) →
      (∃ m, indexMax (0x1010 + b.val) = some m ∧ sub.toNat ≤ m ∧ (sub.toNat = 0 → m = 0)) →
      l.length = detailSize b.val sub.toNat →
      (2 ≤ b.val → exec (.attnDetailClear c b sub l) s =
        replied c [0x44#8] { t with d := t.d.clearDetail b.val sub.toNat (bytesNat l) }) ∧
      (b.val < 2 → exec (.attnDetailClear c b sub l) s = abortedBy c (BitVec.ofNat 16 (0x1010 + b.val)) sub 4 t)) ∧
    (∀ op : Byte, s.tdpReady c (msgWrite 0x5101 4 [op]) → s.d.pwr.phase = .up → 1 ≤ op.toNat → op.toNat ≤ 3 →
      (s.d.tdp.op.status ≠ 1 → exec (.ctxOpChannel c op) s =
        let x := t.d.ctxRun none { s.d.tdp.op with op := op.toNat }
        replied c [0x44#8] { t with d := { x.1 with tdp := { x.1.tdp with op := x.2 } } }) ∧
      (s.d.tdp.op.status = 1 → exec (.ctxOpChannel c op) s = abortedBy c 0x5101 4 0x0F t)) ∧
    (∀ ch : List Byte, s.d.carrierFree c = true → s.d.pwr.phase = .up →
      let u : State := { s with d := s.begun.d.closeXfer c }
      (ch.length ≠ 32 → exec (.attestWrite c ch) s = abortedBy c 0x6010 1 6 u) ∧
      (ch.length = 32 →
        (∀ d, u.d.attDict s.ram c ch = (d, none) → exec (.attestWrite c ch) s = .next (finish { u with d := d })) ∧
        (∀ d e, u.d.attDict s.ram c ch = (d, some e) → exec (.attestWrite c ch) s = abortedBy c 0x6010 1 e { u with d := d })) ∧
      (∀ d : Dev, d.att.run = none → d.pwr.phase = .up →
        (d.att.lost = false → d.att.c + 1 < 33554432 → d.att.last + 16 * 65536 ≤ d.rtc.count →
          d.attDict s.ram c ch = (({ d with att := { d.att with
            c := d.att.c + 1, last := d.rtc.count, dictStatus := 1, dictReport := none
            run := some { from_ := .dict c, challenge := ch, q := d.att.c } } }).engGo s.ram, none)) ∧
        (d.att.lost = true → d.attDict s.ram c ch =
          (({ d with att := { d.att with dictStatus := 5, dictReport := none } }).secCause 5, some 0x0F)) ∧
        (d.att.lost = false → d.att.c < 33554432 → d.rtc.count < d.att.last + 16 * 65536 → d.attDict s.ram c ch =
          ({ d with att := { d.att with dictStatus := 3, dictReport := none } }, some 0x0F))) ∧
      (∀ a, s.d.att.run = some a → ch.length = 32 → exec (.attestWrite c ch) s = abortedBy c 0x6010 1 0x0F u)) ∧
    (∀ v : Byte, s.tdpReady c (msgWrite 0x8003 0 [v]) →
      (v = 1 → exec (.clearret c v) s = replied c [0x44#8] { t with d := { t.d with flt := { t.d.flt with clearRet := true } } }) ∧
      (v = 0 → exec (.clearret c v) s = replied c [0x44#8] t) ∧
      (2 ≤ v.toNat → exec (.clearret c v) s = abortedBy c 0x8003 0 7 t))

/-- R442 to R448: a claim of the free lock, its release, its expiry after 30 s; WRITE_INIT of IMAGE begins the image anew;
a segment becomes the engine's job, which erases each block before its first word, programs word by word as the flash lets
it and, when all are programmed and read back, acknowledges the segment; the last one makes the image WRITTEN, one that fails
ends with STATE and the state is FAILED; COMMIT's job programs the first 16 bytes and frees the lock; ABORT frees it. A job
that the lock's expiry cuts is answered STATE. A write from a carrier that does not hold the lock ends with UPD_BUSY.
The model's choices in it, and not the spec's rules, are log entries 7 (whether a word programs is an operand), 69 and
77 (failing words, objects with the lock free). -/
def Obligations.UpdatesFollowTheLock : Prop :=
  ∀ (s : State) (c : Carrier), s.d.pwr.phase = .up →
    let t := s.asked c
    let upd := fun (d : Dev) (f : Update → Update) => { d with upd := f d.upd }
    let gone := fun (k : Nat) (u : Update) => { u with state := k, holder := none, part := [], head := [] }
    let anew := fun (n : Nat) (u : Update) => { u with
      state := 2, received := 0, total := n, head := [], part := [], erased := 0, progressAt := s.d.now }
    let image := fun (n : Nat) => {
      write := true, index := 0x9010, sub := 0, total := some n, data := [], last := none, lastResp := [], pos := 0
      at_ := s.d.now, ctxSel := s.d.tdp.ctxSel : Xfer }
    let lockMsg := fun (i : BitVec 16) (v : Byte) => s.tdpReady c (msgWrite i 0 [v])
    let works := fun (x : State) => (Host.Outcome.next · : State → Host.Outcome State Fault Refusal)
      (finish { x with d := Dev.answered x.d.updNext })
    (∀ h, s.d.upd.holder = some h → h ≠ c →
      (lockMsg 0x9001 1 → exec (.updLockClaim c) s = abortedBy c 0x9001 0 0x0D t) ∧
      (lockMsg 0x9001 0 → exec (.updLockRelease c) s = abortedBy c 0x9001 0 0x0D t) ∧
      (lockMsg 0x9002 1 → exec (.updCommit c true) s = abortedBy c 0x9002 0 0x0D t) ∧
      (lockMsg 0x9003 1 → exec (.updAbort c) s = abortedBy c 0x9003 0 0x0D t) ∧
      (∀ total, s.tdpReady c (msgInit 0x9010 0 total) →
        exec (.updImageInit c total) s = abortedBy c 0x9010 0 0x0D t)) ∧
    (s.d.upd.holder = none → lockMsg 0x9001 1 → exec (.updLockClaim c) s = replied c [0x44#8] { t with
      d := (upd t.d fun u => { u with state := 1, holder := some c, received := 0, progressAt := s.d.now }).updFlag 0 }) ∧
    (s.d.upd.holder = some c →
      (lockMsg 0x9001 0 → exec (.updLockRelease c) s = replied c [0x44#8] { t with d := t.d.updRelease } ∧
        (s.d.upd.state = 1 → t.d.updRelease = { t.d with upd := { t.d.upd with state := 0, holder := none, job := none } })) ∧
      (lockMsg 0x9003 1 → exec (.updAbort c) s = replied c [0x44#8] { t with d := (upd t.d (gone 6)).updFlag 2 }) ∧
      (∀ ok, lockMsg 0x9002 1 →
        (s.d.upd.state ≠ 4 → exec (.updCommit c ok) s = abortedBy c 0x9002 0 0x0F t) ∧
        (s.d.upd.state = 4 →
          let j : UpdJob := { carrier := c, words := [(0, s.d.upd.head)], ok, rest := [], count := 0, xfer := none,
                              last := false, wrong := false }
          exec (.updCommit c ok) s = works { t with d := upd t.d fun u => { u with job := some j } })) ∧
      (∀ total : Word, s.tdpReady c (msgInit 0x9010 0 total) →
        (total.toNat % 16 ≠ 0 ∨ total.toNat < 2992 ∨ 6291456 < total.toNat →
          exec (.updImageInit c total) s = abortedBy c 0x9010 0 6 t) ∧
        (total.toNat % 16 = 0 → 2992 ≤ total.toNat → total.toNat ≤ 6291456 → exec (.updImageInit c total) s =
          replied c [0x45#8, BitVec.ofNat 8 (s.d.tdpLimits c).wseg] { t with d := (upd t.d (anew total.toNat)).openXfer c (image total.toNat) })) ∧
      (∀ x q l last ok, (s.d.tdp.car[c]).fwXfer = none → (s.d.tdp.car[c]).xfer = some x → x.write = true → x.index = 0x9010 →
        x.done = false → x.last ≠ some q → q = (match x.last with | some k => k + 1 | none => 0) → 1 ≤ l.length →
        l.length ≤ 255 → l.length ≤ (s.d.tdpLimits c).wseg → s.tdpReady c (msgSeg last q l) →
        let wrong := last && (x.pos + l.length ≠ x.total.getD 0)
        exec (.updImageSegment c q last l ok) s = works { s.heard with d := s.heard.d.updSegment c { x with
          last := some q, at_ := s.d.now, pos := x.pos + l.length,
          lastResp := if last && !wrong then [0x44#8] else [0x46#8, q] } last wrong l ok })) ∧
    (∀ (d : Dev) (j : UpdJob), d.upd.job = some j →
      (∀ o w l, j.words = (o, w) :: l → d.flash.engineMay = false → d.updNext = (d, none)) ∧
      (∀ o w l, j.words = (o, w) :: l → d.flash.engineMay = true →
        (d.upd.erased ≤ o / 65536 → d.flash.refusal 2 (0x08000000 + o / 16 * 16) false = none →
          d.updNext = ({ d with flash := { d.flash.erase (o / 65536) d.now with src := true } }, none)) ∧
        (o / 65536 < d.upd.erased → j.ok = true → d.flash.refusal 1 (0x08000000 + o / 16 * 16) false = none →
          d.updNext = ({ d with flash := { d.flash.program (0x08000000 + o) w with src := true } }, none))) ∧
      (∀ x, j.words = [] → j.xfer = some x → j.wrong = false → d.updNext.2 = some (j.carrier, x.lastResp) ∧
        d.updNext.1.upd.job = none ∧ d.updNext.1.upd.received = d.upd.received + j.count ∧
        d.updNext.1.upd.progressAt = d.now ∧ d.updNext.1.upd.state = (if j.last then 4 else d.upd.state)) ∧
      (j.words = [] → j.xfer = none → d.updNext.2 = some (j.carrier, [0x44#8]) ∧ d.updNext.1.upd.state = 5 ∧
        d.updNext.1.upd.holder = none ∧ d.updNext.1.upd.flags.getLsbD 1 = true) ∧
      (∀ o w l, j.words = (o, w) :: l → d.flash.src = true → d.flash.status = 3 → j.ok = true →
        d.updOpEnd false = (upd d fun u => { u with job := some { j with words := l } }).updNext ∧
        d.updOpEnd true = (upd d fun u => { u with erased := o / 65536 + 1 }).updNext) ∧
      (∀ o w l e, j.words = (o, w) :: l → d.flash.src = true → (d.flash.status ≠ 3 ∨ (e = false ∧ j.ok = false)) →
        (d.updOpEnd e).1.upd.state = 7 ∧ (d.updOpEnd e).1.upd.job = none ∧
        (∀ x, j.xfer = some x → (d.updOpEnd e).2 = some (j.carrier, abortMsg x.index x.sub 0x0F)) ∧
        (j.xfer = none → (d.updOpEnd e).2 = some (j.carrier, abortMsg 0x9002 0 0x0F)))) ∧
    (∀ h, s.d.upd.holder = some h → exec .updLockExpired s = .next (finish (canNext { s with
      d := (s.begun.d.until_ (s.d.upd.progressAt + 30 * 200000000)).updExpired }))) ∧
    (∀ d : Dev, (d.upd.job = none → d.updExpired = d.updExpire) ∧
      (∀ j x, d.upd.job = some j → j.xfer = some x →
        d.updExpired = d.updExpire.respond j.carrier (abortMsg x.index x.sub 0x0F)) ∧
      (∀ j, d.upd.job = some j → j.xfer = none → d.updExpired = d.updExpire.respond j.carrier (abortMsg 0x9002 0 0x0F))) ∧
    (∀ d : Dev, d.upd.holder = some c → d.updExpire.upd.holder = none ∧ d.updExpire.upd.flags.getLsbD 3 = true ∧
      d.updExpire.upd.job = none ∧
      (d.upd.state = 1 → d.updExpire.upd.state = 0) ∧ (d.upd.state ≠ 1 → d.updExpire.upd.state = 6))

/-- R280 to R284, R287, R297: a request frame with the node's identifier is answered if nothing is being answered, waits
behind one that is, and is dropped and counted where four wait; another identifier is ignored. A response frame has the
node's answer identifier, the form and BRS of its request, ATTN, the message and padding to a length code. A sent response is
counted and so is one given up after 100 ms, and the next request is then taken, once the errors that the answer met have
counted; bus-off is counted, and left by recovery. CAN_CNTCLR clears the counters.
R292, R294, R295: the record at the head of the queue leaves it for memory once it reads back; a read-back that differs
keeps it queued and is a transient fault of the config port. CLEAR empties the queue and makes a current area without
records, generation 1 more.
The model's choices in it, and not the spec's rules, are log entries 38 (one record a commit), 78 (the buffer of 4,
the error counters). -/
def Obligations.CanFramesAndConfigRecords : Prop :=
  (∀ (s : State) (errs : List CanErr),
    let d0 := s.begun.d.canErrs errs
    let d1 := d0.canHeard
    let ends := fun (c : Instr) (d : Dev) => exec c s = .next (finish { s with d := d })
    (∀ ident tries data fd brs,
      (d0.canOn = false → ends (.canRequestFrame ⟨ident, errs, tries⟩ data fd brs) d0) ∧
      (d0.canOn = true → ident ≠ 0x300 + s.d.can.node → ends (.canRequestFrame ⟨ident, errs, tries⟩ data fd brs) d1)) ∧
    (d0.canOn = true → ∀ tries data fd brs,
      let fr : CanReq := { data := data.take (if fd then 64 else 8), fd, brs, tries }
      let c := Instr.canRequestFrame ⟨0x300 + s.d.can.node, errs, tries⟩ data fd brs
      (4 ≤ s.d.can.buf.length → ends c (d1.countCan 2)) ∧
      (s.d.can.buf.length < 4 → (s.d.can.cur ≠ none ∨ s.d.owed 0 = true) →
        ends c { d1 with can := { d1.can with buf := d1.can.buf ++ [fr] } }) ∧
      (s.d.can.buf = [] → s.d.can.cur = none → s.d.owed 0 = false → exec c s = .next (finish (tdpServe 0 fr.data true
        { s with d := ({ d1 with can := { d1.can with cur := some fr } }).countCan 0 }))))) ∧
  (∀ (s : State),
    let d0 := s.begun.d.canTried
    let ends := fun (c : Instr) (d : Dev) => exec c s = .next (finish { s with d := d })
    (∀ r f, s.d.can.cur = some r → s.d.can.out = some f → d0 = Dev.canErrs { s.begun.d with can := { s.d.can with
      cur := some { r with tries := r.tries.drop 1 } } } (r.tries.headD [])) ∧
    (∀ f, s.d.can.out = some f →
      let free : Can := { d0.can with out := none, cur := none }
      (d0.canOn = true → exec .canResponseSent s = .next (finish (canNext { s with
        d := ({ d0 with can := ({ free with sent := some f, tec := free.tec - 1 }).confine }).countCan 1 }))) ∧
      exec .canTxTimeout s = .next (finish (canNext { s with d := ({ d0 with can := free }).countCan 3 }))) ∧
    (s.d.can.out = none → ends .canTxTimeout s.begun.d ∧ ends .canResponseSent s.begun.d) ∧
    ((d0.canOn = true → exec .canBusoff s = .next (onDev (fun d =>
        let e := d.canTried
        ({ e with can := { e.can with mode := 3, tec := 255 } }).countCan 4) s)) ∧
      (d0.canOn = false → exec .canBusoff s = .next (onDev (fun d => d.canTried) s))) ∧
    ((s.d.can.cur ≠ none ∨ s.d.can.buf = [] ∨ s.d.owed 0 = true) → canNext s = s) ∧
    (∀ r l, s.d.can.cur = none → s.d.can.buf = r :: l → s.d.owed 0 = false → canNext s =
      tdpServe 0 r.data true { s with d := ({ s.d with can := { s.d.can with cur := some r, buf := l } }).countCan 0 }) ∧
    (∀ (r : CanReq) (a : BitVec 16) (m : List Byte), let f := canFrame s.d.can.node r a m
      f.ident = 0x380 + s.d.can.node ∧ f.fd = r.fd ∧ f.brs = r.brs ∧ f.data.length = canLen r.fd (m.length + 2) ∧
      (m.length + 2 ≤ f.data.length → f.data.take (m.length + 2) = natBytes 2 a.toNat ++ m)) ∧
    (s.d.can.mode = 3 →
      exec .canBusoffRecovery s = .next (onDev (fun d => { d with can := { d.can with mode := 1, tec := 0, rec_ := 0 } }) s)) ∧
    (∀ (i : Initiator) (v : Word), s.d.mayWrite i (chipPage 8 + 0x4) → v.getLsbD 0 = true →
      exec (.canCntclr i v) s = .next (onDevW (fun d => ({ d with
        can := { d.can with cnt := Vector.replicate 5 0 }
        tdp := { d.tdp with cnt := Vector.replicate 4 0 } }).answer i .done) s))) ∧
  (∀ s : State, s.d.datumCounts = true →
    (∀ r l, s.d.cfg.queue = r :: l → 0 < s.d.cfg.areaSize →
      exec (.cfgRecordCommitted true) s = .next (onDevW (fun d => ({ d with cfg := { d.cfg with queue := l } }).persist r) s) ∧
      exec (.cfgRecordCommitted false) s = .next (onDevW (fun d => d.charge (.unit (.chipBlock 9)) 7) s)) ∧
    (∀ r l, s.d.cfg.queue = r :: l → s.d.cfg.areaSize = 0 → ∀ ok,
      exec (.cfgRecordCommitted ok) s = .next (onDevW (fun d => d.charge (.unit (.chipBlock 9)) 7) s)) ∧
    (∀ (i : Initiator) (v : Word), s.d.mayWrite i (chipPage 9 + 0xC) → v.getLsbD 0 = true →
      exec (.cfgClear i v) s = .next (onDevW (fun d =>
        ({ d with cfg := ({ d.cfg with queue := [] }).compact [] }).answer i .done) s)))

/-! ### Cores (chapter 11) -/

/-- R323, R324, R326: a load gives the value at its address, sign-extended where its form says so; a store writes its
bytes; LR reserves its address; SC writes only under a valid reservation and ends it, giving 0 or 1; an AMO gives the old
word and stores the new one. A word of SRAM without a bit error is read and written at once. A misaligned address, one that PMP forbids and a bus error take the standard exceptions; an
access that is held stalls the core.
The model's choices in it, and not the spec's rules, are log entries 63 (mtval), 65 (core commands act from step 9),
68 (a damaged word is an operand). -/
def Obligations.CoreAccessesCompleteOrTrap : Prop :=
  ∀ (s t : State) (c : CoreId) (u : List BitErr) (w : Word) (len : Nat), s.d.coreRuns c → s.fetches c u w len t →
    let x := t.d.cores[c]
    let next := (s.d.cores[c]).pc + BitVec.ofNat 32 len
    let a := (x.reg (iRs1 w)).toNat
    (∀ n signed, iOp w = 0x03 → loadForm (iF3 w) = some (n, signed) →
      let a := x.reg (iRs1 w) + immI w
      (a.toNat % n ≠ 0 → exec (.coreLoadStore c u) s = done (coreExcept c 4 a t)) ∧
      (a.toNat % n = 0 → x.csr.pmpOk x.dataMach a.toNat n 0 = false → exec (.coreLoadStore c u) s = done (coreExcept c 5 a t)) ∧
      (a.toNat % n = 0 → x.csr.pmpOk x.dataMach a.toNat n 0 = true → ∀ t',
        (∀ v, t.busRead (initOfCore c) a.toNat n false = (t', .data v) → exec (.coreLoadStore c u) s =
          done (coreRetire c (iRd w) (if signed then sext (8 * n) v.toNat else v) next t')) ∧
        (t.busRead (initOfCore c) a.toNat n false = (t', .error) → exec (.coreLoadStore c u) s = done (coreExcept c 5 a t')) ∧
        (t.busRead (initOfCore c) a.toNat n false = (t', .held) →
          exec (.coreLoadStore c u) s = done (coreStall c a.toNat n none t')))) ∧
    (iOp w = 0x23 → iF3 w ≤ 2 →
      let n := 2 ^ iF3 w
      let a := x.reg (iRs1 w) + immS w
      let v := x.reg (iRs2 w)
      (a.toNat % n ≠ 0 → exec (.coreLoadStore c u) s = done (coreExcept c 6 a t)) ∧
      (a.toNat % n = 0 → x.csr.pmpOk x.dataMach a.toNat n 1 = false → exec (.coreLoadStore c u) s = done (coreExcept c 7 a t)) ∧
      (a.toNat % n = 0 → x.csr.pmpOk x.dataMach a.toNat n 1 = true → ∀ t',
        (t.busWrite (initOfCore c) a.toNat n v = (t', .done) → exec (.coreLoadStore c u) s = done (coreRetire c 0 0 next t')) ∧
        (t.busWrite (initOfCore c) a.toNat n v = (t', .error) → exec (.coreLoadStore c u) s = done (coreExcept c 7 a t')) ∧
        (t.busWrite (initOfCore c) a.toNat n v = (t', .held) →
          exec (.coreLoadStore c u) s = done (coreStall c a.toNat n (some v) t')))) ∧
    (classOf w = .lr →
      let ex := exec (.coreLrW ⟨c, u⟩) s
      (a % 4 ≠ 0 → ex = done (coreExcept c 4 (x.reg (iRs1 w)) t)) ∧
      (a % 4 = 0 → atomicWindow a = true → x.csr.pmpOk x.dataMach a 4 0 = false → ex = done (coreExcept c 5 (x.reg (iRs1 w)) t)) ∧
      (a % 4 = 0 → atomicWindow a = true → x.csr.pmpOk x.dataMach a 4 0 = true → ∀ t',
        (∀ v, t.busRead (initOfCore c) a 4 false = (t', .data v) → ex =
          done (coreRetire c (iRd w) v next { t' with d := t'.d.modCore c fun y => { y with resv := some (x.reg (iRs1 w)) } })) ∧
        (t.busRead (initOfCore c) a 4 false = (t', .error) → ex = done (coreExcept c 5 (x.reg (iRs1 w)) t')))) ∧
    (classOf w = .sc → u = [] →
      let ex := exec (.coreScW c) s
      (a % 4 ≠ 0 → ex = done (coreExcept c 6 (x.reg (iRs1 w)) t)) ∧
      (a % 4 = 0 → atomicWindow a = true → x.csr.pmpOk x.dataMach a 4 1 = false → ex = done (coreExcept c 7 (x.reg (iRs1 w)) t)) ∧
      (a % 4 = 0 → atomicWindow a = true → x.csr.pmpOk x.dataMach a 4 1 = true →
        let free : State := { t with d := t.d.modCore c fun y => { y with resv := none } }
        (x.resv ≠ some (x.reg (iRs1 w)) → ex = done (coreRetire c (iRd w) 1 next free)) ∧
        (∀ t', x.resv = some (x.reg (iRs1 w)) →
          (free.busWrite (initOfCore c) a 4 (x.reg (iRs2 w)) = (t', .done) → ex = done (coreRetire c (iRd w) 0 next t')) ∧
          (free.busWrite (initOfCore c) a 4 (x.reg (iRs2 w)) = (t', .error) → ex = done (coreExcept c 7 (x.reg (iRs1 w)) t'))))) ∧
    (classOf w = .amo →
      let ex := exec (.coreAmo ⟨c, u⟩) s
      (a % 4 ≠ 0 → ex = done (coreExcept c 6 (x.reg (iRs1 w)) t)) ∧
      (a % 4 = 0 → atomicWindow a = true → (x.csr.pmpOk x.dataMach a 4 0 = false ∨ x.csr.pmpOk x.dataMach a 4 1 = false) →
        ex = done (coreExcept c 7 (x.reg (iRs1 w)) t)) ∧
      (a % 4 = 0 → atomicWindow a = true → x.csr.pmpOk x.dataMach a 4 0 = true → x.csr.pmpOk x.dataMach a 4 1 = true → ∀ t',
        (∀ v r t'', t.busRead (initOfCore c) a 4 false = (t', .data v) → amoOp (fld w 27 5) v (x.reg (iRs2 w)) = some r →
          t'.busWrite (initOfCore c) a 4 r = (t'', .done) → ex = done (coreRetire c (iRd w) v next t'')) ∧
        (t.busRead (initOfCore c) a 4 false = (t', .error) → ex = done (coreExcept c 7 (x.reg (iRs1 w)) t')))) ∧
    (classOf w = .lr ∨ (classOf w = .sc ∧ u = []) ∨ classOf w = .amo → a % 4 = 0 → atomicWindow a = false →
      exec (if classOf w = .lr then Instr.coreLrW ⟨c, u⟩ else if classOf w = .sc then .coreScW c else .coreAmo ⟨c, u⟩) s =
        done (coreExcept c 7 (x.reg (iRs1 w)) t)) ∧
    (∀ (y : State) (k : Nat), y.d.sramAlive k = true → k % 4 = 0 → y.d.errAt k = none →
      y.busRead (initOfCore c) k 4 false = (y, .data (BitVec.ofNat 32 (bytesNat (memRead 0 y.ram k 4)))) ∧
      ∀ v : Word, y.busWrite (initOfCore c) k 4 v = ({ y with
        ram := memWrite 0 y.ram k (natBytes 4 v.toNat), d := (y.d.mend k (k + 4)).breakResv k (k + 4) }, .done))

/-- R317, R319, R320, R322, R323, R325, R327: retiring writes rd, x0 never, and the pc, and nothing else but minstret; an
exception saves pc, cause and value and the mode, and goes on in machine mode at mtvec; MRET goes back. The integer
instructions compute what the RISC-V specification defines; jumps and branches move the pc; ECALL traps with the mode's
code, MRET returns, an instruction without a meaning is illegal. FENCE and FENCE.I retire, and FENCE.I empties the prefetch
buffer; WFI retires and stalls; a read of time latches the datum; MTIMECMP takes
effect with the held high half; a write of n to MIRQCLAIM clears latch n.
The model's choices in it, and not the spec's rules, are log entries 63 (choices of the privileged specification), 64
(the prefetch buffer), 66 (minstret). -/
def Obligations.CoreInstructionsRetire : Prop :=
  (∀ (u : State) (c : CoreId) (rd : Fin 32) (v pc : Word),
    let x := u.d.cores[c]
    let r := (coreRetire c rd v pc u).d.cores[c]
    r.pc = pc ∧ (∀ k : Fin 32, r.reg k = if k = rd ∧ k.val ≠ 0 then v else x.reg k) ∧ r.mach = x.mach ∧ r.resv = x.resv ∧
    r.csr = { x.csr with minstret := r.csr.minstret } ∧ (coreRetire c rd v pc u).ram = u.ram ∧
    (∀ k, k ≠ c → (coreRetire c rd v pc u).d.cores[k] = u.d.cores[k])) ∧
  (∀ (u : State) (c : CoreId) (code : Nat) (tval : Word),
    let x := u.d.cores[c]
    let r := (coreExcept c code tval u).d.cores[c]
    r.csr.mepc = x.pc ∧ r.csr.mcause = BitVec.ofNat 32 code ∧ r.csr.mtval = tval ∧ r.mach = true ∧
    r.pc = x.csr.mtvec &&& 0xFFFFFFFC ∧ r.regs = x.regs ∧ r.csr.mstatus.getLsbD 3 = false ∧
    r.csr.mstatus.getLsbD 7 = x.csr.mstatus.getLsbD 3 ∧ fld r.csr.mstatus 11 2 = (if x.mach then 3 else 0) ∧
    (coreExcept c code tval u).ram = u.ram ∧ (∀ k, k ≠ c → (coreExcept c code tval u).d.cores[k] = u.d.cores[k])) ∧
  (∀ x : Core, x.mret.pc = x.csr.mepc ∧ x.mret.mach = decide (fld x.csr.mstatus 11 2 = 3) ∧
    x.mret.csr.mstatus.getLsbD 3 = x.csr.mstatus.getLsbD 7 ∧ x.mret.csr.mstatus.getLsbD 7 = true ∧
    fld x.mret.csr.mstatus 11 2 = 0 ∧ x.mret.regs = x.regs) ∧
  (∀ (s t : State) (c : CoreId) (u : List BitErr) (w : Word) (len : Nat), s.d.coreRuns c → s.fetches c u w len t →
    let x := t.d.cores[c]
    let next := (s.d.cores[c]).pc + BitVec.ofNat 32 len
    let a := x.reg (iRs1 w)
    let b := x.reg (iRs2 w)
    let ex := exec (.coreInstruction ⟨c, u⟩) s
    (iOp w = 0x37 → ex = done (coreRetire c (iRd w) (immU w) next t)) ∧
    (iOp w = 0x17 → ex = done (coreRetire c (iRd w) (x.pc + immU w) next t)) ∧
    (iOp w = 0x6F → ex = done (coreRetire c (iRd w) next (x.pc + immJ w) t)) ∧
    (iOp w = 0x67 → iF3 w = 0 → ex = done (coreRetire c (iRd w) next (clrBit (a + immI w) 0) t)) ∧
    (∀ taken, iOp w = 0x63 → branchTaken (iF3 w) a b = some taken →
      ex = done (coreRetire c 0 0 (if taken then x.pc + immB w else next) t)) ∧
    (∀ v, iOp w = 0x13 → aluImm w a = some v → ex = done (coreRetire c (iRd w) v next t)) ∧
    (∀ v, iOp w = 0x33 → aluReg (iF7 w) (iF3 w) a b = some v → ex = done (coreRetire c (iRd w) v next t)) ∧
    (iOp w = 0x33 → aluReg (iF7 w) (iF3 w) a b = none → ex = done (coreExcept c 2 w t)) ∧
    (w = 0x00000073 → ex = done (coreExcept c (if x.mach then 11 else 8) 0 t)) ∧
    (w = 0x30200073 → x.mach = true → ex = done { t with d := t.d.modCore c Core.mret }) ∧
    (w = 0x30200073 → x.mach = false → ex = done (coreExcept c 2 w t)) ∧
    (∀ old, iOp w = 0x73 → iF3 w % 4 ≠ 0 → classOf w = .other → t.d.csrRead c (iCsr w) = some old →
      x.mayCsr (iCsr w) (csrWrites w) = true → csrWrites w = false → ex = done (coreRetire c (iRd w) old next t)) ∧
    (u = [] →
      (classOf w = .fence → exec (.coreFence c) s = done (coreRetire c 0 0 next t)) ∧
      (classOf w = .fenceI → exec (.coreFenceI c) s =
      done (coreRetire c 0 0 next { t with d := t.d.modCore c fun y => { y with pf := none } })) ∧
      (w = 0x10500073 → (x.mach = true ∨ x.csr.mstatus.getLsbD 21 = false) →
      exec (.coreWfi c) s = done { t with d := t.d.modCore c fun y => { y.retire 0 0 next with wfi := true } }) ∧
      (w = 0x10500073 → x.mach = false → x.csr.mstatus.getLsbD 21 = true →
      exec (.coreWfi c) s = done (coreExcept c 2 w t)) ∧
      (iOp w = 0x73 → iF3 w = 2 → iCsr w = 0xC01 → (iRs1 w).val = 0 → x.mach = true →
      exec (.coreTimeRead c) s = done (coreRetire c (iRd w) (lo32 t.d.datum.now) next { t with
        d := t.d.modLatch (initOfCore c) fun l => { l with datum := t.d.datum.now } })) ∧
      (iOp w = 0x73 → iF3 w = 1 → iCsr w = 0x7C0 → x.mach = true → exec (.mtimecmpWrite c) s =
      done (let t' := coreRetire c (iRd w) x.csr.mtimecmp next t
        { t' with d := t'.d.modCsr c fun y => { y with mtimecmp := a, mtimecmph := y.heldCmph } })) ∧
      (iOp w = 0x73 → iF3 w = 1 → iCsr w = 0x7CA → x.mach = true → fld a 0 9 < 64 → exec (.mirqclaimWrite c) s =
      done (let t' := coreRetire c (iRd w) (match t.d.claim c with | some n => BitVec.ofNat 32 n | none => 0x800001FF) next t
        { t' with d := t'.d.modCsr c fun y => { y with latch := y.latch &&& ~~~(1#64 <<< fld a 0 9) } }))))

/-- R320, R321, R323, R335, R336: the datum reaches the compare value and the timer interrupt is pending; a core takes
the pending enabled interrupt of highest priority through mtvec, saving pc and MIE; RUN = 1 written by a core in machine mode
starts a core at CORE_ENTRY and RUN = 0 puts it in reset, never the main core; CORE_MSIP sets and clears the software interrupts.
The model's choices in it, and not the spec's rules, are log entries 63 (mtval of an interrupt), 65 (RUN = 0 on a core
whose access is held). -/
def Obligations.CoresStartAndAreInterrupted : Prop :=
  ∀ (s : State) (c : CoreId),
    (s.d.datumCounts = true → s.d.datum.now.toNat ≤ (join64 (s.d.cores[c]).csr.mtimecmph (s.d.cores[c]).csr.mtimecmp).toNat →
      exec (.machineTimerInterrupt c) s = .next (onDev (fun d =>
        d.untilDatum (join64 (d.cores[c]).csr.mtimecmph (d.cores[c]).csr.mtimecmp).toNat) s) ∧
      (s.d.untilDatum (join64 (s.d.cores[c]).csr.mtimecmph (s.d.cores[c]).csr.mtimecmp).toNat).mtip c = true) ∧
    (∀ n, s.d.coreLive c = true → s.d.irqOf c = some n →
      let x := s.d.cores[c]
      answers (exec (.coreInterruptTaken c) s) fun t =>
        let y := t.d.cores[c]
        y.pc = (x.csr.mtvec &&& 0xFFFFFFFC) + BitVec.ofNat 32 (if fld x.csr.mtvec 0 2 = 1 then 4 * n else 0) ∧
        y.mach = true ∧ y.wfi = false ∧ y.resv = none ∧ y.regs = x.regs ∧ y.csr.mepc = x.pc ∧
        y.csr.mcause = BitVec.ofNat 32 (0x80000000 + n) ∧ y.csr.mtval = 0 ∧
        y.csr.mstatus.getLsbD 3 = false ∧ y.csr.mstatus.getLsbD 7 = x.csr.mstatus.getLsbD 3 ∧
        fld y.csr.mstatus 11 2 = (if x.mach then 3 else 0) ∧
        (∀ k, k ≠ c → t.d.cores[k] = s.d.cores[k]) ∧ t.ram = s.ram) ∧
    (∀ (i : Initiator) (v : Word), s.d.mayWrite i (chipPage 11 + 0x1000) → s.d.machineCore i = true →
      answers (exec (.coreCtlWrite i v) s) fun t =>
        (∀ k : CoreId, k ≠ s.d.mainCore → (s.d.cores[k]).retired = false → (s.d.cores[k]).running = false → v.getLsbD k.val = true →
          (t.d.cores[k]).running = true ∧ (t.d.cores[k]).pc = (s.d.cores[k]).entry ∧ (t.d.cores[k]).mach = true) ∧
        (∀ k : CoreId, k ≠ s.d.mainCore → (s.d.cores[k]).retired = false → (s.d.cores[k]).running = true →
          (s.d.cores[k]).held = false → v.getLsbD k.val = false → (t.d.cores[k]).running = false) ∧
        (∀ k : CoreId, (k = s.d.mainCore ∨ (s.d.cores[k]).retired = true ∨ (s.d.cores[k]).running = v.getLsbD k.val) →
          t.d.cores[k] = s.d.cores[k]) ∧
        t.ram = s.ram) ∧
    (∀ (i : Initiator) (v : Word), s.d.mayWrite i (chipPage 11 + 0x1008) → s.d.machineCore i = true →
      answers (exec (.coreMsipWrite i v) s) fun t =>
        (∀ k : CoreId, (t.d.cores[k]).msip = v.getLsbD k.val) ∧ t.ram = s.ram ∧ t.d.ports = s.d.ports)

/-! ### Flash, queues, DMA, mailboxes (chapters 11 and 12) -/

/-- R338 to R345, R347: a GO that R342 refuses leaves STATUS and nothing else, one of a busy controller GOIGN; an accepted
PROGRAM or ERASE starts, ends DONE or goes on to its next pulse, FAILED after 160, and at its end what waits for the flash
goes on, as at a SUSPEND; SUSPEND and RESUME; FLASH_WP bits only set. A data read gives what is stored, the poison word in a
HALF or suspended block, corrects a single-bit error and charges it, gives a bus error on a double-bit error, and is held
while its bank is busy.
The model's choices in it, and not the spec's rules, are log entries 67 (start, end and order of refusals), 68 (bit
errors are an operand). -/
def Obligations.FlashOperationsFollowTheirRules : Prop :=
  (∀ (s : State) (i : Initiator) (v : Word),
    let f := s.d.flash
    let page := fun (c : Instr) (g : Flash) => exec c s = .next (onDevW (fun d => ({ d with flash := g }).answer i .done) s)
    (s.d.mayWrite i (chipPage 0) →
      let f1 : Flash := { f with cmdOp := 1, src := false }
      let f2 : Flash := { f with cmdOp := 2, src := false }
      (∀ c ∈ [Instr.flashProgram i v, .flashErase i v],
        (v.getLsbD 2 = false → page c { f with cmdOp := fld v 0 2 }) ∧
        (v.getLsbD 2 = true → f.status = 1 ∨ f.status = 2 → page c { f with cmdOp := fld v 0 2, flags := f.flags ||| 16 }) ∧
        (v.getLsbD 2 = true → f.status ≠ 1 → f.status ≠ 2 → fld v 0 2 ≠ 1 → fld v 0 2 ≠ 2 →
          page c { f with cmdOp := fld v 0 2 })) ∧
      (v.getLsbD 2 = true → f.status ≠ 1 → f.status ≠ 2 →
        (fld v 0 2 = 1 →
          (f1.refusal 1 f.addr.toNat true = none → page (.flashProgram i v) { f1 with
            op := .program f.addr.toNat, prog := f.addr.toNat :: f.prog, status := 1
            mem := memWrite 0xFF f.mem f.addr.toNat (padTo 16 (bytesOf32 f.data.toList)) }) ∧
          (∀ st, f1.refusal 1 f.addr.toNat true = some st → st ≠ 4 → page (.flashProgram i v) { f1 with status := st }) ∧
          (f1.refusal 1 f.addr.toNat true = some 4 →
            page (.flashProgram i v) { f1 with status := 4, flags := f.flags ||| 1 })) ∧
        (fld v 0 2 = 2 →
          (f2.refusal 2 f.addr.toNat true = none → page (.flashErase i v) (f2.erase (flashBlk f.addr.toNat) s.d.now)) ∧
          (∀ st, f2.refusal 2 f.addr.toNat true = some st → st ≠ 4 → page (.flashErase i v) { f2 with status := st })))) ∧
    (s.d.mayWrite i (chipPage 0 + 0x18) → ∀ b n t,
      (f.op = .erase b n t → v.getLsbD 0 = true → v.getLsbD 1 = false →
        let g : Flash := { f with op := .suspended b n, status := 2, suspends := (f.suspends + 1) % 65536 }
        let x : State := State.flashGoOn { s with d := { s.begun.d with flash := g } } none
        exec (.flashSuspend i v) s = .next (finish { x with d := x.d.answer i .done })) ∧
      (f.op = .erase b n t → v.getLsbD 0 = false → page (.flashSuspend i v) f ∧ page (.flashResume i v) f) ∧
      (f.op = .suspended b n → v.getLsbD 1 = true → page (.flashResume i v) { f with op := .erase b n s.d.now, status := 1 }) ∧
      (f.op = .idle → page (.flashSuspend i v) f ∧ page (.flashResume i v) f)) ∧
    (∀ n : Fin 4, s.d.mayWrite i (chipPage 0 + 0x40 + 4 * n.val) →
      page (.flashWpWrite i n v) { f with wp := f.wp.set n (f.wp[n] ||| v) })) ∧
  (∀ (s : State) (a b n t : Nat),
    (s.d.flash.op = .program a → exec .flashProgramDone s = .next (finish (canNext (State.flashGoOn { s with
      d := { s.begun.d with flash := { s.d.flash with op := .idle, status := 3 } } } (some false))))) ∧
    ((∀ a, s.d.flash.op ≠ .program a) → exec .flashProgramDone s = .next s) ∧
    ((∀ b n t, s.d.flash.op ≠ .erase b n t) → ∀ ok, exec (.flashErasePulseEnd ok) s = .next s) ∧
    (s.d.upd.job = none → ∀ e, s.flashGoOn e = { s with d := (s.d.engGo s.ram).otpTake s.ram }) ∧
    (s.d.flash.op = .erase b n t →
      let d := s.begun.d.until_ (t + 100000)
      let ends := fun (g : Flash) => .next (finish (canNext (State.flashGoOn { s with d := { d with flash := g } } (some true))))
      exec (.flashErasePulseEnd true) s = ends { d.flash.erased b with op := .idle, status := 3 } ∧
      (160 ≤ n + 1 → exec (.flashErasePulseEnd false) s =
        ends { d.flash with op := .idle, status := 9, half := b :: d.flash.half.filter fun x => x ≠ b }) ∧
      (n + 1 < 160 → exec (.flashErasePulseEnd false) s = .next (finish { s with
        d := { d with flash := { d.flash with op := .erase b (n + 1) d.now } } })))) ∧
  (∀ (s : State) (i : Initiator) (a : Word) (u : List BitErr),
    let x := s.upset u
    let w := a.toNat / 4 * 4
    let f := x.d.flash
    let v : Word := BitVec.ofNat 32 (bytesNat (f.bytes w 4))
    let makes := fun (g : Dev → Dev) => exec (.flashRead i a u) s = .next (onDevW g x)
    (inFlash a.toNat = false → exec (.flashRead i a u) s = .next s) ∧
    (inFlash a.toNat = true → s.d.initReady i = true → x.d.mayRead i w →
      (f.busyBank = some (flashBlk w / 64) → makes fun d => d.hold i w 4 none) ∧
      (f.busyBank ≠ some (flashBlk w / 64) →
        (f.poisoned (flashBlk w) = true → v = 0xDEADE5E5 ∧ makes fun d =>
          ({ d with flash := { d.flash with flags := d.flash.flags ||| 2, errAddr := BitVec.ofNat 32 w } }).answer i (.data v)) ∧
        (f.poisoned (flashBlk w) = false →
          (f.errAt w = none → makes fun d => d.answer i (.data v)) ∧
          (f.errAt w = some false → makes fun d => (({ d with flash := { d.flash with
            flags := d.flash.flags ||| 4, ecc1cnt := d.flash.ecc1cnt + 1 } }).charge .flash 2).answer i (.data v)) ∧
          (f.errAt w = some true → makes fun d => (({ d with flash := { d.flash with
            flags := d.flash.flags ||| 8, errAddr := BitVec.ofNat 32 w } }).charge .flash 3).answer i .error)))))

/-- R349 to R358, R372 to R374: a word pushed to a queue that is not full enters at its end, with its mark; a full queue
holds the write; DISCARD throws words away up to the end mark. A read takes the head word, or the idle word; one wrong bit
is corrected and charged, two give 0 with ERR and ECC2. FLUSH and EN = 0 empty the queue, and EN = 0 fails the pushes that
are held on it; EN = 1 and a new configuration are refused with CFGBAD where R350 says so. A mailbox lock goes to
the first reader and back by its owner; a message is posted to an empty mailbox and taken once; TAKEN clears for its
sender alone.
The model's choices in it, and not the spec's rules, are log entries 62 (the rows are accesses), 68 (bit errors are an
operand), 70 (EN = 0 always flushes). -/
def Obligations.QueuesAndMailboxesKeepTheirOrder : Prop :=
  (∀ (s : State) (i : Initiator) (q : QueueId) (v : Word), s.d.pageAnswers (regionOfQueue q) 0 →
    let x := s.d.queue q
    let w := join64 v (s.d.latch[i]).qwr
    let put := fun (c : Instr) (f : Queue → Queue) => exec c s = .next (onDevW (fun d => (d.modQueue q f).answer i .done) s)
    (x.en = true →
      (s.d.mayWrite i (queReg q 0x20) → exec (.queWrLo i q v) s = .next (onDevW (fun d =>
        (d.modLatch i fun l => { l with qwr := v }).answer i .done) s)) ∧
      (∀ eop : Bool, s.d.mayWrite i (queReg q (if eop then 0x28 else 0x24)) →
        let c := if eop then Instr.queWrendHi i q v else .queWrHi i q v
        (x.discard = true → put c fun x => { x with discard := !eop, lastEop := eop }) ∧
        (x.discard = false → x.words.length < 2 ^ x.depth → put c fun x => { x with
          words := x.words ++ [{ data := w, eop }], wptr := (x.wptr + 1) % 2 ^ (x.depth + 1)
          pktcnt := x.pktcnt + (if eop then 1 else 0), lastEop := eop }) ∧
        (x.discard = false → 2 ^ x.depth ≤ x.words.length → exec c s =
          .next (onDevW (fun d => d.hold i (queReg q (if eop then 0x28 else 0x24)) 4 (some v)) s))) ∧
      (∀ u : List BitErr, let y := s.upset u
        s.d.initReady i = true → y.d.mayRead i (queReg q 0x30) → y.d.pageAnswers (regionOfQueue q) 0 → (y.d.queue q).en = true →
        let took := fun (x : Queue) (h : QWord) (l : List QWord) => { x with
          words := l, rptr := (x.rptr + 1) % 2 ^ (x.depth + 1), pktcnt := x.pktcnt - (if h.eop then 1 else 0) }
        let bank := Charged.unit (.queueBank (regionOfQueue q) (y.d.queue q).headBank)
        let makes := fun (f : Dev → Dev) (k : Latches → Latches) (w : Word) => exec (.queRdLo i q u) s =
          .next (onDevW (fun d => ((f d).modLatch i k).answer i (.data w)) y)
        (∀ h l, (y.d.queue q).words = h :: l →
          (h.err = none → makes (fun d => d.modQueue q fun x => took x h l)
            (fun k => { k with qhi := hi32 h.data, qeop := h.eop, qempty := false, qerr := false }) (lo32 h.data)) ∧
          (h.err = some false → makes (fun d => (d.modQueue q fun x => took x h l).charge bank 2)
            (fun k => { k with qhi := hi32 h.data, qeop := h.eop, qempty := false, qerr := false }) (lo32 h.data)) ∧
          (h.err = some true → makes (fun d => (d.modQueue q fun x => { took x h l with ecc2 := true }).charge bank 3)
            (fun k => { k with qhi := 0, qeop := h.eop, qempty := false, qerr := true }) 0)) ∧
        ((y.d.queue q).words = [] → makes id
          (fun k => { k with qhi := 0x1D1E1D1E, qeop := false, qempty := true, qerr := false }) 0x1D1E1D1E))) ∧
    (s.d.mayWrite i (queReg q 0x24) → x.en = false →
      exec (.queWrHi i q v) s = .next (onDevW (fun d => d.answer i .error) s)) ∧
    (s.d.mayWrite i (queReg q 0x04) →
      let empty := fun (x : Queue) => { x with words := [], rptr := x.wptr, pktcnt := 0, flushed := true, lastEop := true
                                               pktie := v.getLsbD 2, lowie := v.getLsbD 3 }
      (v.getLsbD 0 = true → v.getLsbD 1 = true → x.en = true →
        put (.queFlush i q v) fun x => { empty x with discard := x.discard || !x.lastEop }) ∧
      (v.getLsbD 0 = false → v.getLsbD 1 = false → exec (.queCtlEnWrite i q v) s = .next (onDevW (fun d =>
        ((d.modQueue q fun x => { empty x with en := false, discard := false }).failPushes q).answer i .done) s)) ∧
      (v.getLsbD 0 = true → v.getLsbD 1 = false → x.en = false →
        ((s.d.regions[regionOfQueue q]).enableRefused (localOfQueue q) = false → put (.queCtlEnWrite i q v) fun x => { x with
          en := true, discard := false, lastEop := true, pktie := v.getLsbD 2, lowie := v.getLsbD 3 }) ∧
        ((s.d.regions[regionOfQueue q]).enableRefused (localOfQueue q) = true → put (.queCtlEnWrite i q v) fun x => { x with
          cfgbad := true, pktie := v.getLsbD 2, lowie := v.getLsbD 3 }))) ∧
    (s.d.mayWrite i (queReg q 0x00) →
      (x.en = true → put (.queCfgWrite i q v) fun x => { x with cfgbad := true }) ∧
      (x.en = false → put (.queCfgWrite i q v) fun x => { x with base := fld v 0 16, depth := fld v 16 4
                                                                 wptr := x.wptr % 2 ^ (fld v 16 4 + 1), rptr := x.rptr % 2 ^ (fld v 16 4 + 1) }))) ∧
  (∀ (s : State) (i : Initiator) (m : Fin 16) (p : Fin 10) (v : Word), mbxParty i = some p →
    let x := s.d.mbx[m]
    let a := chipPage 5 + 0x10 * m.val
    let put := fun (c : Instr) (f : Mbx → Mbx) => exec c s = .next (onDevW (fun d => (d.modMbx m f).answer i .done) s)
    let got := fun (c : Instr) (w : Word) (f : Mbx → Mbx) => exec c s = .next (onDevW (fun d => (d.modMbx m f).answer i (.data w)) s)
    (s.d.mayRead i a →
      (x.owner = none → got (.mbxLockRead i m) 0 fun x => { x with owner := some p }) ∧
      (x.owner = some p → got (.mbxLockRead i m) 0 fun x => x) ∧
      (∀ o, x.owner = some o → o ≠ p → got (.mbxLockRead i m) (BitVec.ofNat 32 (o.val + 1)) fun x => x)) ∧
    (s.d.mayWrite i a →
      (x.owner = some p → v = 0 → put (.mbxLockWrite i m v) fun x => { x with owner := none }) ∧
      (x.owner ≠ some p → put (.mbxLockWrite i m v) fun x => { x with lockerr := true })) ∧
    (s.d.mayWrite i (a + 4) →
      (x.full = true → put (.mbxMsgWrite i m v) fun x => { x with postfail := true }) ∧
      (x.full = false → (8 ≤ p.val ∨ m.val < 12) →
        put (.mbxMsgWrite i m v) fun x => { x with msg := v, full := true, sender := p.val }) ∧
      (x.full = false → p.val < 8 → 12 ≤ m.val → exec (.mbxMsgWrite i m v) s = .next (onDevW (fun d =>
        ((d.modMbx m fun x => { x with msg := v, full := true, sender := p.val }).attnCause (m.val - 8)).answer i .done) s))) ∧
    (s.d.mayRead i (a + 8) →
      (x.full = true → (8 ≤ p.val ∨ m.val < 12) →
        got (.mbxTakeRead i m) x.msg fun x => { x with full := false, taken := true }) ∧
      (x.full = true → p.val < 8 → 12 ≤ m.val →
        ((x.sender = 8 ∨ x.sender = 9) → exec (.mbxTakeRead i m) s = .next (onDevW (fun d =>
          ((d.modMbx m fun x => { x with full := false, taken := true }).attnCause (m.val - 4)).answer i (.data x.msg)) s)) ∧
        (x.sender ≠ 8 → x.sender ≠ 9 →
          got (.mbxTakeRead i m) x.msg fun x => { x with full := false, taken := true })) ∧
      (x.full = false → got (.mbxTakeRead i m) 0 fun x => x)) ∧
    (s.d.mayWrite i (a + 12) →
      put (.mbxTakenClear i m v) fun x => { x with
        taken := x.taken && !(v.getLsbD 1 && x.sender == p.val), postfail := x.postfail && !v.getLsbD 2
        lockerr := x.lockerr && !v.getLsbD 3, rxcore := fld v 8 4 }))

/-- R361 to R369, R376: COMMIT of a valid descriptor on an idle channel without flags takes it whole; an invalid one is
refused with BADDESC; on another channel it waits. ABORT of a channel that has nothing to write and no burst in progress ends
the descriptor ABORTED, else the channel goes on to do so. A read burst of the channel whose turn it is moves element by
element from its source into the buffer; a write burst moves them, swapped, to their destination; a bus error ends the
descriptor ERR, a held access leaves the rest of the burst; the last element written ends the descriptor DONE and fires the
channel's event.
The model's choices in it, and not the spec's rules, are log entries 68 (bit errors are an operand), 71 and 72 (how bursts
are cut, the flags at an end, SHADOW_LATE). -/
def Obligations.DmaMovesItsDescriptor : Prop :=
  ∀ (s : State) (r : RegionId) (ch : Fin 8),
    let n := chanNo r ch
    let c := s.d.dma n
    (∀ (i : Initiator) (v : Word), s.d.pageAnswers r 1 →
      (s.d.mayWrite i (regionPage r 1 + 0x40 * ch.val + 0x10) → v.getLsbD 31 = true →
        let sh : Desc := { c.shadow with cfg := v &&& ncfgMask n &&& 0x7FFFFFFF }
        let makes := fun (f : DmaChan → DmaChan) =>
          exec (.dmaCommit i n v) s = .next (onDevW (fun d => (d.shadowWrite n f).answer i .done) s)
        (c.active = none → c.err = false → c.aborted = false → c.baddesc = false →
          (sh.valid = true → makes fun c => { c with
            shadow := sh, commit := false, active := some sh, shown := sh, cnt := sh.cnt, taken := 0, written := 0, buf := []
            readEnd := .open_, aborting := false, crc := 0, rdLeft := 0, wrLeft := 0, issued := false, pushFail := false }) ∧
          (sh.valid = false → makes fun c => { c with shadow := sh, commit := false, baddesc := true })) ∧
        ((c.active ≠ none ∨ c.err = true ∨ c.aborted = true ∨ c.baddesc = true) →
          makes fun c => { c with shadow := sh, commit := true })) ∧
      (s.d.mayWrite i (regionPage r 1 + 0x40 * ch.val + 0x34) → v.getLsbD 0 = true →
        (c.active = none → exec (.dmaAbort i n v) s = .next (onDevW (fun d => d.answer i .done) s)) ∧
        (∀ x, c.active = some x →
          let a : DmaChan := { c with aborting := true, buf := if x.srcKind = 2 then c.buf else c.buf.take c.wrLeft }
          ((a.buf ≠ [] ∨ c.rdLeft ≠ 0) → exec (.dmaAbort i n v) s = .next (onDevW (fun d =>
            (d.modDma n fun _ => a).answer i .done) s)) ∧
          (a.buf = [] → c.rdLeft = 0 → x.wbOn = false → exec (.dmaAbort i n v) s = .next (onDevW (fun d =>
            (d.modDma n fun c => { c with active := none, buf := [], aborting := false, ie := x.ieOn, done := false, err := false
                                          errLast := false, aborted := true, eopstop := false, residue := c.cnt, rdLeft := 0
                                          wrLeft := 0, issued := false, pushFail := false }).answer i .done) s)) ∧
          (a.buf = [] → c.rdLeft = 0 → x.wbOn = true →
            let t := dmaEnd n .aborted { s with d := s.begun.d.modDma n fun _ => a }
            exec (.dmaAbort i n v) s = .next (finish { t with d := t.d.answer i .done }))))) ∧
    (∀ (d : Dev) (f : DmaChan → DmaChan),
      ((d.dma n).handT ≠ some d.now → d.shadowWrite n f = d.modDma n f) ∧
      ((d.dma n).handT = some d.now → d.shadowWrite n f =
        (d.modDma n fun c => { f c with late := c.late || d.freeNow % 2 = 1 }).took)) ∧
    (∀ u : List BitErr,
      let t := s.begun.upset u
      let g := (t.d.regions[r]).dma
      let next := nextChan g.rdTurn fun k => decide (0 < t.d.readBurst r g.chans[k])
      ((t.d.dmaOn r = false ∨ next = none) → exec (.dmaReadBurst ⟨r, u⟩) s = .next (finish t)) ∧
      (t.d.dmaOn r = true → next = some ch →
        let b := dmaReads r n (t.d.readBurst r (t.d.dma n)) t
        exec (.dmaReadBurst ⟨r, u⟩) s = .next (finish { b.1 with d := b.1.d.modRegion r fun g =>
          { g with dma := { g.dma with rdTurn := if b.2 then ch.val + 1 else ch.val } } }))) ∧
    (∀ (k : Nat) (t t' : State) (x : Desc), (t.d.dma n).active = some x →
      (∀ e, elemRead r x (t.d.dma n).taken t = (t', .got e) →
        dmaReads r n (k + 1) t = dmaReads r n k { t' with d := t'.d.modDma n fun c => c.got x e }) ∧
      (∀ a, elemRead r x (t.d.dma n).taken t = (t', .error a) →
        dmaReads r n (k + 1) t = (dmaEnd n (.err a (t'.d.dma n).cnt false) t', true)) ∧
      (elemRead r x (t.d.dma n).taken t = (t', .held) →
        dmaReads r n (k + 1) t = ({ t' with d := t'.d.modDma n fun c => { c with rdLeft := k + 1 } }, false)) ∧
      (∀ w, x.srcKind = 0 → x.elem = 4 → t.busRead (initOfDma r) (x.src.toNat + 4 * (t.d.dma n).taken) 4 false = (t', .data w) →
        elemRead r x (t.d.dma n).taken t = (t', .got { data := w.setWidth 64, eop := false }))) ∧
    (let t := s.begun
     let g := (t.d.regions[r]).dma
     let next := nextChan g.wrTurn fun k => (t.d.writeBurst r g.chans[k]).2
     ((t.d.dmaOn r = false ∨ next = none) → exec (.dmaWriteBurst r) s = .next (finish t)) ∧
     (t.d.dmaOn r = true → next = some ch →
       let b := dmaWrites r n (t.d.writeBurst r (t.d.dma n)).1 t
       let e := if b.2 then dmaFinish r n b.1 else b
       exec (.dmaWriteBurst r) s = .next (finish { e.1 with d := e.1.d.modRegion r fun g =>
         { g with dma := { g.dma with wrTurn := if e.2 then ch.val + 1 else ch.val } } }))) ∧
    (∀ (k : Nat) (t t' : State) (x : Desc) (e : Elem) (l : List Elem) (a : Word), (t.d.dma n).active = some x →
      (t.d.dma n).buf = e :: l →
      let q := (t.d.dma n).issue
      let w := swapElem x.swap e.data
      let out := destWrite r x (Desc.addr x.dstKind x.dst x.elem q.written) x.elem w
        (x.eop && decide (q.cnt = 0) && !x.crcStore) q.pushFail { t with d := t.d.modDma n DmaChan.issue }
      (out = (t', .done, a) → dmaWrites r n (k + 1) t = dmaWrites r n k { t' with d := t'.d.modDma n fun c => { c with
        buf := l, issued := false, written := q.written + 1
        crc := if x.crcOn then crcOn q.crc (natBytes x.elem w.toNat) else q.crc } }) ∧
      (out = (t', .held, a) →
        dmaWrites r n (k + 1) t = ({ t' with d := t'.d.modDma n fun c => { c with wrLeft := k + 1 } }, false)) ∧
      (out = (t', .error, a) → dmaWrites r n (k + 1) t =
        (dmaEnd n (if q.cnt = 0 then .err a 0 true else .err a (q.cnt + 1) false) t', true))) ∧
    (∀ (t : State) (x : Desc) (b : Bool), (t.d.dma n).active = some x → (t.d.dma n).buf = [] → (t.d.dma n).aborting = false →
      x.crcStore = false → x.wbOn = false → (t.d.dma n).commit = false → (t.d.dma n).readEnd = (if b then .eop else .count) →
      let d := t.d.modDma n fun c => { c with
        active := none, buf := [], aborting := false, rdLeft := 0, wrLeft := 0, issued := false, pushFail := false, ie := x.ieOn
        done := true, err := false, errLast := false, aborted := false, eopstop := b, residue := c.cnt }
      dmaFinish r n t = ({ t with d := d.fire [⟨0xC0 + n.val, 0⟩] }, true))

/-! ### Events and timers (chapter 13) -/

/-- R376 to R389, R394, R407: a ball that changes level fires its edge producer, and wakes the module where GPIO_WAKE selects
it; firing a channel stamps it, counts, and sets its latch in every core; the end of a filter window evaluates the held event
with F of the levels at that tick; a timer counts down and at zero reloads, fires ZERO and inverts OUT; START and STOP take
effect on the next datum tick, from which the prescaler counts, and so do FORCE and TMR_GO; a read of CAPT clears CAPT_NEW;
CLR clears the counts.
The model's choices in it, and not the spec's rules, are log entries 66 (forced steps of a timer), 73 (what counts as
one merge). -/
def Obligations.EventsFireAndTimersCount : Prop :=
  (∀ (s : State) (g : Fin 16) (level : Bool),
    let put := fun (e : Events) => { e with gpioExt :=
      if level then e.gpioExt ||| (1#16 <<< g.val) else e.gpioExt &&& ~~~(1#16 <<< g.val) }
    let t : State := { s.begun with d := s.begun.d.gpioChange put 0 }
    let same := t.d.gpioLevel.getLsbD g.val = s.d.gpioLevel.getLsbD g.val
    (same → exec (.gpioEdge g level) s = .next (finish t)) ∧
    (¬ same → t.d.wakes (.gpio g) = none → exec (.gpioEdge g level) s = .next (finish t)) ∧
    (∀ n, ¬ same → t.d.wakes (.gpio g) = some n → exec (.gpioEdge g level) s = .next (finish (t.wakeUp n))) ∧
    (s.d.datumCounts = true → s.d.evt.gpioOe.getLsbD g.val = false → s.d.evt.gpioExt.getLsbD g.val = !level →
      s.d.gpioChange put 0 = ({ s.d with evt := put s.d.evt }).fire [⟨(if level then 0x20 else 0x30) + g.val, 0⟩]) ∧
    ((s.d.datumCounts = false ∨ s.d.evt.gpioOe.getLsbD g.val = true ∨ s.d.evt.gpioExt.getLsbD g.val = level) →
      s.d.gpioChange put 0 = { s.d with evt := put s.d.evt }) ∧
    (∀ d : Dev, d.wakes (.gpio g) =
      if d.pwr.wakecfg.getLsbD 4 = true ∧ d.evt.gpioWake.getLsbD g.val = true ∧ (d.pwr.now = .nap ∨ d.pwr.now = .hold)
      then some 3 else none)) ∧
  (∀ (s : State) (i : Initiator) (hi : Bool) (v : Word), s.d.mayWrite i (chipPage 4 + (if hi then 0x904 else 0x900)) →
    exec (.evtFireWrite i hi v) s = .next (onDevW (fun d => (Dev.afterForward (d.fireChannels
      (((List.range 32).filter fun k => v.getLsbD k).map fun k => Fin.ofNat 64 ((if hi then 32 else 0) + k)))).answer i
        .done) s)) ∧
  (∀ (d : Dev) (n : Fin 64), d.datumCounts = true → (d.evt.ch[n]).cfg.getLsbD 0 = false → (d.evt.ch[n]).fork = [] →
    (∀ m : Fin 64, arrivals (d.evt.ch[m]).src [⟨0x80 + n.val, 1⟩] = none) →
    Dev.afterForward (d.fireChannels [n]) = { d.modEvt n (fun c => { c with t := d.datum.now, fwd := c.fwd + 1 }) with
      cores := vmap d.cores fun c => { c with csr := { c.csr with latch := c.csr.latch ||| (1#64 <<< n.val) } } }) ∧
  (∀ (s : State) (j : Fin 16), (s.d.datumCounts = false ∨ (s.d.evt.lut[j]).heldEvt = none) →
    exec (.lutFilterEnd j) s = .next (onDev id s)) ∧
  (∀ (s : State) (j : Fin 16) n h at_, s.d.datumCounts = true → (s.d.evt.lut[j]).heldEvt = some (n, h, at_) →
    let d := (s.d.until_ at_).modLut j fun x => { x with heldEvt := none }
    ((d.lutEval j).2 = false → exec (.lutFilterEnd j) s = .next (onDev (fun _ => (d.lutEval j).1) s)) ∧
    ((d.lutEval j).2 = true →
      exec (.lutFilterEnd j) s = .next (onDev (fun _ => Dev.afterForward ((d.lutEval j).1.forward n h)) s)) ∧
    ((s.d.evt.lut[j]).cfg.getLsbD 8 = false → (d.lutEval j).2 = d.lutF j) ∧
    ((s.d.evt.lut[j]).cfg.getLsbD 8 = true → (d.lutEval j).2 = (d.lutF j && !(s.d.evt.lut[j]).q))) ∧
  (∀ (s : State) (t : Fin 16),
    (s.d.datumCounts = true → exec (.timerStep t) s = .next (onDev (fun d => d.timerStep t) s)) ∧
    (s.d.datumCounts = false → exec (.timerStep t) s = .next (onDev id s))) ∧
  (∀ (d : Dev) (t : Fin 16),
    let e := d.timerSettle t
    let x := e.timer t
    let ticked := (e.until_ x.nextAt).modTimer t fun y => { y with nextAt := y.nextAt + 2 ^ min y.preRun 24 }
    ((d.timer t).sched = [] → e = d) ∧
    (x.forced = none → x.run = true → x.chainRun = false →
      (x.cnt ≠ 0 → d.timerStep t = ticked.modTimer t fun y => { y with cnt := y.cnt - 1 }) ∧
      (x.cnt = 0 → d.timerStep t = ticked.timerZero t 0)) ∧
    (x.forced = none → (x.run = false ∨ x.chainRun = true) → d.timerStep t = e) ∧
    (∀ h a, x.forced = some (h, a) → (x.run = false ∨ x.chainRun = true) →
      d.timerStep t = ((e.until_ a).modTimer t fun y => { y with forced := none }).timerZero t h) ∧
    (∀ h, t.val % 2 = 1 → d.timerZero t h = (d.modTimer t fun y => { y with
      cnt := y.load, zero := true, out := !y.out, run := y.run && !y.oneshot, reloadT := some d.now }).fire [⟨t.val + 1, h⟩])) ∧
  (∀ (x : Timer) (a now : Nat), x.sched = [(true, a)] →
    (now < a → x.by_ now = x) ∧
    (a ≤ now → x.by_ now = { x with
      sched := [], cnt := x.load, preRun := x.pre, chainRun := x.chain, run := true, nextAt := a + 2 ^ min x.pre 24
      reloadT := some a })) ∧
  (∀ (x : Timer) (a now : Nat), x.sched = [(false, a)] → a ≤ now → x.by_ now = { x with sched := [], run := false }) ∧
  (∀ (s : State) (i : Initiator) (t : Fin 16) (v : Word), s.d.mayWrite i (chipPage 3 + 0x20 * t.val + 0x08) →
    let set := fun (y : Timer) => { y with
      oneshot := v.getLsbD 4, chain := v.getLsbD 5 && decide (t.val % 2 = 1), pre := fld v 8 5, out := v.getLsbD 16 }
    let put := fun (c : Instr) (f : Timer → Timer) =>
      exec c s = .next (onDevW (fun d => ((d.modTimer t set).modTimer t f).answer i .done) s)
    (v.getLsbD 0 = true → v.getLsbD 1 = false → v.getLsbD 2 = false →
      put (.tmrStart i t v) fun y => { y with sched := y.sched ++ [(true, s.d.now + 1)] }) ∧
    (v.getLsbD 0 = false → v.getLsbD 1 = true → v.getLsbD 2 = false →
      put (.tmrStop i t v) fun y => { y with sched := y.sched ++ [(false, s.d.now + 1)] }) ∧
    (v.getLsbD 0 = false → v.getLsbD 1 = false → v.getLsbD 2 = true →
      put (.tmrForce i t v) fun y => { y with forced := some (0, s.d.now + 1) })) ∧
  (∀ (s : State) (i : Initiator) (v : Word), s.d.mayWrite i (chipPage 3 + 0x400) →
    answers (exec (.tmrGoWrite i v) s) fun u => u.ram = s.ram ∧ ∀ t : Fin 16,
      (v.getLsbD t.val = false → u.d.evt.tmr[t] = s.d.evt.tmr[t]) ∧
      (v.getLsbD t.val = true →
        u.d.evt.tmr[t] = { s.d.timer t with sched := (s.d.timer t).sched ++ [(true, s.d.now + 1)] })) ∧
  (∀ (s : State) (i : Initiator) (t : Fin 16), s.d.mayRead i (chipPage 3 + 0x20 * t.val + 0x10) →
    exec (.tmrCaptRead i t) s = .next (onDevW (fun d =>
      (d.modTimer t fun y => { y with captNew := false }).answer i (.data (s.d.timer t).capt)) s)) ∧
  (∀ (s : State) (i : Initiator) (v : Word), s.d.mayWrite i (chipPage 4 + 0x908) → v.getLsbD 0 = true →
    answers (exec (.evtCtlClr i v) s) fun u => u.ram = s.ram ∧ u.d.evt.tmr = s.d.evt.tmr ∧
      (∀ n : Fin 64, u.d.evt.ch[n] = { s.d.evt.ch[n] with merged := 0, fwd := 0 }) ∧
      (∀ j : Fin 16, u.d.evt.lut[j] = { s.d.evt.lut[j] with drops := 0 }) ∧
      (∀ k : Fin 128, u.d.evt.task[k] = { s.d.evt.task[k] with merged := 0 }))

/-! ### RTC, backup domain, power (chapter 14) -/

/-- R397 to R403: a read of RTC_FRAC freezes the reader's shadows and one of RTC_DATE ends the freeze; RTC_CTL takes
effect when it has crossed: HALT, a valid calendar in BCD mode or SET_BAD, BINARY; TIME and DATE are taken under HALT,
ignored and flagged otherwise or while a write crosses; the alarm sets ALARMF, fires producer 0x41 and wakes the module where
PWR_WAKECFG says so; the backup domain
loses its state with its power, records a switch-over, and gets power back.
The model's choices in it, and not the spec's rules, are log entries 13 (the crystal), 74 (HALT before BINARY, arming
of the alarm). -/
def Obligations.RtcKeepsItsTime : Prop :=
  ∀ s : State,
    let r := s.d.rtc
    let page := chipPage 1
    (∀ i : Initiator,
      (s.d.mayRead i page → exec (.rtcFracRead i) s = .next (onDevW (fun d => ({ d with rtc := { d.rtc with
        shadows := d.rtc.shadows.set i (some d.rtc.live) } }).answer i (.data (BitVec.ofNat 32 (r.count % 65536)))) s)) ∧
      (s.d.mayRead i (page + 0xC) → exec (.rtcDateRead i) s = .next (onDevW (fun d => ({ d with rtc := { d.rtc with
        shadows := d.rtc.shadows.set i none } }).answer i (.data ((r.shadows[i]).getD r.live).date)) s))) ∧
    (∀ (i : Initiator) (v : Word),
      let put := fun (c : Instr) (q : Rtc) => exec c s = .next (onDevW (fun d => ({ d with rtc := q }).answer i .done) s)
      (s.d.mayWrite i (page + 0x10) →
        (r.syncbusy = false → ∀ c ∈ [Instr.rtcHaltSet i v, .rtcHaltClear i v, .rtcBinary i v],
          put c { r with crossing := some v, syncbusy := true }) ∧
        (r.syncbusy = true → ∀ c ∈ [Instr.rtcHaltSet i v, .rtcHaltClear i v, .rtcBinary i v], put c { r with setIgnored := true })) ∧
      (s.d.mayWrite i (page + 8) →
        (r.syncbusy = false → r.halt = true → put (.rtcTimeWrite i false v) { r with time := v &&& 0xFFFFFF }) ∧
        ((r.syncbusy = true ∨ r.halt = false) → put (.rtcTimeWrite i false v) { r with setIgnored := true })) ∧
      (s.d.mayWrite i (page + 0xC) → r.syncbusy = false → r.halt = true →
        put (.rtcTimeWrite i true v) { r with date := v &&& 0xFFFFFF })) ∧
    (r.crossing = none → exec .rtcCtlSyncDone s = .next (onDev id s)) ∧
    (∀ v : Word, r.crossing = some v →
      let idle : Rtc := { r with crossing := none, syncbusy := false }
      let al := if v.getLsbD 2 = true ∧ r.alarmen = true then idle else ({ idle with alarmen := v.getLsbD 2 }).arm
      let put := fun (q : Rtc) => exec .rtcCtlSyncDone s = .next (onDev (fun d => { d with
        rtc := if v.getLsbD 1 then { q with mode := false } else q }) s)
      (v.getLsbD 0 = true → put { al with halt := true }) ∧
      (v.getLsbD 0 = false → r.halt = false → put al) ∧
      (v.getLsbD 0 = false → r.halt = true → calendarOk r.time r.date = true →
        put { al with halt := false, mode := true, phase := r.count % 65536 }) ∧
      (v.getLsbD 0 = false → r.halt = true → calendarOk r.time r.date = false → put { al with setBad := true }) ∧
      (∀ q : Rtc, q.arm = { q with armed := q.alarmen && decide (q.count / 65536 < q.alarm.toNat) })) ∧
    (∀ inp,
      ((r.alarmen = false ∨ r.powered = false) → exec (.rtcAlarm inp) s = .next s) ∧
      (r.alarmen = true → r.powered = true →
        let d := s.begun.d.untilRtc (if r.armed then r.alarm.toNat * 65536 else r.alarm.toNat * 65536 + 2 ^ 48)
        let t : State := { s with d := ({ d with rtc := { d.rtc with alarmf := true, armed := false } }).fire [⟨0x41, 0⟩] }
        (t.d.pwr.wakecfg.getLsbD 2 = false → exec (.rtcAlarm inp) s = .next (finish t)) ∧
        (t.d.pwr.wakecfg.getLsbD 2 = true → exec (.rtcAlarm inp) s = .next (finish (wake 2 inp t))))) ∧
    (r.powered = true → exec .backupPowerLoss s = .next (onDev (fun d => { d with rtc :=
      { powered := false, onVbat := d.rtc.onVbat, shadows := d.rtc.shadows } }) s)) ∧
    (r.powered = true → r.onVbat = false →
      (r.firstswv = false → exec .backupSwitchOver s = .next (onDev (fun d => { d with rtc := { d.rtc with
        onVbat := true, swcount := min 255 (r.swcount + 1), firstswv := true, firstsw := BitVec.ofNat 32 (r.count / 65536) } }) s)) ∧
      (r.firstswv = true → exec .backupSwitchOver s = .next (onDev (fun d => { d with rtc := { d.rtc with
        onVbat := true, swcount := min 255 (r.swcount + 1) } }) s))) ∧
    exec .backupPowerReturn s = .next (onDev (fun d => { d with rtc := { d.rtc with powered := true, onVbat := false } }) s)

/-- R406, R408 to R413, R417: REQ acts in its power states alone; HOLD and STANDBY are refused with ENTRY_REFUSED while
R408 forbids them; domains sleep and wake in rising order; VSET, PACE and VCEIL are refused with VCTL_REFUSED where R412
says so, else VCORE moves; the loop adds boost, then drops PACENOW, and takes them back once the margin has held.
The model's choices in it, and not the spec's rules, are log entries 32 and 33 (what the states keep), 34 (when
PWR_REQ acts), 35 (pace comes back before boost). -/
def Obligations.PowerIsAskedForAndMeasured : Prop :=
  ∀ s : State,
    (∀ (i : Initiator) (v : Word), s.d.mayWrite i (chipPage 2) →
      let put := fun (c : Instr) (f : Dev → Dev) => exec c s = .next (onDevW (fun d => (f d).answer i .done) s)
      (s.d.pwr.phase = .up →
        (fld v 0 3 = 1 → s.d.pwr.now = .nap → put (.pwrReqRun i v) fun d => d.leaveNap 8) ∧
        (fld v 0 3 = 2 → s.d.pwr.now = .on → put (.pwrReqNap i v) Dev.enterNap) ∧
        (fld v 0 3 = 3 → s.d.entryRefused = false → put (.pwrReqHold i v) Dev.enterHold) ∧
        (fld v 0 3 = 3 → s.d.entryRefused = true → put (.pwrReqHold i v) fun d =>
          { d with pwr := { d.pwr with flag := d.pwr.flag ||| 8 } }) ∧
        (fld v 0 3 = 4 → s.d.entryRefused = true → put (.pwrReqStandby i v) fun d =>
          { d with pwr := { d.pwr with flag := d.pwr.flag ||| 8 } }) ∧
        (fld v 0 3 = 4 → s.d.entryRefused = false → answers (exec (.pwrReqStandby i v) s) fun t =>
          t.ram = [] ∧ t.d.pwr.now = .standby ∧ t.d.rtc.entry = some (s.d.datum.now.toNat, s.d.rtc.count) ∧
          (s.d.otp.run = none → t.d.otp.cust = s.d.otp.cust) ∧ (∀ c : CoreId, (t.d.cores[c]).running = false))) ∧
      (s.d.pwr.phase ≠ .up → ∀ c ∈ [Instr.pwrReqRun i v, .pwrReqNap i v, .pwrReqHold i v, .pwrReqStandby i v], put c fun d => d)) ∧
    (∀ (i : Initiator) (r : RegionId) (v : Word),
      let p := (s.d.regions[r]).pwr
      let put := fun (c : Instr) (f : RegPower → RegPower) =>
        exec c s = .next (onDevW (fun d => (d.modRegPwr r f).answer i .done) s)
      let refused := fun (c : Instr) =>
        exec c s = .next (onDevW (fun d => ({ d with pwr := { d.pwr with flag := d.pwr.flag ||| 1 } }).answer i .done) s)
      (s.d.mayWrite i (chipPage 2 + 0x10 + 4 * r.val) → exec (.pwrDomsleepWrite i r v) s = .next (onDevW (fun d =>
        ((List.range 10).foldl (fun d k => d.setDomain r k (v.getLsbD k)) d).answer i .done) s)) ∧
      (s.d.mayWrite i (chipPage 2 + 0x50 + 4 * r.val) → let x := fld v 0 5
        (p.vceil < x ∨ 30 < x ∨ (x < p.vset ∧ x < vsetCode p.pace) → refused (.pwrVsetWrite i r v)) ∧
        (x ≤ p.vceil → x ≤ 30 → (p.vset ≤ x ∨ vsetCode p.pace ≤ x) → p.boost = 0 → x ≠ p.vset →
          put (.pwrVsetWrite i r v) fun p => { p with vnow := p.at_ s.d.now, vStart := s.d.now, vset := x })) ∧
      (s.d.mayWrite i (chipPage 2 + 0x60 + 4 * r.val) → let x := fld v 0 3
        (p.pace < x → (p.vset < vsetCode x ∨ p.busy s.d.now = true) → refused (.pwrPaceWrite i r v)) ∧
        (x ≤ p.pace → p.paceNow = p.pace → exec (.pwrPaceWrite i r v) s = .next (onDevW (fun d =>
          ((d.modRegPwr r fun p => { p with pace := x, paceNow := x }).serveLanes r).answer i .done) s))) ∧
      (s.d.mayWrite i (chipPage 2 + 0x70 + 4 * r.val) → let x := fld v 0 5
        (x < p.vset → refused (.pwrVceilWrite i r v)) ∧
        (p.vset ≤ x → p.boost = 0 → put (.pwrVceilWrite i r v) fun p => { p with vceil := x }))) ∧
    (∀ r : RegionId,
      let p := (s.d.regions[r]).pwr
      let put := fun (c : Instr) (f : RegPower → RegPower) => exec c s = .next (onDev (fun d => d.modRegPwr r f) s)
      exec (.vcoreSettled r) s = .next (onDev (fun d => (d.until_ p.arrives).modRegPwr r fun q =>
        { q with vnow := q.at_ (max s.d.now p.arrives), vStart := max s.d.now p.arrives }) s) ∧
      (p.vset + p.boost < min p.vceil 30 → put (.avsMarginLow r) fun q =>
        { q with vnow := q.at_ s.d.now, vStart := s.d.now, boost := q.boost + 1 }) ∧
      (min p.vceil 30 ≤ p.vset + p.boost → 0 < p.paceNow → p.paceNow < p.pace →
        put (.avsPaceStep r) fun q => { q with paceNow := q.paceNow - 1 }) ∧
      (min p.vceil 30 ≤ p.vset + p.boost → 0 < p.paceNow → p.paceNow = p.pace → exec (.avsPaceStep r) s = .next (onDev (fun d =>
        ({ d with pwr := { d.pwr with flag := d.pwr.flag ||| 2 } }).modRegPwr r fun q => { q with paceNow := q.paceNow - 1 }) s)) ∧
      (p.paceNow < p.pace → exec (.avsMarginHeld r) s = .next (onDev (fun d =>
        (d.modRegPwr r fun q => { q with paceNow := q.paceNow + 1 }).serveLanes r) s)) ∧
      (p.pace ≤ p.paceNow → 0 < p.boost → put (.avsMarginHeld r) fun q =>
        { q with vnow := q.at_ s.d.now, vStart := s.d.now, boost := q.boost - 1 }) ∧
      (∀ k : Fin 10,
        let ready := fun (q : RegPower) => { q with waking := q.waking.filter fun x => x ≠ k.val }
        let port := portOf r (Fin.ofNat 6 k.val)
        (p.waking.contains k.val = false → exec (.domainReady r k) s = .next (onDev id s)) ∧
        (p.waking.contains k.val = true → (6 ≤ k.val ∨ (s.d.ports[port]).rx.retired = true) → put (.domainReady r k) ready) ∧
        (p.waking.contains k.val = true → k.val < 6 → (s.d.ports[port]).rx.retired = false →
          exec (.domainReady r k) s = .next (onDev (fun d =>
            (((d.modRegPwr r ready).relock port true).serveCal r).femIdle port) s))))

/-- R335, R404, R405, R407, R416, R417, R454, R458: a start begins when VIN rises through 34 V, when RESETN is released
and when an overvoltage ends, and not while TESTEN is high; the loss of VIN, an overvoltage and RESETN take power from
everything but VKA and the backup domain; step 10 brings the device up and stamps RUN_T; an enabled wake source acts in
the power state that it wakes from, any other does nothing; 2 ms after a wake from HOLD the released cores restart at
CORE_WAKE; temperature, V33OUT and VIN ranges set their flags.
The model's choices in it, and not the spec's rules, are log entries 14 and 15 (where a start stands, VIN and
temperatures), 24 (causes), 32 to 34 (what the states keep). -/
def Obligations.SupplyStartsAndWakes : Prop :=
  ∀ s : State,
    (∀ inp,
      (s.d.pwr.now = .off → s.d.pwr.overvolt = false →
        let d := (s.d.vinIn 340 359).freshRtc
        (s.d.dbg.testen = false → exec (.vinValid inp) s =
          done (Dev.checkBackup (startSequence inp { s with d := d.beginStart 0, ram := [] }) s.d.rtc)) ∧
        (s.d.dbg.testen = true → exec (.vinValid inp) s =
          done (Dev.checkBackup { s with d := d.unpowered .reset, ram := [] } s.d.rtc))) ∧
      ((s.d.pwr.now ≠ .off ∨ s.d.pwr.overvolt = true) → exec (.vinValid inp) s = .next s) ∧
      (s.d.pwr.now ≠ .off → s.d.dbg.testen = false → exec (.resetn inp) s =
        done (startSequence inp { s with d := s.d.freshRtc.beginStart 1, ram := [] })) ∧
      (s.d.pwr.now ≠ .off → s.d.dbg.testen = true → exec (.resetn inp) s =
        done { s with d := s.d.freshRtc.unpowered .reset, ram := [] }) ∧
      (s.d.pwr.overvolt = true →
        let d := (({ s.d with pwr := { s.d.pwr with overvolt := false } } : Dev).vinIn 751 779).freshRtc
        (s.d.dbg.testen = false → exec (.vinOvervoltageEnd inp) s =
          done (startSequence inp { s with d := d.beginStart 0, ram := [] })) ∧
        (s.d.dbg.testen = true → exec (.vinOvervoltageEnd inp) s = done { s with d := d.unpowered .reset, ram := [] })) ∧
      (s.d.pwr.overvolt = false → exec (.vinOvervoltageEnd inp) s = .next s) ∧
      (∀ d : Dev, (320 ≤ d.pwr.vin ∧ d.pwr.vin < 360 → d.vinFlag.pwr.flag = d.pwr.flag ||| 16) ∧
        (750 < d.pwr.vin ∧ d.pwr.vin ≤ 820 → d.vinFlag.pwr.flag = d.pwr.flag ||| 32)) ∧
      (∀ k, s.d.pwr.now = .on → s.d.pwr.phase = .starting k → k < 10 → exec (.runReached inp) s =
        .next (finish (Dev.unlessDead (fun d => { d with
          pwr := { d.pwr with phase := .up, runT := d.datum.now }, att := { d.att with last := d.rtc.count } })
          (startSequence inp s.begun)))) ∧
      ((s.d.pwr.now ≠ .on ∨ (∀ k, s.d.pwr.phase ≠ .starting k)) → exec (.runReached inp) s = .next s) ∧
      (s.d.pwr.now = .on → s.d.pwr.phase = .starting 10 → exec (.runReached inp) s = .next (onDevW (fun d => { d with
        pwr := { d.pwr with phase := .up, runT := d.datum.now }, att := { d.att with last := d.rtc.count } }) s)) ∧
      (∀ src, s.d.wakes src = none → exec (.wakeEvent src inp) s = .next s) ∧
      (∀ src n, s.d.wakes src = some n → s.d.pwr.now = .nap →
        exec (.wakeEvent src inp) s = .next (onDevW (fun d => d.leaveNap n) s)) ∧
      (∀ src n, s.d.wakes src = some n → s.d.pwr.now = .hold → exec (.wakeEvent src inp) s = done (wakeHold n s.begun)) ∧
      (∀ src n, s.d.wakes src = some n → s.d.pwr.now = .standby → exec (.wakeEvent src inp) s = done (wakeStandby n inp s.begun))) ∧
    (∀ c ∈ [Instr.vinDrop, .vinOvervoltage, .resetnAssert], s.d.pwr.now ≠ .off → answers (exec c s) fun t =>
      t.ram = [] ∧ t.d.pwr.now = (if c = .resetnAssert then .reset else .off) ∧ (∀ k : CoreId, (t.d.cores[k]).running = false) ∧
      t.d.rtc.count = s.d.rtc.count ∧ t.d.rtc.powered = s.d.rtc.powered ∧ (s.d.otp.run = none → t.d.otp.cust = s.d.otp.cust) ∧
      t.d.cfg.mem = s.d.cfg.mem ∧ (s.d.flash.op = .idle → t.d.flash.mem = s.d.flash.mem)) ∧
    (s.d.pwr.restartAt = none → exec .holdWakeCoreRestart s = .next (onDev id s)) ∧
    (∀ at_, s.d.pwr.restartAt = some at_ → exec .holdWakeCoreRestart s = .next (onDev (fun d =>
      (List.finRange 8).foldl (fun d c => d.restartCore c)
        { d.until_ at_ with pwr := { (d.until_ at_).pwr with restartAt := none } }) s)) ∧
    (∀ (d : Dev) (c : CoreId), (d.cores[c]).released = true → (d.cores[c]).retired = false → (d.cores[c]).wake ≠ 0 →
      ((d.restartCore c).cores[c]).pc = (d.cores[c]).wake ∧ ((d.restartCore c).cores[c]).running = true ∧
      ((d.restartCore c).cores[c]).regs[(11 : Fin 32)] = 1) ∧
    (∀ t : Int, exec (.tempHigh t) s = .next (onDev (fun d => { d with pwr := { d.pwr with
      temp := t, flag := if 105 < t then d.pwr.flag ||| 64 else d.pwr.flag } }) s)) ∧
    (let powered := s.d.pwr.out33 = true ∧ (s.d.pwr.now = .on ∨ s.d.pwr.now = .nap ∨ s.d.pwr.now = .hold)
     (powered → exec .out33Overload s = .next (onDev (fun d => { d with pwr := { d.pwr with
       overload := true, flag := d.pwr.flag ||| 128 } }) s)) ∧
     (¬ powered → exec .out33Overload s = .next (onDev id s))) ∧
    exec .v33outRecovery s = .next (onDev (fun d => { d with pwr := { d.pwr with overload := false } }) s) ∧
    (∀ high, s.d.pwr.now ≠ .off → answers (exec (.vinRangeFlag high) s) fun t =>
      t.d.pwr.flag = s.d.pwr.flag ||| (if high then 32 else 16) ∧
      (if high then 750 < t.d.pwr.vin ∧ t.d.pwr.vin ≤ 820 else 320 ≤ t.d.pwr.vin ∧ t.d.pwr.vin < 360) ∧ t.ram = s.ram)

/-! ### Accesses and handshakes (chapters 1 and 15) -/

/-- R8, R10, R15, R16, R28, R35, R326, R410, R420: a write of a register is made when its initiator can make one: PMP that
denies it, a retired region or port, and a sleeping domain whose DOMERR bit is set give a bus error; a sleeping domain without
it holds the access and wakes. A held access whose reason has ended is made again, one of those on its target that the
crossbars grant first; a push whose queue has been disabled fails. A handshake that times out is a failure of its target, and
so is its retry; the access that it served is made again, or ends with a bus error where the retry fails too.
The model's choices in it, and not the spec's rules, are log entries 34 (a waking domain answers as a sleeping one), 37 (held
accesses of a core), 62 (the row is an access: PMP gives a bus error), 86 (the crossbars). -/
def Obligations.AccessesCompleteFailOrAreHeld : Prop :=
  ∀ (s : State) (i : Initiator),
    (∀ (a v : Word),
      let b := a.toNat / 4 * 4
      let ex := exec (.registerWrite i a v) s
      (s.d.initReady i = false → ex = .next s) ∧
      (s.d.initReady i = true → s.d.initMay i b true = false → ex = .next (onDevW (fun d => d.answer i .error) s)) ∧
      (s.d.mayWrite i b → ∀ (p : PortId) (o : Nat), winOf b = .port p o →
        ((s.d.regions[regionOfPort p]).retired = true ∨ (s.d.ports[p]).rx.retired = true →
          ex = .next (onDevW (fun d => d.answer i .error) s)) ∧
        (s.d.portAnswers p → ex = .next (onDevW (fun d => (d.portWrite p o v).answer i .done) s))) ∧
      (s.d.mayWrite i b → ∀ (r : RegionId) (k : Fin 4) (o : Nat), winOf b = .region r k o →
        ((s.d.regions[r]).retired = true → ex = .next (onDevW (fun d => d.answer i .error) s)) ∧
        (∀ dom, (s.d.regions[r]).retired = false → pageDomain k = some dom → s.d.domainAsleep r dom = true →
          ((s.d.regions[r]).pwr.domerr.getLsbD dom = true → ex = .next (onDevW (fun d => d.answer i .error) s)) ∧
          ((s.d.regions[r]).pwr.domerr.getLsbD dom = false → ex = .next (onDevW (fun d =>
            ({ d.setDomain r dom false with pwr := { d.pwr with wakeSrc := 7 } }).hold i b 4 (some v)) s)))) ∧
      (s.d.mayWrite i b → winOf b = .chip 0 4 →
        ex = .next (onDevW (fun d => ({ d with flash := { d.flash with addr := v } }).answer i .done) s))) ∧
    (s.d.heldAt i = none → exec (.heldAccessRelease i) s = .next s) ∧
    (∀ a, s.d.heldAt i = some a →
      let l := s.d.heldOn a
      let g := s.begun.d.arbitrate a l.1 l.2
      (l.2 = [i] → exec (.heldAccessRelease i) s = done (releaseOne i s.begun)) ∧
      (l.2 ≠ [i] → exec (.heldAccessRelease i) s = done (releaseOne (g.2.headD i) { s with d := g.1 })) ∧
      (i ∈ l.2 ∨ (l.1 = true ∧ ctlAccess i a = false))) ∧
    (∀ h : HeldAcc, (s.d.holds.find? fun x => x.init = i) = some h → i ≠ dictInit →
      let t : State := { s with d := { s.d with holds := s.d.holds.filter fun x => x.init ≠ i } }
      (∀ c, coreOf i = some c → (s.d.cores[c]).held = true → (s.d.cores[c]).stopping = false →
        let x : State := { t with d := t.d.modCore c fun y => { y with held := false } }
        releaseOne i s = (if h.failed then coreExcept c 7 h.addr x else coreNext c x)) ∧
      ((∀ c, coreOf i = some c → (s.d.cores[c]).held = false) →
        (h.failed = true → releaseOne i s = { t with d := t.d.answer i .error }) ∧
        (∀ v, h.failed = false → h.value = some v → releaseOne i s = rowWrite i h.addr.toNat v t) ∧
        (h.failed = false → h.value = none → releaseOne i s = rowRead i h.addr.toNat t))) ∧
    (∀ (t : FaultTarget) (ok : Bool) (acc : Option Access),
      (s.d.datumCounts = false → exec (.handshakeTimeout ⟨t, acc⟩ ok) s = .next s) ∧
      (s.d.datumCounts = true →
        let x : State := { s with d := s.begun.d.handshakeTimeout t ok }
        (acc = none → exec (.handshakeTimeout ⟨t, acc⟩ ok) s = done x) ∧
        (∀ a, acc = some a →
          let b := a.addr.toNat / 4 * 4
          let fails := ok = false ∨ x.d.gone t = true ∨ x.d.resetDue = true
          (x.d.initReady a.init = false → exec (.handshakeTimeout ⟨t, acc⟩ ok) s = done x) ∧
          (x.d.initReady a.init = true → fails →
            exec (.handshakeTimeout ⟨t, acc⟩ ok) s = done { x with d := x.d.answer a.init .error }) ∧
          (x.d.initReady a.init = true → ¬ fails →
            (∀ v, a.value = some v → exec (.handshakeTimeout ⟨t, acc⟩ ok) s = done (written a.init b v (x.busWrite a.init b 4 v))) ∧
            (a.value = none → exec (.handshakeTimeout ⟨t, acc⟩ ok) s = done (wasRead a.init b (x.busRead a.init b 4 false))))))) ∧
    (∀ (d : Dev) (t : FaultTarget) (ok : Bool),
      (d.gone t = true → d.handshakeTimeout t ok = d) ∧
      (d.gone t = false → (∀ p n, t ≠ .lane p n) →
        let e := d.charge (.unit t) 1
        ((ok = true ∨ e.gone t = true ∨ e.resetDue = true) → d.handshakeTimeout t ok = e) ∧
        (ok = false → e.gone t = false → e.resetDue = false → d.handshakeTimeout t ok = e.charge (.unit t) 1)))

/-! ### The whole block -/

/-- Every command c in front of the queue runs on the state with the rest of the queue. With nothing waiting the block
lets one datum tick pass (log entry 1, the model's choice). -/
def Obligations.StepTakesTheFrontCommand : Prop :=
  (∀ (s : State) (c : Instr) (l : List Instr), step { s with pending := c :: l } = exec c { s with pending := l }) ∧
  (∀ s : State, s.pending = [] → answers (step s) fun t =>
    t.pending = [] ∧ t.ram = s.ram ∧ t.d.now = s.d.now + 1 ∧ t.d.ports = s.d.ports ∧ t.d.regions = s.d.regions ∧
    t.d.datum.now = (if s.d.datumCounts then s.d.datum.now + 1 else s.d.datum.now))

/-- R182, R193, R296, R320, R331, R336, R348, R349, R361, R416, R444: the machine right after reset: nothing waits, no SRAM
byte is written, the start-up sequence is at step 3 with core 0 alone out of reset (log entry 14, the model's choice of where
reset ends), the datum is 0 and unsynced, compare values are all ones, the flash controller is idle and no update is under
way, every queue stands as R349 says, without a word, no DMA descriptor is active, and the invariant holds. -/
def Obligations.ResetLeavesTheSpecsState : Prop :=
  State.reset.inv ∧ State.reset.pending = [] ∧ State.reset.ram = [] ∧ State.reset.d.pwr.phase = .starting 3 ∧
  State.reset.d.pwr.now = .on ∧ State.reset.d.datum.now = 0 ∧ State.reset.d.datum.unsynced = true ∧
  State.reset.d.tdp.fwctl = 0x32070600 ∧ State.reset.d.flash.status = 0 ∧ State.reset.d.upd.state = 0 ∧
  State.reset.d.upd.holder = none ∧ State.reset.d.trk.seq = false ∧
  (∀ c : CoreId, (State.reset.d.cores[c]).running = decide (c.val = 0) ∧
    (State.reset.d.cores[c]).csr.mtimecmp = 0xFFFFFFFF ∧ (State.reset.d.cores[c]).csr.mtimecmph = 0xFFFFFFFF) ∧
  (∀ q : QueueId, (State.reset.d.queue q).en = true ∧ (State.reset.d.queue q).words = [] ∧
    (State.reset.d.queue q).base = 2048 * (q.val % 32) ∧ (State.reset.d.queue q).depth = 11) ∧
  (∀ n : Fin 32, (State.reset.d.dma n).active = none) ∧
  (∀ p : PortId, (State.reset.d.ports[p]).rx.retired = false ∧ (State.reset.d.ports[p]).tx.interval = none)

/-- R234 and the whole block: from every state whose SRAM is in canonical form, every command but a test-mode instruction
whose scope is open answers a next state whose SRAM is in canonical form, and leaves the queue of commands as it is; a step
of the block keeps the form and takes at most the front command. That one instruction is refused: the spec gives it no
effect.
The model's choices in it, and not the spec's rules, are log entries 1, 2 and 79 (time, events that cannot happen,
test mode). -/
def Obligations.EveryCommandAnswersAndKeepsTheForm : Prop :=
  (∀ (s : State) (c : Instr), s.inv → s.accepts c = true →
    answers (exec c s) fun t => t.inv ∧ t.pending = s.pending) ∧
  (∀ (s : State) (c : Instr), s.accepts c = false → exec c s = .refused .testMode) ∧
  (∀ s t : State, s.inv → step s = .next t → t.inv ∧ t.pending = s.pending.tail)

/-- R44, R48 to R60: what the modulator makes of a sync value, a header and a payload, the demodulator reads back from
the same symbols, with every order, rate and payload form: the sync value, the header with its HCRC, and the payload
bytes with their CRC. -/
def Obligations.FramesDemodulateToWhatWasSent : Prop :=
  ∀ (k : Nat) (h : Header) (bytes : List Byte) (v : Byte), 6 ≤ k → k ≤ 12 → h.len < 256 → h.rate < 4 → bytes.length = h.len →
    headerOf k (headerSymbols k h) = some h ∧
    payloadOf k h (payloadSymbols k h bytes) = bytes ++ (if h.crcp then natBytes 2 (crc16 bytes) else []) ∧
    (h.crcp = true → crcHolds h (payloadOf k h (payloadSymbols k h bytes)) = true) ∧
    (∀ s0 s1, syncSymbols k v = [s0, s1] → syncValue k s0 s1 = v)
end

