-- ==== Sys2Proof/Laws/Rows.lean ====
section
/-! SUPPORT. An access as a command: which register an address names (R32, R34), and what the access leaves, said once
for each kind of page. -/

namespace Sys2Proof.Machine

/-! ### Addresses -/

/-- A port register's address. -/
theorem winOf_port (p : PortId) (o : Nat) (h : o < 0x10000) : winOf (portBase p + o) = .port p o := by
  obtain ⟨p, hp⟩ := p
  have hb : portBase ⟨p, hp⟩ = 0x48000000 + p * 0x10000 := rfl
  rw [hb]
  generalize ha : 0x48000000 + p * 0x10000 + o = a
  have n1 : ¬ a < 0x10000 := by omega
  have n2 : ¬ (0x08000000 ≤ a ∧ a < 0x08800000) := by omega
  have n3 : ¬ (0x20000000 ≤ a ∧ a < 0x20080000) := by omega
  have n4 : ¬ (0x21000000 ≤ a ∧ a < 0x21400000) := by omega
  have n5 : ¬ (0x30000000 ≤ a ∧ a < 0x30040000) := by omega
  have n6 : ¬ (0x40000000 ≤ a ∧ a < 0x400C0000) := by omega
  have n7 : ¬ (0x44000000 ≤ a ∧ a < 0x44400000 ∧ (a - 0x44000000) % 0x100000 < 0x40000) := by omega
  have n8 : 0x48000000 ≤ a ∧ a < 0x48180000 := by omega
  have e1 : (a - 0x48000000) / 0x10000 = p := by omega
  have e2 : (a - 0x48000000) % 0x10000 = o := by omega
  have e3 : Fin.ofNat 24 p = ⟨p, hp⟩ := Fin.ext (Nat.mod_eq_of_lt hp)
  rw [winOf, if_neg n1, if_neg n2, if_neg n3, if_neg n4, if_neg n5, if_neg n6, if_neg n7, if_pos n8, e1, e2, e3]

/-- A region register's address. -/
theorem winOf_region (r : RegionId) (k : Fin 4) (o : Nat) (h : o < 0x10000) :
    winOf (regionPage r k.val + o) = .region r k o := by
  obtain ⟨r, hr⟩ := r
  obtain ⟨k, hk⟩ := k
  have hb : regionPage ⟨r, hr⟩ k = 0x44000000 + r * 0x100000 + k * 0x10000 := rfl
  rw [hb]
  generalize ha : 0x44000000 + r * 0x100000 + k * 0x10000 + o = a
  have n1 : ¬ a < 0x10000 := by omega
  have n2 : ¬ (0x08000000 ≤ a ∧ a < 0x08800000) := by omega
  have n3 : ¬ (0x20000000 ≤ a ∧ a < 0x20080000) := by omega
  have n4 : ¬ (0x21000000 ≤ a ∧ a < 0x21400000) := by omega
  have n5 : ¬ (0x30000000 ≤ a ∧ a < 0x30040000) := by omega
  have n6 : ¬ (0x40000000 ≤ a ∧ a < 0x400C0000) := by omega
  have n7 : 0x44000000 ≤ a ∧ a < 0x44400000 ∧ (a - 0x44000000) % 0x100000 < 0x40000 := by omega
  have e1 : (a - 0x44000000) / 0x100000 = r := by omega
  have e2 : (a - 0x44000000) % 0x100000 / 0x10000 = k := by omega
  have e3 : (a - 0x44000000) % 0x10000 = o := by omega
  have e4 : Fin.ofNat 4 r = ⟨r, hr⟩ := Fin.ext (Nat.mod_eq_of_lt hr)
  have e5 : Fin.ofNat 4 k = ⟨k, hk⟩ := Fin.ext (Nat.mod_eq_of_lt hk)
  rw [winOf, if_neg n1, if_neg n2, if_neg n3, if_neg n4, if_neg n5, if_neg n6, if_pos n7, e1, e2, e3, e4, e5]

/-- A chip register's address. -/
theorem winOf_chip (k : Fin 12) (o : Nat) (h : o < 0x10000) : winOf (chipPage k.val + o) = .chip k o := by
  obtain ⟨k, hk⟩ := k
  have hb : chipPage k = 0x40000000 + k * 0x10000 := rfl
  rw [hb]
  generalize ha : 0x40000000 + k * 0x10000 + o = a
  have n1 : ¬ a < 0x10000 := by omega
  have n2 : ¬ (0x08000000 ≤ a ∧ a < 0x08800000) := by omega
  have n3 : ¬ (0x20000000 ≤ a ∧ a < 0x20080000) := by omega
  have n4 : ¬ (0x21000000 ≤ a ∧ a < 0x21400000) := by omega
  have n5 : ¬ (0x30000000 ≤ a ∧ a < 0x30040000) := by omega
  have n6 : 0x40000000 ≤ a ∧ a < 0x400C0000 := by omega
  have e1 : (a - 0x40000000) / 0x10000 = k := by omega
  have e2 : (a - 0x40000000) % 0x10000 = o := by omega
  have e4 : Fin.ofNat 12 k = ⟨k, hk⟩ := Fin.ext (Nat.mod_eq_of_lt hk)
  rw [winOf, if_neg n1, if_neg n2, if_neg n3, if_neg n4, if_neg n5, if_pos n6, e1, e2, e4]

/-! ### Gates -/

/-- An awake domain lets an access pass. -/
theorem Dev.domainGate_up {d : Dev} {r : RegionId} {k : Nat} (h : d.domainUp r k) : d.domainGate r k = (d, none) := by
  simp only [Dev.domainGate, h.1, h.2]; rfl

/-- A port that answers lets an access pass. -/
theorem Dev.portGate_up {d : Dev} {p : PortId} {o : Nat} {w : Bool} (h : d.portAnswers p) :
    d.portGate p o w = (d, none) := by
  simp only [Dev.portGate, h.1, h.2.1, h.2.2.1, Dev.domainGate_up h.2.2.2]; rfl

/-- A page that answers lets an access pass. -/
theorem Dev.regionGate_up {d : Dev} {r : RegionId} {k : Fin 4} (h : d.pageAnswers r k) : d.regionGate r k = (d, none) := by
  simp only [Dev.regionGate, h.1]
  cases e : pageDomain k with
  | none => rfl
  | some j => simp only [Dev.domainGate_up (h.2 j e)]; rfl

/-! ### One access -/

/-- A command begins with no reset called for. -/
theorem State.begun_portAnswers {s : State} {p : PortId} (h : s.d.portAnswers p) : s.begun.d.portAnswers p := h

/-- The same for a region page. -/
theorem State.begun_pageAnswers {s : State} {r : RegionId} {k : Fin 4} (h : s.d.pageAnswers r k) :
    s.begun.d.pageAnswers r k := h

/-- A write of a port register. -/
theorem rowWrite_port {i : Initiator} {p : PortId} {a o : Nat} {v : Word} {s : State} (hw : winOf a = .port p o)
    (hi : s.d.mayWrite i a) (hp : s.d.portAnswers p) :
    rowWrite i a v s = onDevW (fun d => (d.portWrite p o v).answer i .done) s := by
  have e : s.begun.busWrite i a 4 v = ({ s.begun with d := s.begun.d.portWrite p o v }, .done) := by
    simp [State.busWrite, State.memStore, hw, Dev.portGate_up (State.begun_portAnswers hp)]
  simp [rowWrite, hi.1, hi.2, e, onDevW, written]
  rfl

/-- A write of a region register. -/
theorem rowWrite_region {i : Initiator} {r : RegionId} {k : Fin 4} {a o : Nat} {v : Word} {s : State}
    (hw : winOf a = .region r k o) (hi : s.d.mayWrite i a) (hp : s.d.pageAnswers r k) :
    rowWrite i a v s = finish (written i a v (regionWrite i r k o v s.begun)) := by
  have e : s.begun.busWrite i a 4 v = regionWrite i r k o v s.begun := by
    simp [State.busWrite, State.memStore, hw, Dev.regionGate_up (State.begun_pageAnswers hp)]
  simp [rowWrite, hi.1, hi.2, e, written]

/-- A write of a chip register. -/
theorem rowWrite_chip {i : Initiator} {k : Fin 12} {a o : Nat} {v : Word} {s : State} (hw : winOf a = .chip k o)
    (hi : s.d.mayWrite i a) : rowWrite i a v s = finish (written i a v (chipWrite i k o v s.begun)) := by
  have e : s.begun.busWrite i a 4 v = chipWrite i k o v s.begun := by
    simp [State.busWrite, State.memStore, hw]
  simp [rowWrite, hi.1, hi.2, e, written]

/-- A read of a region register. -/
theorem rowRead_region {i : Initiator} {r : RegionId} {k : Fin 4} {a o : Nat} {s : State}
    (hw : winOf a = .region r k o) (hi : s.d.mayRead i a) (hp : s.d.pageAnswers r k) :
    rowRead i a s =
      finish (let x := s.begun.d.regionRead i r k o; wasRead i a ({ s.begun with d := x.1 }, x.2)) := by
  have e : s.begun.busRead i a 4 false =
      (let x := s.begun.d.regionRead i r k o; ({ s.begun with d := x.1 }, x.2)) := by
    simp [State.busRead, State.memLoad, hw, Dev.regionGate_up (State.begun_pageAnswers hp)]
  simp [rowRead, hi.1, hi.2, e, wasRead]

/-- A read of a chip register. -/
theorem rowRead_chip {i : Initiator} {k : Fin 12} {a o : Nat} {s : State}
    (hw : winOf a = .chip k o) (hi : s.d.mayRead i a) :
    rowRead i a s = finish (let x := s.begun.d.chipRead i k o; wasRead i a ({ s.begun with d := x.1 }, x.2)) := by
  have e : s.begun.busRead i a 4 false =
      (let x := s.begun.d.chipRead i k o; ({ s.begun with d := x.1 }, x.2)) := by
    simp [State.busRead, State.memLoad, hw]
  simp [rowRead, hi.1, hi.2, e, wasRead]

/-- An initiator that cannot make an access changes nothing. -/
theorem rowWrite_notReady {i : Initiator} {a : Nat} {v : Word} {s : State} (h : s.d.initReady i = false) :
    rowWrite i a v s = s := by simp [rowWrite, h]

/-- PMP turns a write away with a bus error (R326). -/
theorem rowWrite_denied {i : Initiator} {a : Nat} {v : Word} {s : State} (h : s.d.initReady i = true)
    (m : s.d.initMay i a true = false) : rowWrite i a v s = onDevW (fun d => d.answer i .error) s := by
  simp [rowWrite, h, m, onDevW, State.begun]

end Sys2Proof.Machine
end

