-- ==== Sys2Proof/Laws/State.lean ====
section
/-! SUPPORT. What each update of the state leaves: one lemma for each field and update. -/

namespace Sys2Proof.Machine

/-! ### Elements of a vector -/

/-- An element that was set. -/
@[simp] theorem vset_self {α : Type} {n : Nat} (v : Vector α n) (i : Fin n) (x : α) : (v.set i x)[i] = x := by simp

/-- Another element stands. -/
theorem vset_ne {α : Type} {n : Nat} (v : Vector α n) (i j : Fin n) (x : α) (h : j ≠ i) : (v.set i x)[j] = v[j] := by
  have h' : i.val ≠ j.val := fun e => h (Fin.ext e.symm)
  simp [h']

/-- Either. -/
theorem vset_get {α : Type} {n : Nat} (v : Vector α n) (i j : Fin n) (x : α) :
    (v.set i x)[j] = if j = i then x else v[j] := by
  by_cases h : j = i
  · subst h; simp
  · simp [vset_ne v i j x h, h]

/-! ### The part that an update changes -/

@[simp] theorem Dev.modPort_ports_self (d : Dev) (p : PortId) (f : Port → Port) : (d.modPort p f).ports[p] = f d.ports[p] :=
  vset_self ..

theorem Dev.modPort_ports_ne (d : Dev) (p q : PortId) (f : Port → Port) (h : q ≠ p) : (d.modPort p f).ports[q] = d.ports[q] :=
  vset_ne _ _ _ _ h

@[simp] theorem Dev.modRegion_regions_self (d : Dev) (r : RegionId) (f : Region → Region) : (d.modRegion r f).regions[r] = f d.regions[r] :=
  vset_self ..

theorem Dev.modRegion_regions_ne (d : Dev) (r q : RegionId) (f : Region → Region) (h : q ≠ r) : (d.modRegion r f).regions[q] = d.regions[q] :=
  vset_ne _ _ _ _ h

@[simp] theorem Dev.modCore_cores_self (d : Dev) (c : CoreId) (f : Core → Core) : (d.modCore c f).cores[c] = f d.cores[c] :=
  vset_self ..

theorem Dev.modCore_cores_ne (d : Dev) (c q : CoreId) (f : Core → Core) (h : q ≠ c) : (d.modCore c f).cores[q] = d.cores[q] :=
  vset_ne _ _ _ _ h

@[simp] theorem Dev.modTrunk_links_self (d : Dev) (l : LinkId) (f : Trunk → Trunk) : (d.modTrunk l f).links[l] = f d.links[l] :=
  vset_self ..

theorem Dev.modTrunk_links_ne (d : Dev) (l q : LinkId) (f : Trunk → Trunk) (h : q ≠ l) : (d.modTrunk l f).links[q] = d.links[q] :=
  vset_ne _ _ _ _ h

@[simp] theorem Dev.modMbx_mbx_self (d : Dev) (m : Fin 16) (f : Mbx → Mbx) : (d.modMbx m f).mbx[m] = f d.mbx[m] :=
  vset_self ..

theorem Dev.modMbx_mbx_ne (d : Dev) (m q : Fin 16) (f : Mbx → Mbx) (h : q ≠ m) : (d.modMbx m f).mbx[q] = d.mbx[q] :=
  vset_ne _ _ _ _ h

@[simp] theorem Dev.modLatch_latch_self (d : Dev) (i : Initiator) (f : Latches → Latches) : (d.modLatch i f).latch[i] = f d.latch[i] :=
  vset_self ..

theorem Dev.modLatch_latch_ne (d : Dev) (i q : Initiator) (f : Latches → Latches) (h : q ≠ i) : (d.modLatch i f).latch[q] = d.latch[q] :=
  vset_ne _ _ _ _ h

@[simp] theorem Dev.modTimer_tmr_self (d : Dev) (t : Fin 16) (f : Timer → Timer) : (d.modTimer t f).evt.tmr[t] = f (d.timer t) :=
  vset_self ..

@[simp] theorem Dev.modEvt_ch_self (d : Dev) (n : Fin 64) (f : EvtChan → EvtChan) : (d.modEvt n f).evt.ch[n] = f d.evt.ch[n] :=
  vset_self ..

@[simp] theorem Dev.modLut_lut_self (d : Dev) (j : Fin 16) (f : Lut → Lut) : (d.modLut j f).evt.lut[j] = f d.evt.lut[j] :=
  vset_self ..

@[simp] theorem Dev.modCarrier_car_self (d : Dev) (c : Carrier) (f : TdpCarrier → TdpCarrier) :
    (d.modCarrier c f).tdp.car[c] = f d.tdp.car[c] := vset_self ..

@[simp] theorem Dev.answer_bus_self (d : Dev) (i : Initiator) (b : BusResult) : (d.answer i b).bus[i] = b := vset_self ..

/-! ### Parts of a port and of a region -/

theorem Dev.modRx_eq (d : Dev) (p : PortId) (f : Rx → Rx) : d.modRx p f = d.modPort p fun q => { q with rx := f q.rx } := rfl
theorem Dev.modSyn_eq (d : Dev) (p : PortId) (f : Synth → Synth) : d.modSyn p f = d.modPort p fun q => { q with syn := f q.syn } := rfl
theorem Dev.modTx_eq (d : Dev) (p : PortId) (f : Tx → Tx) : d.modTx p f = d.modPort p fun q => { q with tx := f q.tx } := rfl
theorem Dev.modTun_eq (d : Dev) (p : PortId) (f : Tuner → Tuner) : d.modTun p f = d.modPort p fun q => { q with tun := f q.tun } := rfl
theorem Dev.modCal_eq (d : Dev) (p : PortId) (f : Cal → Cal) : d.modCal p f = d.modPort p fun q => { q with cal := f q.cal } := rfl
theorem Dev.modSb_eq (d : Dev) (p : PortId) (f : SlotBook → SlotBook) : d.modSb p f = d.modPort p fun q => { q with sb := f q.sb } := rfl
theorem Dev.modLink_eq (d : Dev) (r : RegionId) (f : Link → Link) : d.modLink r f = d.modRegion r fun x => { x with link := f x.link } := rfl
theorem Dev.modCiph_eq (d : Dev) (r : RegionId) (f : Cipher → Cipher) :
    d.modCiph r f = d.modRegion r fun x => { x with cipher := f x.cipher } := rfl
theorem Dev.modSecond_eq (d : Dev) (r : RegionId) (f : Second → Second) :
    d.modSecond r f = d.modRegion r fun x => { x with second := f x.second } := rfl
theorem Dev.modRegFlt_eq (d : Dev) (r : RegionId) (f : RegFault → RegFault) :
    d.modRegFlt r f = d.modRegion r fun x => { x with flt := f x.flt } := rfl
theorem Dev.modRegPwr_eq (d : Dev) (r : RegionId) (f : RegPower → RegPower) :
    d.modRegPwr r f = d.modRegion r fun x => { x with pwr := f x.pwr } := rfl
theorem Dev.modCsr_eq (d : Dev) (c : CoreId) (f : Csrs → Csrs) : d.modCsr c f = d.modCore c fun x => { x with csr := f x.csr } := rfl

/-! ### What an update leaves -/

@[simp] theorem Dev.modPort_now (d : Dev) (p : PortId) (f : Port → Port) : (d.modPort p f).now = d.now := rfl
@[simp] theorem Dev.modPort_freeCtr (d : Dev) (p : PortId) (f : Port → Port) : (d.modPort p f).freeCtr = d.freeCtr := rfl
@[simp] theorem Dev.modPort_regions (d : Dev) (p : PortId) (f : Port → Port) : (d.modPort p f).regions = d.regions := rfl
@[simp] theorem Dev.modPort_datum (d : Dev) (p : PortId) (f : Port → Port) : (d.modPort p f).datum = d.datum := rfl
@[simp] theorem Dev.modPort_cl (d : Dev) (p : PortId) (f : Port → Port) : (d.modPort p f).cl = d.cl := rfl
@[simp] theorem Dev.modPort_latch (d : Dev) (p : PortId) (f : Port → Port) : (d.modPort p f).latch = d.latch := rfl
@[simp] theorem Dev.modPort_bus (d : Dev) (p : PortId) (f : Port → Port) : (d.modPort p f).bus = d.bus := rfl
@[simp] theorem Dev.modPort_holds (d : Dev) (p : PortId) (f : Port → Port) : (d.modPort p f).holds = d.holds := rfl
@[simp] theorem Dev.modPort_xbar (d : Dev) (p : PortId) (f : Port → Port) : (d.modPort p f).xbar = d.xbar := rfl
@[simp] theorem Dev.modPort_errs (d : Dev) (p : PortId) (f : Port → Port) : (d.modPort p f).errs = d.errs := rfl
@[simp] theorem Dev.modPort_keys (d : Dev) (p : PortId) (f : Port → Port) : (d.modPort p f).keys = d.keys := rfl
@[simp] theorem Dev.modPort_otp (d : Dev) (p : PortId) (f : Port → Port) : (d.modPort p f).otp = d.otp := rfl
@[simp] theorem Dev.modPort_att (d : Dev) (p : PortId) (f : Port → Port) : (d.modPort p f).att = d.att := rfl
@[simp] theorem Dev.modPort_hash (d : Dev) (p : PortId) (f : Port → Port) : (d.modPort p f).hash = d.hash := rfl
@[simp] theorem Dev.modPort_eng (d : Dev) (p : PortId) (f : Port → Port) : (d.modPort p f).eng = d.eng := rfl
@[simp] theorem Dev.modPort_drv (d : Dev) (p : PortId) (f : Port → Port) : (d.modPort p f).drv = d.drv := rfl
@[simp] theorem Dev.modPort_dbg (d : Dev) (p : PortId) (f : Port → Port) : (d.modPort p f).dbg = d.dbg := rfl
@[simp] theorem Dev.modPort_sec (d : Dev) (p : PortId) (f : Port → Port) : (d.modPort p f).sec = d.sec := rfl
@[simp] theorem Dev.modPort_trk (d : Dev) (p : PortId) (f : Port → Port) : (d.modPort p f).trk = d.trk := rfl
@[simp] theorem Dev.modPort_links (d : Dev) (p : PortId) (f : Port → Port) : (d.modPort p f).links = d.links := rfl
@[simp] theorem Dev.modPort_tdp (d : Dev) (p : PortId) (f : Port → Port) : (d.modPort p f).tdp = d.tdp := rfl
@[simp] theorem Dev.modPort_can (d : Dev) (p : PortId) (f : Port → Port) : (d.modPort p f).can = d.can := rfl
@[simp] theorem Dev.modPort_cfg (d : Dev) (p : PortId) (f : Port → Port) : (d.modPort p f).cfg = d.cfg := rfl
@[simp] theorem Dev.modPort_cores (d : Dev) (p : PortId) (f : Port → Port) : (d.modPort p f).cores = d.cores := rfl
@[simp] theorem Dev.modPort_flash (d : Dev) (p : PortId) (f : Port → Port) : (d.modPort p f).flash = d.flash := rfl
@[simp] theorem Dev.modPort_mbx (d : Dev) (p : PortId) (f : Port → Port) : (d.modPort p f).mbx = d.mbx := rfl
@[simp] theorem Dev.modPort_evt (d : Dev) (p : PortId) (f : Port → Port) : (d.modPort p f).evt = d.evt := rfl
@[simp] theorem Dev.modPort_rtc (d : Dev) (p : PortId) (f : Port → Port) : (d.modPort p f).rtc = d.rtc := rfl
@[simp] theorem Dev.modPort_pwr (d : Dev) (p : PortId) (f : Port → Port) : (d.modPort p f).pwr = d.pwr := rfl
@[simp] theorem Dev.modPort_flt (d : Dev) (p : PortId) (f : Port → Port) : (d.modPort p f).flt = d.flt := rfl
@[simp] theorem Dev.modPort_upd (d : Dev) (p : PortId) (f : Port → Port) : (d.modPort p f).upd = d.upd := rfl
@[simp] theorem Dev.modPort_img (d : Dev) (p : PortId) (f : Port → Port) : (d.modPort p f).img = d.img := rfl
@[simp] theorem Dev.modPort_resetDue (d : Dev) (p : PortId) (f : Port → Port) : (d.modPort p f).resetDue = d.resetDue := rfl

@[simp] theorem Dev.modRegion_now (d : Dev) (r : RegionId) (f : Region → Region) : (d.modRegion r f).now = d.now := rfl
@[simp] theorem Dev.modRegion_freeCtr (d : Dev) (r : RegionId) (f : Region → Region) : (d.modRegion r f).freeCtr = d.freeCtr := rfl
@[simp] theorem Dev.modRegion_ports (d : Dev) (r : RegionId) (f : Region → Region) : (d.modRegion r f).ports = d.ports := rfl
@[simp] theorem Dev.modRegion_datum (d : Dev) (r : RegionId) (f : Region → Region) : (d.modRegion r f).datum = d.datum := rfl
@[simp] theorem Dev.modRegion_cl (d : Dev) (r : RegionId) (f : Region → Region) : (d.modRegion r f).cl = d.cl := rfl
@[simp] theorem Dev.modRegion_latch (d : Dev) (r : RegionId) (f : Region → Region) : (d.modRegion r f).latch = d.latch := rfl
@[simp] theorem Dev.modRegion_bus (d : Dev) (r : RegionId) (f : Region → Region) : (d.modRegion r f).bus = d.bus := rfl
@[simp] theorem Dev.modRegion_holds (d : Dev) (r : RegionId) (f : Region → Region) : (d.modRegion r f).holds = d.holds := rfl
@[simp] theorem Dev.modRegion_xbar (d : Dev) (r : RegionId) (f : Region → Region) : (d.modRegion r f).xbar = d.xbar := rfl
@[simp] theorem Dev.modRegion_errs (d : Dev) (r : RegionId) (f : Region → Region) : (d.modRegion r f).errs = d.errs := rfl
@[simp] theorem Dev.modRegion_keys (d : Dev) (r : RegionId) (f : Region → Region) : (d.modRegion r f).keys = d.keys := rfl
@[simp] theorem Dev.modRegion_otp (d : Dev) (r : RegionId) (f : Region → Region) : (d.modRegion r f).otp = d.otp := rfl
@[simp] theorem Dev.modRegion_att (d : Dev) (r : RegionId) (f : Region → Region) : (d.modRegion r f).att = d.att := rfl
@[simp] theorem Dev.modRegion_hash (d : Dev) (r : RegionId) (f : Region → Region) : (d.modRegion r f).hash = d.hash := rfl
@[simp] theorem Dev.modRegion_eng (d : Dev) (r : RegionId) (f : Region → Region) : (d.modRegion r f).eng = d.eng := rfl
@[simp] theorem Dev.modRegion_drv (d : Dev) (r : RegionId) (f : Region → Region) : (d.modRegion r f).drv = d.drv := rfl
@[simp] theorem Dev.modRegion_dbg (d : Dev) (r : RegionId) (f : Region → Region) : (d.modRegion r f).dbg = d.dbg := rfl
@[simp] theorem Dev.modRegion_sec (d : Dev) (r : RegionId) (f : Region → Region) : (d.modRegion r f).sec = d.sec := rfl
@[simp] theorem Dev.modRegion_trk (d : Dev) (r : RegionId) (f : Region → Region) : (d.modRegion r f).trk = d.trk := rfl
@[simp] theorem Dev.modRegion_links (d : Dev) (r : RegionId) (f : Region → Region) : (d.modRegion r f).links = d.links := rfl
@[simp] theorem Dev.modRegion_tdp (d : Dev) (r : RegionId) (f : Region → Region) : (d.modRegion r f).tdp = d.tdp := rfl
@[simp] theorem Dev.modRegion_can (d : Dev) (r : RegionId) (f : Region → Region) : (d.modRegion r f).can = d.can := rfl
@[simp] theorem Dev.modRegion_cfg (d : Dev) (r : RegionId) (f : Region → Region) : (d.modRegion r f).cfg = d.cfg := rfl
@[simp] theorem Dev.modRegion_cores (d : Dev) (r : RegionId) (f : Region → Region) : (d.modRegion r f).cores = d.cores := rfl
@[simp] theorem Dev.modRegion_flash (d : Dev) (r : RegionId) (f : Region → Region) : (d.modRegion r f).flash = d.flash := rfl
@[simp] theorem Dev.modRegion_mbx (d : Dev) (r : RegionId) (f : Region → Region) : (d.modRegion r f).mbx = d.mbx := rfl
@[simp] theorem Dev.modRegion_evt (d : Dev) (r : RegionId) (f : Region → Region) : (d.modRegion r f).evt = d.evt := rfl
@[simp] theorem Dev.modRegion_rtc (d : Dev) (r : RegionId) (f : Region → Region) : (d.modRegion r f).rtc = d.rtc := rfl
@[simp] theorem Dev.modRegion_pwr (d : Dev) (r : RegionId) (f : Region → Region) : (d.modRegion r f).pwr = d.pwr := rfl
@[simp] theorem Dev.modRegion_flt (d : Dev) (r : RegionId) (f : Region → Region) : (d.modRegion r f).flt = d.flt := rfl
@[simp] theorem Dev.modRegion_upd (d : Dev) (r : RegionId) (f : Region → Region) : (d.modRegion r f).upd = d.upd := rfl
@[simp] theorem Dev.modRegion_img (d : Dev) (r : RegionId) (f : Region → Region) : (d.modRegion r f).img = d.img := rfl
@[simp] theorem Dev.modRegion_resetDue (d : Dev) (r : RegionId) (f : Region → Region) : (d.modRegion r f).resetDue = d.resetDue := rfl

@[simp] theorem Dev.modCore_now (d : Dev) (c : CoreId) (f : Core → Core) : (d.modCore c f).now = d.now := rfl
@[simp] theorem Dev.modCore_freeCtr (d : Dev) (c : CoreId) (f : Core → Core) : (d.modCore c f).freeCtr = d.freeCtr := rfl
@[simp] theorem Dev.modCore_ports (d : Dev) (c : CoreId) (f : Core → Core) : (d.modCore c f).ports = d.ports := rfl
@[simp] theorem Dev.modCore_regions (d : Dev) (c : CoreId) (f : Core → Core) : (d.modCore c f).regions = d.regions := rfl
@[simp] theorem Dev.modCore_datum (d : Dev) (c : CoreId) (f : Core → Core) : (d.modCore c f).datum = d.datum := rfl
@[simp] theorem Dev.modCore_cl (d : Dev) (c : CoreId) (f : Core → Core) : (d.modCore c f).cl = d.cl := rfl
@[simp] theorem Dev.modCore_latch (d : Dev) (c : CoreId) (f : Core → Core) : (d.modCore c f).latch = d.latch := rfl
@[simp] theorem Dev.modCore_bus (d : Dev) (c : CoreId) (f : Core → Core) : (d.modCore c f).bus = d.bus := rfl
@[simp] theorem Dev.modCore_holds (d : Dev) (c : CoreId) (f : Core → Core) : (d.modCore c f).holds = d.holds := rfl
@[simp] theorem Dev.modCore_xbar (d : Dev) (c : CoreId) (f : Core → Core) : (d.modCore c f).xbar = d.xbar := rfl
@[simp] theorem Dev.modCore_errs (d : Dev) (c : CoreId) (f : Core → Core) : (d.modCore c f).errs = d.errs := rfl
@[simp] theorem Dev.modCore_keys (d : Dev) (c : CoreId) (f : Core → Core) : (d.modCore c f).keys = d.keys := rfl
@[simp] theorem Dev.modCore_otp (d : Dev) (c : CoreId) (f : Core → Core) : (d.modCore c f).otp = d.otp := rfl
@[simp] theorem Dev.modCore_att (d : Dev) (c : CoreId) (f : Core → Core) : (d.modCore c f).att = d.att := rfl
@[simp] theorem Dev.modCore_hash (d : Dev) (c : CoreId) (f : Core → Core) : (d.modCore c f).hash = d.hash := rfl
@[simp] theorem Dev.modCore_eng (d : Dev) (c : CoreId) (f : Core → Core) : (d.modCore c f).eng = d.eng := rfl
@[simp] theorem Dev.modCore_drv (d : Dev) (c : CoreId) (f : Core → Core) : (d.modCore c f).drv = d.drv := rfl
@[simp] theorem Dev.modCore_dbg (d : Dev) (c : CoreId) (f : Core → Core) : (d.modCore c f).dbg = d.dbg := rfl
@[simp] theorem Dev.modCore_sec (d : Dev) (c : CoreId) (f : Core → Core) : (d.modCore c f).sec = d.sec := rfl
@[simp] theorem Dev.modCore_trk (d : Dev) (c : CoreId) (f : Core → Core) : (d.modCore c f).trk = d.trk := rfl
@[simp] theorem Dev.modCore_links (d : Dev) (c : CoreId) (f : Core → Core) : (d.modCore c f).links = d.links := rfl
@[simp] theorem Dev.modCore_tdp (d : Dev) (c : CoreId) (f : Core → Core) : (d.modCore c f).tdp = d.tdp := rfl
@[simp] theorem Dev.modCore_can (d : Dev) (c : CoreId) (f : Core → Core) : (d.modCore c f).can = d.can := rfl
@[simp] theorem Dev.modCore_cfg (d : Dev) (c : CoreId) (f : Core → Core) : (d.modCore c f).cfg = d.cfg := rfl
@[simp] theorem Dev.modCore_flash (d : Dev) (c : CoreId) (f : Core → Core) : (d.modCore c f).flash = d.flash := rfl
@[simp] theorem Dev.modCore_mbx (d : Dev) (c : CoreId) (f : Core → Core) : (d.modCore c f).mbx = d.mbx := rfl
@[simp] theorem Dev.modCore_evt (d : Dev) (c : CoreId) (f : Core → Core) : (d.modCore c f).evt = d.evt := rfl
@[simp] theorem Dev.modCore_rtc (d : Dev) (c : CoreId) (f : Core → Core) : (d.modCore c f).rtc = d.rtc := rfl
@[simp] theorem Dev.modCore_pwr (d : Dev) (c : CoreId) (f : Core → Core) : (d.modCore c f).pwr = d.pwr := rfl
@[simp] theorem Dev.modCore_flt (d : Dev) (c : CoreId) (f : Core → Core) : (d.modCore c f).flt = d.flt := rfl
@[simp] theorem Dev.modCore_upd (d : Dev) (c : CoreId) (f : Core → Core) : (d.modCore c f).upd = d.upd := rfl
@[simp] theorem Dev.modCore_img (d : Dev) (c : CoreId) (f : Core → Core) : (d.modCore c f).img = d.img := rfl
@[simp] theorem Dev.modCore_resetDue (d : Dev) (c : CoreId) (f : Core → Core) : (d.modCore c f).resetDue = d.resetDue := rfl

@[simp] theorem Dev.modTrunk_now (d : Dev) (l : LinkId) (f : Trunk → Trunk) : (d.modTrunk l f).now = d.now := rfl
@[simp] theorem Dev.modTrunk_freeCtr (d : Dev) (l : LinkId) (f : Trunk → Trunk) : (d.modTrunk l f).freeCtr = d.freeCtr := rfl
@[simp] theorem Dev.modTrunk_ports (d : Dev) (l : LinkId) (f : Trunk → Trunk) : (d.modTrunk l f).ports = d.ports := rfl
@[simp] theorem Dev.modTrunk_regions (d : Dev) (l : LinkId) (f : Trunk → Trunk) : (d.modTrunk l f).regions = d.regions := rfl
@[simp] theorem Dev.modTrunk_datum (d : Dev) (l : LinkId) (f : Trunk → Trunk) : (d.modTrunk l f).datum = d.datum := rfl
@[simp] theorem Dev.modTrunk_cl (d : Dev) (l : LinkId) (f : Trunk → Trunk) : (d.modTrunk l f).cl = d.cl := rfl
@[simp] theorem Dev.modTrunk_latch (d : Dev) (l : LinkId) (f : Trunk → Trunk) : (d.modTrunk l f).latch = d.latch := rfl
@[simp] theorem Dev.modTrunk_bus (d : Dev) (l : LinkId) (f : Trunk → Trunk) : (d.modTrunk l f).bus = d.bus := rfl
@[simp] theorem Dev.modTrunk_holds (d : Dev) (l : LinkId) (f : Trunk → Trunk) : (d.modTrunk l f).holds = d.holds := rfl
@[simp] theorem Dev.modTrunk_xbar (d : Dev) (l : LinkId) (f : Trunk → Trunk) : (d.modTrunk l f).xbar = d.xbar := rfl
@[simp] theorem Dev.modTrunk_errs (d : Dev) (l : LinkId) (f : Trunk → Trunk) : (d.modTrunk l f).errs = d.errs := rfl
@[simp] theorem Dev.modTrunk_keys (d : Dev) (l : LinkId) (f : Trunk → Trunk) : (d.modTrunk l f).keys = d.keys := rfl
@[simp] theorem Dev.modTrunk_otp (d : Dev) (l : LinkId) (f : Trunk → Trunk) : (d.modTrunk l f).otp = d.otp := rfl
@[simp] theorem Dev.modTrunk_att (d : Dev) (l : LinkId) (f : Trunk → Trunk) : (d.modTrunk l f).att = d.att := rfl
@[simp] theorem Dev.modTrunk_hash (d : Dev) (l : LinkId) (f : Trunk → Trunk) : (d.modTrunk l f).hash = d.hash := rfl
@[simp] theorem Dev.modTrunk_eng (d : Dev) (l : LinkId) (f : Trunk → Trunk) : (d.modTrunk l f).eng = d.eng := rfl
@[simp] theorem Dev.modTrunk_drv (d : Dev) (l : LinkId) (f : Trunk → Trunk) : (d.modTrunk l f).drv = d.drv := rfl
@[simp] theorem Dev.modTrunk_dbg (d : Dev) (l : LinkId) (f : Trunk → Trunk) : (d.modTrunk l f).dbg = d.dbg := rfl
@[simp] theorem Dev.modTrunk_sec (d : Dev) (l : LinkId) (f : Trunk → Trunk) : (d.modTrunk l f).sec = d.sec := rfl
@[simp] theorem Dev.modTrunk_trk (d : Dev) (l : LinkId) (f : Trunk → Trunk) : (d.modTrunk l f).trk = d.trk := rfl
@[simp] theorem Dev.modTrunk_tdp (d : Dev) (l : LinkId) (f : Trunk → Trunk) : (d.modTrunk l f).tdp = d.tdp := rfl
@[simp] theorem Dev.modTrunk_can (d : Dev) (l : LinkId) (f : Trunk → Trunk) : (d.modTrunk l f).can = d.can := rfl
@[simp] theorem Dev.modTrunk_cfg (d : Dev) (l : LinkId) (f : Trunk → Trunk) : (d.modTrunk l f).cfg = d.cfg := rfl
@[simp] theorem Dev.modTrunk_cores (d : Dev) (l : LinkId) (f : Trunk → Trunk) : (d.modTrunk l f).cores = d.cores := rfl
@[simp] theorem Dev.modTrunk_flash (d : Dev) (l : LinkId) (f : Trunk → Trunk) : (d.modTrunk l f).flash = d.flash := rfl
@[simp] theorem Dev.modTrunk_mbx (d : Dev) (l : LinkId) (f : Trunk → Trunk) : (d.modTrunk l f).mbx = d.mbx := rfl
@[simp] theorem Dev.modTrunk_evt (d : Dev) (l : LinkId) (f : Trunk → Trunk) : (d.modTrunk l f).evt = d.evt := rfl
@[simp] theorem Dev.modTrunk_rtc (d : Dev) (l : LinkId) (f : Trunk → Trunk) : (d.modTrunk l f).rtc = d.rtc := rfl
@[simp] theorem Dev.modTrunk_pwr (d : Dev) (l : LinkId) (f : Trunk → Trunk) : (d.modTrunk l f).pwr = d.pwr := rfl
@[simp] theorem Dev.modTrunk_flt (d : Dev) (l : LinkId) (f : Trunk → Trunk) : (d.modTrunk l f).flt = d.flt := rfl
@[simp] theorem Dev.modTrunk_upd (d : Dev) (l : LinkId) (f : Trunk → Trunk) : (d.modTrunk l f).upd = d.upd := rfl
@[simp] theorem Dev.modTrunk_img (d : Dev) (l : LinkId) (f : Trunk → Trunk) : (d.modTrunk l f).img = d.img := rfl
@[simp] theorem Dev.modTrunk_resetDue (d : Dev) (l : LinkId) (f : Trunk → Trunk) : (d.modTrunk l f).resetDue = d.resetDue := rfl

@[simp] theorem Dev.modCarrier_now (d : Dev) (c : Carrier) (f : TdpCarrier → TdpCarrier) : (d.modCarrier c f).now = d.now := rfl
@[simp] theorem Dev.modCarrier_freeCtr (d : Dev) (c : Carrier) (f : TdpCarrier → TdpCarrier) : (d.modCarrier c f).freeCtr = d.freeCtr := rfl
@[simp] theorem Dev.modCarrier_ports (d : Dev) (c : Carrier) (f : TdpCarrier → TdpCarrier) : (d.modCarrier c f).ports = d.ports := rfl
@[simp] theorem Dev.modCarrier_regions (d : Dev) (c : Carrier) (f : TdpCarrier → TdpCarrier) : (d.modCarrier c f).regions = d.regions := rfl
@[simp] theorem Dev.modCarrier_datum (d : Dev) (c : Carrier) (f : TdpCarrier → TdpCarrier) : (d.modCarrier c f).datum = d.datum := rfl
@[simp] theorem Dev.modCarrier_cl (d : Dev) (c : Carrier) (f : TdpCarrier → TdpCarrier) : (d.modCarrier c f).cl = d.cl := rfl
@[simp] theorem Dev.modCarrier_latch (d : Dev) (c : Carrier) (f : TdpCarrier → TdpCarrier) : (d.modCarrier c f).latch = d.latch := rfl
@[simp] theorem Dev.modCarrier_bus (d : Dev) (c : Carrier) (f : TdpCarrier → TdpCarrier) : (d.modCarrier c f).bus = d.bus := rfl
@[simp] theorem Dev.modCarrier_holds (d : Dev) (c : Carrier) (f : TdpCarrier → TdpCarrier) : (d.modCarrier c f).holds = d.holds := rfl
@[simp] theorem Dev.modCarrier_xbar (d : Dev) (c : Carrier) (f : TdpCarrier → TdpCarrier) : (d.modCarrier c f).xbar = d.xbar := rfl
@[simp] theorem Dev.modCarrier_errs (d : Dev) (c : Carrier) (f : TdpCarrier → TdpCarrier) : (d.modCarrier c f).errs = d.errs := rfl
@[simp] theorem Dev.modCarrier_keys (d : Dev) (c : Carrier) (f : TdpCarrier → TdpCarrier) : (d.modCarrier c f).keys = d.keys := rfl
@[simp] theorem Dev.modCarrier_otp (d : Dev) (c : Carrier) (f : TdpCarrier → TdpCarrier) : (d.modCarrier c f).otp = d.otp := rfl
@[simp] theorem Dev.modCarrier_att (d : Dev) (c : Carrier) (f : TdpCarrier → TdpCarrier) : (d.modCarrier c f).att = d.att := rfl
@[simp] theorem Dev.modCarrier_hash (d : Dev) (c : Carrier) (f : TdpCarrier → TdpCarrier) : (d.modCarrier c f).hash = d.hash := rfl
@[simp] theorem Dev.modCarrier_eng (d : Dev) (c : Carrier) (f : TdpCarrier → TdpCarrier) : (d.modCarrier c f).eng = d.eng := rfl
@[simp] theorem Dev.modCarrier_drv (d : Dev) (c : Carrier) (f : TdpCarrier → TdpCarrier) : (d.modCarrier c f).drv = d.drv := rfl
@[simp] theorem Dev.modCarrier_dbg (d : Dev) (c : Carrier) (f : TdpCarrier → TdpCarrier) : (d.modCarrier c f).dbg = d.dbg := rfl
@[simp] theorem Dev.modCarrier_sec (d : Dev) (c : Carrier) (f : TdpCarrier → TdpCarrier) : (d.modCarrier c f).sec = d.sec := rfl
@[simp] theorem Dev.modCarrier_trk (d : Dev) (c : Carrier) (f : TdpCarrier → TdpCarrier) : (d.modCarrier c f).trk = d.trk := rfl
@[simp] theorem Dev.modCarrier_links (d : Dev) (c : Carrier) (f : TdpCarrier → TdpCarrier) : (d.modCarrier c f).links = d.links := rfl
@[simp] theorem Dev.modCarrier_can (d : Dev) (c : Carrier) (f : TdpCarrier → TdpCarrier) : (d.modCarrier c f).can = d.can := rfl
@[simp] theorem Dev.modCarrier_cfg (d : Dev) (c : Carrier) (f : TdpCarrier → TdpCarrier) : (d.modCarrier c f).cfg = d.cfg := rfl
@[simp] theorem Dev.modCarrier_cores (d : Dev) (c : Carrier) (f : TdpCarrier → TdpCarrier) : (d.modCarrier c f).cores = d.cores := rfl
@[simp] theorem Dev.modCarrier_flash (d : Dev) (c : Carrier) (f : TdpCarrier → TdpCarrier) : (d.modCarrier c f).flash = d.flash := rfl
@[simp] theorem Dev.modCarrier_mbx (d : Dev) (c : Carrier) (f : TdpCarrier → TdpCarrier) : (d.modCarrier c f).mbx = d.mbx := rfl
@[simp] theorem Dev.modCarrier_evt (d : Dev) (c : Carrier) (f : TdpCarrier → TdpCarrier) : (d.modCarrier c f).evt = d.evt := rfl
@[simp] theorem Dev.modCarrier_rtc (d : Dev) (c : Carrier) (f : TdpCarrier → TdpCarrier) : (d.modCarrier c f).rtc = d.rtc := rfl
@[simp] theorem Dev.modCarrier_pwr (d : Dev) (c : Carrier) (f : TdpCarrier → TdpCarrier) : (d.modCarrier c f).pwr = d.pwr := rfl
@[simp] theorem Dev.modCarrier_flt (d : Dev) (c : Carrier) (f : TdpCarrier → TdpCarrier) : (d.modCarrier c f).flt = d.flt := rfl
@[simp] theorem Dev.modCarrier_upd (d : Dev) (c : Carrier) (f : TdpCarrier → TdpCarrier) : (d.modCarrier c f).upd = d.upd := rfl
@[simp] theorem Dev.modCarrier_img (d : Dev) (c : Carrier) (f : TdpCarrier → TdpCarrier) : (d.modCarrier c f).img = d.img := rfl
@[simp] theorem Dev.modCarrier_resetDue (d : Dev) (c : Carrier) (f : TdpCarrier → TdpCarrier) : (d.modCarrier c f).resetDue = d.resetDue := rfl

@[simp] theorem Dev.modTimer_now (d : Dev) (t : Fin 16) (f : Timer → Timer) : (d.modTimer t f).now = d.now := rfl
@[simp] theorem Dev.modTimer_freeCtr (d : Dev) (t : Fin 16) (f : Timer → Timer) : (d.modTimer t f).freeCtr = d.freeCtr := rfl
@[simp] theorem Dev.modTimer_ports (d : Dev) (t : Fin 16) (f : Timer → Timer) : (d.modTimer t f).ports = d.ports := rfl
@[simp] theorem Dev.modTimer_regions (d : Dev) (t : Fin 16) (f : Timer → Timer) : (d.modTimer t f).regions = d.regions := rfl
@[simp] theorem Dev.modTimer_datum (d : Dev) (t : Fin 16) (f : Timer → Timer) : (d.modTimer t f).datum = d.datum := rfl
@[simp] theorem Dev.modTimer_cl (d : Dev) (t : Fin 16) (f : Timer → Timer) : (d.modTimer t f).cl = d.cl := rfl
@[simp] theorem Dev.modTimer_latch (d : Dev) (t : Fin 16) (f : Timer → Timer) : (d.modTimer t f).latch = d.latch := rfl
@[simp] theorem Dev.modTimer_bus (d : Dev) (t : Fin 16) (f : Timer → Timer) : (d.modTimer t f).bus = d.bus := rfl
@[simp] theorem Dev.modTimer_holds (d : Dev) (t : Fin 16) (f : Timer → Timer) : (d.modTimer t f).holds = d.holds := rfl
@[simp] theorem Dev.modTimer_xbar (d : Dev) (t : Fin 16) (f : Timer → Timer) : (d.modTimer t f).xbar = d.xbar := rfl
@[simp] theorem Dev.modTimer_errs (d : Dev) (t : Fin 16) (f : Timer → Timer) : (d.modTimer t f).errs = d.errs := rfl
@[simp] theorem Dev.modTimer_keys (d : Dev) (t : Fin 16) (f : Timer → Timer) : (d.modTimer t f).keys = d.keys := rfl
@[simp] theorem Dev.modTimer_otp (d : Dev) (t : Fin 16) (f : Timer → Timer) : (d.modTimer t f).otp = d.otp := rfl
@[simp] theorem Dev.modTimer_att (d : Dev) (t : Fin 16) (f : Timer → Timer) : (d.modTimer t f).att = d.att := rfl
@[simp] theorem Dev.modTimer_hash (d : Dev) (t : Fin 16) (f : Timer → Timer) : (d.modTimer t f).hash = d.hash := rfl
@[simp] theorem Dev.modTimer_eng (d : Dev) (t : Fin 16) (f : Timer → Timer) : (d.modTimer t f).eng = d.eng := rfl
@[simp] theorem Dev.modTimer_drv (d : Dev) (t : Fin 16) (f : Timer → Timer) : (d.modTimer t f).drv = d.drv := rfl
@[simp] theorem Dev.modTimer_dbg (d : Dev) (t : Fin 16) (f : Timer → Timer) : (d.modTimer t f).dbg = d.dbg := rfl
@[simp] theorem Dev.modTimer_sec (d : Dev) (t : Fin 16) (f : Timer → Timer) : (d.modTimer t f).sec = d.sec := rfl
@[simp] theorem Dev.modTimer_trk (d : Dev) (t : Fin 16) (f : Timer → Timer) : (d.modTimer t f).trk = d.trk := rfl
@[simp] theorem Dev.modTimer_links (d : Dev) (t : Fin 16) (f : Timer → Timer) : (d.modTimer t f).links = d.links := rfl
@[simp] theorem Dev.modTimer_tdp (d : Dev) (t : Fin 16) (f : Timer → Timer) : (d.modTimer t f).tdp = d.tdp := rfl
@[simp] theorem Dev.modTimer_can (d : Dev) (t : Fin 16) (f : Timer → Timer) : (d.modTimer t f).can = d.can := rfl
@[simp] theorem Dev.modTimer_cfg (d : Dev) (t : Fin 16) (f : Timer → Timer) : (d.modTimer t f).cfg = d.cfg := rfl
@[simp] theorem Dev.modTimer_cores (d : Dev) (t : Fin 16) (f : Timer → Timer) : (d.modTimer t f).cores = d.cores := rfl
@[simp] theorem Dev.modTimer_flash (d : Dev) (t : Fin 16) (f : Timer → Timer) : (d.modTimer t f).flash = d.flash := rfl
@[simp] theorem Dev.modTimer_mbx (d : Dev) (t : Fin 16) (f : Timer → Timer) : (d.modTimer t f).mbx = d.mbx := rfl
@[simp] theorem Dev.modTimer_rtc (d : Dev) (t : Fin 16) (f : Timer → Timer) : (d.modTimer t f).rtc = d.rtc := rfl
@[simp] theorem Dev.modTimer_pwr (d : Dev) (t : Fin 16) (f : Timer → Timer) : (d.modTimer t f).pwr = d.pwr := rfl
@[simp] theorem Dev.modTimer_flt (d : Dev) (t : Fin 16) (f : Timer → Timer) : (d.modTimer t f).flt = d.flt := rfl
@[simp] theorem Dev.modTimer_upd (d : Dev) (t : Fin 16) (f : Timer → Timer) : (d.modTimer t f).upd = d.upd := rfl
@[simp] theorem Dev.modTimer_img (d : Dev) (t : Fin 16) (f : Timer → Timer) : (d.modTimer t f).img = d.img := rfl
@[simp] theorem Dev.modTimer_resetDue (d : Dev) (t : Fin 16) (f : Timer → Timer) : (d.modTimer t f).resetDue = d.resetDue := rfl

@[simp] theorem Dev.modEvt_now (d : Dev) (n : Fin 64) (f : EvtChan → EvtChan) : (d.modEvt n f).now = d.now := rfl
@[simp] theorem Dev.modEvt_freeCtr (d : Dev) (n : Fin 64) (f : EvtChan → EvtChan) : (d.modEvt n f).freeCtr = d.freeCtr := rfl
@[simp] theorem Dev.modEvt_ports (d : Dev) (n : Fin 64) (f : EvtChan → EvtChan) : (d.modEvt n f).ports = d.ports := rfl
@[simp] theorem Dev.modEvt_regions (d : Dev) (n : Fin 64) (f : EvtChan → EvtChan) : (d.modEvt n f).regions = d.regions := rfl
@[simp] theorem Dev.modEvt_datum (d : Dev) (n : Fin 64) (f : EvtChan → EvtChan) : (d.modEvt n f).datum = d.datum := rfl
@[simp] theorem Dev.modEvt_cl (d : Dev) (n : Fin 64) (f : EvtChan → EvtChan) : (d.modEvt n f).cl = d.cl := rfl
@[simp] theorem Dev.modEvt_latch (d : Dev) (n : Fin 64) (f : EvtChan → EvtChan) : (d.modEvt n f).latch = d.latch := rfl
@[simp] theorem Dev.modEvt_bus (d : Dev) (n : Fin 64) (f : EvtChan → EvtChan) : (d.modEvt n f).bus = d.bus := rfl
@[simp] theorem Dev.modEvt_holds (d : Dev) (n : Fin 64) (f : EvtChan → EvtChan) : (d.modEvt n f).holds = d.holds := rfl
@[simp] theorem Dev.modEvt_xbar (d : Dev) (n : Fin 64) (f : EvtChan → EvtChan) : (d.modEvt n f).xbar = d.xbar := rfl
@[simp] theorem Dev.modEvt_errs (d : Dev) (n : Fin 64) (f : EvtChan → EvtChan) : (d.modEvt n f).errs = d.errs := rfl
@[simp] theorem Dev.modEvt_keys (d : Dev) (n : Fin 64) (f : EvtChan → EvtChan) : (d.modEvt n f).keys = d.keys := rfl
@[simp] theorem Dev.modEvt_otp (d : Dev) (n : Fin 64) (f : EvtChan → EvtChan) : (d.modEvt n f).otp = d.otp := rfl
@[simp] theorem Dev.modEvt_att (d : Dev) (n : Fin 64) (f : EvtChan → EvtChan) : (d.modEvt n f).att = d.att := rfl
@[simp] theorem Dev.modEvt_hash (d : Dev) (n : Fin 64) (f : EvtChan → EvtChan) : (d.modEvt n f).hash = d.hash := rfl
@[simp] theorem Dev.modEvt_eng (d : Dev) (n : Fin 64) (f : EvtChan → EvtChan) : (d.modEvt n f).eng = d.eng := rfl
@[simp] theorem Dev.modEvt_drv (d : Dev) (n : Fin 64) (f : EvtChan → EvtChan) : (d.modEvt n f).drv = d.drv := rfl
@[simp] theorem Dev.modEvt_dbg (d : Dev) (n : Fin 64) (f : EvtChan → EvtChan) : (d.modEvt n f).dbg = d.dbg := rfl
@[simp] theorem Dev.modEvt_sec (d : Dev) (n : Fin 64) (f : EvtChan → EvtChan) : (d.modEvt n f).sec = d.sec := rfl
@[simp] theorem Dev.modEvt_trk (d : Dev) (n : Fin 64) (f : EvtChan → EvtChan) : (d.modEvt n f).trk = d.trk := rfl
@[simp] theorem Dev.modEvt_links (d : Dev) (n : Fin 64) (f : EvtChan → EvtChan) : (d.modEvt n f).links = d.links := rfl
@[simp] theorem Dev.modEvt_tdp (d : Dev) (n : Fin 64) (f : EvtChan → EvtChan) : (d.modEvt n f).tdp = d.tdp := rfl
@[simp] theorem Dev.modEvt_can (d : Dev) (n : Fin 64) (f : EvtChan → EvtChan) : (d.modEvt n f).can = d.can := rfl
@[simp] theorem Dev.modEvt_cfg (d : Dev) (n : Fin 64) (f : EvtChan → EvtChan) : (d.modEvt n f).cfg = d.cfg := rfl
@[simp] theorem Dev.modEvt_cores (d : Dev) (n : Fin 64) (f : EvtChan → EvtChan) : (d.modEvt n f).cores = d.cores := rfl
@[simp] theorem Dev.modEvt_flash (d : Dev) (n : Fin 64) (f : EvtChan → EvtChan) : (d.modEvt n f).flash = d.flash := rfl
@[simp] theorem Dev.modEvt_mbx (d : Dev) (n : Fin 64) (f : EvtChan → EvtChan) : (d.modEvt n f).mbx = d.mbx := rfl
@[simp] theorem Dev.modEvt_rtc (d : Dev) (n : Fin 64) (f : EvtChan → EvtChan) : (d.modEvt n f).rtc = d.rtc := rfl
@[simp] theorem Dev.modEvt_pwr (d : Dev) (n : Fin 64) (f : EvtChan → EvtChan) : (d.modEvt n f).pwr = d.pwr := rfl
@[simp] theorem Dev.modEvt_flt (d : Dev) (n : Fin 64) (f : EvtChan → EvtChan) : (d.modEvt n f).flt = d.flt := rfl
@[simp] theorem Dev.modEvt_upd (d : Dev) (n : Fin 64) (f : EvtChan → EvtChan) : (d.modEvt n f).upd = d.upd := rfl
@[simp] theorem Dev.modEvt_img (d : Dev) (n : Fin 64) (f : EvtChan → EvtChan) : (d.modEvt n f).img = d.img := rfl
@[simp] theorem Dev.modEvt_resetDue (d : Dev) (n : Fin 64) (f : EvtChan → EvtChan) : (d.modEvt n f).resetDue = d.resetDue := rfl

@[simp] theorem Dev.modLut_now (d : Dev) (j : Fin 16) (f : Lut → Lut) : (d.modLut j f).now = d.now := rfl
@[simp] theorem Dev.modLut_freeCtr (d : Dev) (j : Fin 16) (f : Lut → Lut) : (d.modLut j f).freeCtr = d.freeCtr := rfl
@[simp] theorem Dev.modLut_ports (d : Dev) (j : Fin 16) (f : Lut → Lut) : (d.modLut j f).ports = d.ports := rfl
@[simp] theorem Dev.modLut_regions (d : Dev) (j : Fin 16) (f : Lut → Lut) : (d.modLut j f).regions = d.regions := rfl
@[simp] theorem Dev.modLut_datum (d : Dev) (j : Fin 16) (f : Lut → Lut) : (d.modLut j f).datum = d.datum := rfl
@[simp] theorem Dev.modLut_cl (d : Dev) (j : Fin 16) (f : Lut → Lut) : (d.modLut j f).cl = d.cl := rfl
@[simp] theorem Dev.modLut_latch (d : Dev) (j : Fin 16) (f : Lut → Lut) : (d.modLut j f).latch = d.latch := rfl
@[simp] theorem Dev.modLut_bus (d : Dev) (j : Fin 16) (f : Lut → Lut) : (d.modLut j f).bus = d.bus := rfl
@[simp] theorem Dev.modLut_holds (d : Dev) (j : Fin 16) (f : Lut → Lut) : (d.modLut j f).holds = d.holds := rfl
@[simp] theorem Dev.modLut_xbar (d : Dev) (j : Fin 16) (f : Lut → Lut) : (d.modLut j f).xbar = d.xbar := rfl
@[simp] theorem Dev.modLut_errs (d : Dev) (j : Fin 16) (f : Lut → Lut) : (d.modLut j f).errs = d.errs := rfl
@[simp] theorem Dev.modLut_keys (d : Dev) (j : Fin 16) (f : Lut → Lut) : (d.modLut j f).keys = d.keys := rfl
@[simp] theorem Dev.modLut_otp (d : Dev) (j : Fin 16) (f : Lut → Lut) : (d.modLut j f).otp = d.otp := rfl
@[simp] theorem Dev.modLut_att (d : Dev) (j : Fin 16) (f : Lut → Lut) : (d.modLut j f).att = d.att := rfl
@[simp] theorem Dev.modLut_hash (d : Dev) (j : Fin 16) (f : Lut → Lut) : (d.modLut j f).hash = d.hash := rfl
@[simp] theorem Dev.modLut_eng (d : Dev) (j : Fin 16) (f : Lut → Lut) : (d.modLut j f).eng = d.eng := rfl
@[simp] theorem Dev.modLut_drv (d : Dev) (j : Fin 16) (f : Lut → Lut) : (d.modLut j f).drv = d.drv := rfl
@[simp] theorem Dev.modLut_dbg (d : Dev) (j : Fin 16) (f : Lut → Lut) : (d.modLut j f).dbg = d.dbg := rfl
@[simp] theorem Dev.modLut_sec (d : Dev) (j : Fin 16) (f : Lut → Lut) : (d.modLut j f).sec = d.sec := rfl
@[simp] theorem Dev.modLut_trk (d : Dev) (j : Fin 16) (f : Lut → Lut) : (d.modLut j f).trk = d.trk := rfl
@[simp] theorem Dev.modLut_links (d : Dev) (j : Fin 16) (f : Lut → Lut) : (d.modLut j f).links = d.links := rfl
@[simp] theorem Dev.modLut_tdp (d : Dev) (j : Fin 16) (f : Lut → Lut) : (d.modLut j f).tdp = d.tdp := rfl
@[simp] theorem Dev.modLut_can (d : Dev) (j : Fin 16) (f : Lut → Lut) : (d.modLut j f).can = d.can := rfl
@[simp] theorem Dev.modLut_cfg (d : Dev) (j : Fin 16) (f : Lut → Lut) : (d.modLut j f).cfg = d.cfg := rfl
@[simp] theorem Dev.modLut_cores (d : Dev) (j : Fin 16) (f : Lut → Lut) : (d.modLut j f).cores = d.cores := rfl
@[simp] theorem Dev.modLut_flash (d : Dev) (j : Fin 16) (f : Lut → Lut) : (d.modLut j f).flash = d.flash := rfl
@[simp] theorem Dev.modLut_mbx (d : Dev) (j : Fin 16) (f : Lut → Lut) : (d.modLut j f).mbx = d.mbx := rfl
@[simp] theorem Dev.modLut_rtc (d : Dev) (j : Fin 16) (f : Lut → Lut) : (d.modLut j f).rtc = d.rtc := rfl
@[simp] theorem Dev.modLut_pwr (d : Dev) (j : Fin 16) (f : Lut → Lut) : (d.modLut j f).pwr = d.pwr := rfl
@[simp] theorem Dev.modLut_flt (d : Dev) (j : Fin 16) (f : Lut → Lut) : (d.modLut j f).flt = d.flt := rfl
@[simp] theorem Dev.modLut_upd (d : Dev) (j : Fin 16) (f : Lut → Lut) : (d.modLut j f).upd = d.upd := rfl
@[simp] theorem Dev.modLut_img (d : Dev) (j : Fin 16) (f : Lut → Lut) : (d.modLut j f).img = d.img := rfl
@[simp] theorem Dev.modLut_resetDue (d : Dev) (j : Fin 16) (f : Lut → Lut) : (d.modLut j f).resetDue = d.resetDue := rfl

@[simp] theorem Dev.modMbx_now (d : Dev) (m : Fin 16) (f : Mbx → Mbx) : (d.modMbx m f).now = d.now := rfl
@[simp] theorem Dev.modMbx_freeCtr (d : Dev) (m : Fin 16) (f : Mbx → Mbx) : (d.modMbx m f).freeCtr = d.freeCtr := rfl
@[simp] theorem Dev.modMbx_ports (d : Dev) (m : Fin 16) (f : Mbx → Mbx) : (d.modMbx m f).ports = d.ports := rfl
@[simp] theorem Dev.modMbx_regions (d : Dev) (m : Fin 16) (f : Mbx → Mbx) : (d.modMbx m f).regions = d.regions := rfl
@[simp] theorem Dev.modMbx_datum (d : Dev) (m : Fin 16) (f : Mbx → Mbx) : (d.modMbx m f).datum = d.datum := rfl
@[simp] theorem Dev.modMbx_cl (d : Dev) (m : Fin 16) (f : Mbx → Mbx) : (d.modMbx m f).cl = d.cl := rfl
@[simp] theorem Dev.modMbx_latch (d : Dev) (m : Fin 16) (f : Mbx → Mbx) : (d.modMbx m f).latch = d.latch := rfl
@[simp] theorem Dev.modMbx_bus (d : Dev) (m : Fin 16) (f : Mbx → Mbx) : (d.modMbx m f).bus = d.bus := rfl
@[simp] theorem Dev.modMbx_holds (d : Dev) (m : Fin 16) (f : Mbx → Mbx) : (d.modMbx m f).holds = d.holds := rfl
@[simp] theorem Dev.modMbx_xbar (d : Dev) (m : Fin 16) (f : Mbx → Mbx) : (d.modMbx m f).xbar = d.xbar := rfl
@[simp] theorem Dev.modMbx_errs (d : Dev) (m : Fin 16) (f : Mbx → Mbx) : (d.modMbx m f).errs = d.errs := rfl
@[simp] theorem Dev.modMbx_keys (d : Dev) (m : Fin 16) (f : Mbx → Mbx) : (d.modMbx m f).keys = d.keys := rfl
@[simp] theorem Dev.modMbx_otp (d : Dev) (m : Fin 16) (f : Mbx → Mbx) : (d.modMbx m f).otp = d.otp := rfl
@[simp] theorem Dev.modMbx_att (d : Dev) (m : Fin 16) (f : Mbx → Mbx) : (d.modMbx m f).att = d.att := rfl
@[simp] theorem Dev.modMbx_hash (d : Dev) (m : Fin 16) (f : Mbx → Mbx) : (d.modMbx m f).hash = d.hash := rfl
@[simp] theorem Dev.modMbx_eng (d : Dev) (m : Fin 16) (f : Mbx → Mbx) : (d.modMbx m f).eng = d.eng := rfl
@[simp] theorem Dev.modMbx_drv (d : Dev) (m : Fin 16) (f : Mbx → Mbx) : (d.modMbx m f).drv = d.drv := rfl
@[simp] theorem Dev.modMbx_dbg (d : Dev) (m : Fin 16) (f : Mbx → Mbx) : (d.modMbx m f).dbg = d.dbg := rfl
@[simp] theorem Dev.modMbx_sec (d : Dev) (m : Fin 16) (f : Mbx → Mbx) : (d.modMbx m f).sec = d.sec := rfl
@[simp] theorem Dev.modMbx_trk (d : Dev) (m : Fin 16) (f : Mbx → Mbx) : (d.modMbx m f).trk = d.trk := rfl
@[simp] theorem Dev.modMbx_links (d : Dev) (m : Fin 16) (f : Mbx → Mbx) : (d.modMbx m f).links = d.links := rfl
@[simp] theorem Dev.modMbx_tdp (d : Dev) (m : Fin 16) (f : Mbx → Mbx) : (d.modMbx m f).tdp = d.tdp := rfl
@[simp] theorem Dev.modMbx_can (d : Dev) (m : Fin 16) (f : Mbx → Mbx) : (d.modMbx m f).can = d.can := rfl
@[simp] theorem Dev.modMbx_cfg (d : Dev) (m : Fin 16) (f : Mbx → Mbx) : (d.modMbx m f).cfg = d.cfg := rfl
@[simp] theorem Dev.modMbx_cores (d : Dev) (m : Fin 16) (f : Mbx → Mbx) : (d.modMbx m f).cores = d.cores := rfl
@[simp] theorem Dev.modMbx_flash (d : Dev) (m : Fin 16) (f : Mbx → Mbx) : (d.modMbx m f).flash = d.flash := rfl
@[simp] theorem Dev.modMbx_evt (d : Dev) (m : Fin 16) (f : Mbx → Mbx) : (d.modMbx m f).evt = d.evt := rfl
@[simp] theorem Dev.modMbx_rtc (d : Dev) (m : Fin 16) (f : Mbx → Mbx) : (d.modMbx m f).rtc = d.rtc := rfl
@[simp] theorem Dev.modMbx_pwr (d : Dev) (m : Fin 16) (f : Mbx → Mbx) : (d.modMbx m f).pwr = d.pwr := rfl
@[simp] theorem Dev.modMbx_flt (d : Dev) (m : Fin 16) (f : Mbx → Mbx) : (d.modMbx m f).flt = d.flt := rfl
@[simp] theorem Dev.modMbx_upd (d : Dev) (m : Fin 16) (f : Mbx → Mbx) : (d.modMbx m f).upd = d.upd := rfl
@[simp] theorem Dev.modMbx_img (d : Dev) (m : Fin 16) (f : Mbx → Mbx) : (d.modMbx m f).img = d.img := rfl
@[simp] theorem Dev.modMbx_resetDue (d : Dev) (m : Fin 16) (f : Mbx → Mbx) : (d.modMbx m f).resetDue = d.resetDue := rfl

@[simp] theorem Dev.modLatch_now (d : Dev) (i : Initiator) (f : Latches → Latches) : (d.modLatch i f).now = d.now := rfl
@[simp] theorem Dev.modLatch_freeCtr (d : Dev) (i : Initiator) (f : Latches → Latches) : (d.modLatch i f).freeCtr = d.freeCtr := rfl
@[simp] theorem Dev.modLatch_ports (d : Dev) (i : Initiator) (f : Latches → Latches) : (d.modLatch i f).ports = d.ports := rfl
@[simp] theorem Dev.modLatch_regions (d : Dev) (i : Initiator) (f : Latches → Latches) : (d.modLatch i f).regions = d.regions := rfl
@[simp] theorem Dev.modLatch_datum (d : Dev) (i : Initiator) (f : Latches → Latches) : (d.modLatch i f).datum = d.datum := rfl
@[simp] theorem Dev.modLatch_cl (d : Dev) (i : Initiator) (f : Latches → Latches) : (d.modLatch i f).cl = d.cl := rfl
@[simp] theorem Dev.modLatch_bus (d : Dev) (i : Initiator) (f : Latches → Latches) : (d.modLatch i f).bus = d.bus := rfl
@[simp] theorem Dev.modLatch_holds (d : Dev) (i : Initiator) (f : Latches → Latches) : (d.modLatch i f).holds = d.holds := rfl
@[simp] theorem Dev.modLatch_xbar (d : Dev) (i : Initiator) (f : Latches → Latches) : (d.modLatch i f).xbar = d.xbar := rfl
@[simp] theorem Dev.modLatch_errs (d : Dev) (i : Initiator) (f : Latches → Latches) : (d.modLatch i f).errs = d.errs := rfl
@[simp] theorem Dev.modLatch_keys (d : Dev) (i : Initiator) (f : Latches → Latches) : (d.modLatch i f).keys = d.keys := rfl
@[simp] theorem Dev.modLatch_otp (d : Dev) (i : Initiator) (f : Latches → Latches) : (d.modLatch i f).otp = d.otp := rfl
@[simp] theorem Dev.modLatch_att (d : Dev) (i : Initiator) (f : Latches → Latches) : (d.modLatch i f).att = d.att := rfl
@[simp] theorem Dev.modLatch_hash (d : Dev) (i : Initiator) (f : Latches → Latches) : (d.modLatch i f).hash = d.hash := rfl
@[simp] theorem Dev.modLatch_eng (d : Dev) (i : Initiator) (f : Latches → Latches) : (d.modLatch i f).eng = d.eng := rfl
@[simp] theorem Dev.modLatch_drv (d : Dev) (i : Initiator) (f : Latches → Latches) : (d.modLatch i f).drv = d.drv := rfl
@[simp] theorem Dev.modLatch_dbg (d : Dev) (i : Initiator) (f : Latches → Latches) : (d.modLatch i f).dbg = d.dbg := rfl
@[simp] theorem Dev.modLatch_sec (d : Dev) (i : Initiator) (f : Latches → Latches) : (d.modLatch i f).sec = d.sec := rfl
@[simp] theorem Dev.modLatch_trk (d : Dev) (i : Initiator) (f : Latches → Latches) : (d.modLatch i f).trk = d.trk := rfl
@[simp] theorem Dev.modLatch_links (d : Dev) (i : Initiator) (f : Latches → Latches) : (d.modLatch i f).links = d.links := rfl
@[simp] theorem Dev.modLatch_tdp (d : Dev) (i : Initiator) (f : Latches → Latches) : (d.modLatch i f).tdp = d.tdp := rfl
@[simp] theorem Dev.modLatch_can (d : Dev) (i : Initiator) (f : Latches → Latches) : (d.modLatch i f).can = d.can := rfl
@[simp] theorem Dev.modLatch_cfg (d : Dev) (i : Initiator) (f : Latches → Latches) : (d.modLatch i f).cfg = d.cfg := rfl
@[simp] theorem Dev.modLatch_cores (d : Dev) (i : Initiator) (f : Latches → Latches) : (d.modLatch i f).cores = d.cores := rfl
@[simp] theorem Dev.modLatch_flash (d : Dev) (i : Initiator) (f : Latches → Latches) : (d.modLatch i f).flash = d.flash := rfl
@[simp] theorem Dev.modLatch_mbx (d : Dev) (i : Initiator) (f : Latches → Latches) : (d.modLatch i f).mbx = d.mbx := rfl
@[simp] theorem Dev.modLatch_evt (d : Dev) (i : Initiator) (f : Latches → Latches) : (d.modLatch i f).evt = d.evt := rfl
@[simp] theorem Dev.modLatch_rtc (d : Dev) (i : Initiator) (f : Latches → Latches) : (d.modLatch i f).rtc = d.rtc := rfl
@[simp] theorem Dev.modLatch_pwr (d : Dev) (i : Initiator) (f : Latches → Latches) : (d.modLatch i f).pwr = d.pwr := rfl
@[simp] theorem Dev.modLatch_flt (d : Dev) (i : Initiator) (f : Latches → Latches) : (d.modLatch i f).flt = d.flt := rfl
@[simp] theorem Dev.modLatch_upd (d : Dev) (i : Initiator) (f : Latches → Latches) : (d.modLatch i f).upd = d.upd := rfl
@[simp] theorem Dev.modLatch_img (d : Dev) (i : Initiator) (f : Latches → Latches) : (d.modLatch i f).img = d.img := rfl
@[simp] theorem Dev.modLatch_resetDue (d : Dev) (i : Initiator) (f : Latches → Latches) : (d.modLatch i f).resetDue = d.resetDue := rfl

@[simp] theorem Dev.answer_now (d : Dev) (i : Initiator) (b : BusResult) : (d.answer i b).now = d.now := rfl
@[simp] theorem Dev.answer_freeCtr (d : Dev) (i : Initiator) (b : BusResult) : (d.answer i b).freeCtr = d.freeCtr := rfl
@[simp] theorem Dev.answer_ports (d : Dev) (i : Initiator) (b : BusResult) : (d.answer i b).ports = d.ports := rfl
@[simp] theorem Dev.answer_regions (d : Dev) (i : Initiator) (b : BusResult) : (d.answer i b).regions = d.regions := rfl
@[simp] theorem Dev.answer_datum (d : Dev) (i : Initiator) (b : BusResult) : (d.answer i b).datum = d.datum := rfl
@[simp] theorem Dev.answer_cl (d : Dev) (i : Initiator) (b : BusResult) : (d.answer i b).cl = d.cl := rfl
@[simp] theorem Dev.answer_latch (d : Dev) (i : Initiator) (b : BusResult) : (d.answer i b).latch = d.latch := rfl
@[simp] theorem Dev.answer_holds (d : Dev) (i : Initiator) (b : BusResult) : (d.answer i b).holds = d.holds := rfl
@[simp] theorem Dev.answer_xbar (d : Dev) (i : Initiator) (b : BusResult) : (d.answer i b).xbar = d.xbar := rfl
@[simp] theorem Dev.answer_errs (d : Dev) (i : Initiator) (b : BusResult) : (d.answer i b).errs = d.errs := rfl
@[simp] theorem Dev.answer_keys (d : Dev) (i : Initiator) (b : BusResult) : (d.answer i b).keys = d.keys := rfl
@[simp] theorem Dev.answer_otp (d : Dev) (i : Initiator) (b : BusResult) : (d.answer i b).otp = d.otp := rfl
@[simp] theorem Dev.answer_att (d : Dev) (i : Initiator) (b : BusResult) : (d.answer i b).att = d.att := rfl
@[simp] theorem Dev.answer_hash (d : Dev) (i : Initiator) (b : BusResult) : (d.answer i b).hash = d.hash := rfl
@[simp] theorem Dev.answer_eng (d : Dev) (i : Initiator) (b : BusResult) : (d.answer i b).eng = d.eng := rfl
@[simp] theorem Dev.answer_drv (d : Dev) (i : Initiator) (b : BusResult) : (d.answer i b).drv = d.drv := rfl
@[simp] theorem Dev.answer_dbg (d : Dev) (i : Initiator) (b : BusResult) : (d.answer i b).dbg = d.dbg := rfl
@[simp] theorem Dev.answer_sec (d : Dev) (i : Initiator) (b : BusResult) : (d.answer i b).sec = d.sec := rfl
@[simp] theorem Dev.answer_trk (d : Dev) (i : Initiator) (b : BusResult) : (d.answer i b).trk = d.trk := rfl
@[simp] theorem Dev.answer_links (d : Dev) (i : Initiator) (b : BusResult) : (d.answer i b).links = d.links := rfl
@[simp] theorem Dev.answer_tdp (d : Dev) (i : Initiator) (b : BusResult) : (d.answer i b).tdp = d.tdp := rfl
@[simp] theorem Dev.answer_can (d : Dev) (i : Initiator) (b : BusResult) : (d.answer i b).can = d.can := rfl
@[simp] theorem Dev.answer_cfg (d : Dev) (i : Initiator) (b : BusResult) : (d.answer i b).cfg = d.cfg := rfl
@[simp] theorem Dev.answer_cores (d : Dev) (i : Initiator) (b : BusResult) : (d.answer i b).cores = d.cores := rfl
@[simp] theorem Dev.answer_flash (d : Dev) (i : Initiator) (b : BusResult) : (d.answer i b).flash = d.flash := rfl
@[simp] theorem Dev.answer_mbx (d : Dev) (i : Initiator) (b : BusResult) : (d.answer i b).mbx = d.mbx := rfl
@[simp] theorem Dev.answer_evt (d : Dev) (i : Initiator) (b : BusResult) : (d.answer i b).evt = d.evt := rfl
@[simp] theorem Dev.answer_rtc (d : Dev) (i : Initiator) (b : BusResult) : (d.answer i b).rtc = d.rtc := rfl
@[simp] theorem Dev.answer_pwr (d : Dev) (i : Initiator) (b : BusResult) : (d.answer i b).pwr = d.pwr := rfl
@[simp] theorem Dev.answer_flt (d : Dev) (i : Initiator) (b : BusResult) : (d.answer i b).flt = d.flt := rfl
@[simp] theorem Dev.answer_upd (d : Dev) (i : Initiator) (b : BusResult) : (d.answer i b).upd = d.upd := rfl
@[simp] theorem Dev.answer_img (d : Dev) (i : Initiator) (b : BusResult) : (d.answer i b).img = d.img := rfl
@[simp] theorem Dev.answer_resetDue (d : Dev) (i : Initiator) (b : BusResult) : (d.answer i b).resetDue = d.resetDue := rfl

@[simp] theorem Dev.took_now (d : Dev) : (d.took).now = d.now := rfl
@[simp] theorem Dev.took_ports (d : Dev) : (d.took).ports = d.ports := rfl
@[simp] theorem Dev.took_regions (d : Dev) : (d.took).regions = d.regions := rfl
@[simp] theorem Dev.took_datum (d : Dev) : (d.took).datum = d.datum := rfl
@[simp] theorem Dev.took_cl (d : Dev) : (d.took).cl = d.cl := rfl
@[simp] theorem Dev.took_latch (d : Dev) : (d.took).latch = d.latch := rfl
@[simp] theorem Dev.took_bus (d : Dev) : (d.took).bus = d.bus := rfl
@[simp] theorem Dev.took_holds (d : Dev) : (d.took).holds = d.holds := rfl
@[simp] theorem Dev.took_xbar (d : Dev) : (d.took).xbar = d.xbar := rfl
@[simp] theorem Dev.took_errs (d : Dev) : (d.took).errs = d.errs := rfl
@[simp] theorem Dev.took_keys (d : Dev) : (d.took).keys = d.keys := rfl
@[simp] theorem Dev.took_otp (d : Dev) : (d.took).otp = d.otp := rfl
@[simp] theorem Dev.took_att (d : Dev) : (d.took).att = d.att := rfl
@[simp] theorem Dev.took_hash (d : Dev) : (d.took).hash = d.hash := rfl
@[simp] theorem Dev.took_eng (d : Dev) : (d.took).eng = d.eng := rfl
@[simp] theorem Dev.took_drv (d : Dev) : (d.took).drv = d.drv := rfl
@[simp] theorem Dev.took_dbg (d : Dev) : (d.took).dbg = d.dbg := rfl
@[simp] theorem Dev.took_sec (d : Dev) : (d.took).sec = d.sec := rfl
@[simp] theorem Dev.took_trk (d : Dev) : (d.took).trk = d.trk := rfl
@[simp] theorem Dev.took_links (d : Dev) : (d.took).links = d.links := rfl
@[simp] theorem Dev.took_tdp (d : Dev) : (d.took).tdp = d.tdp := rfl
@[simp] theorem Dev.took_can (d : Dev) : (d.took).can = d.can := rfl
@[simp] theorem Dev.took_cfg (d : Dev) : (d.took).cfg = d.cfg := rfl
@[simp] theorem Dev.took_cores (d : Dev) : (d.took).cores = d.cores := rfl
@[simp] theorem Dev.took_flash (d : Dev) : (d.took).flash = d.flash := rfl
@[simp] theorem Dev.took_mbx (d : Dev) : (d.took).mbx = d.mbx := rfl
@[simp] theorem Dev.took_evt (d : Dev) : (d.took).evt = d.evt := rfl
@[simp] theorem Dev.took_rtc (d : Dev) : (d.took).rtc = d.rtc := rfl
@[simp] theorem Dev.took_pwr (d : Dev) : (d.took).pwr = d.pwr := rfl
@[simp] theorem Dev.took_flt (d : Dev) : (d.took).flt = d.flt := rfl
@[simp] theorem Dev.took_upd (d : Dev) : (d.took).upd = d.upd := rfl
@[simp] theorem Dev.took_img (d : Dev) : (d.took).img = d.img := rfl
@[simp] theorem Dev.took_resetDue (d : Dev) : (d.took).resetDue = d.resetDue := rfl

@[simp] theorem Dev.attnCause_now (d : Dev) (i : Nat) : (d.attnCause i).now = d.now := rfl
@[simp] theorem Dev.attnCause_freeCtr (d : Dev) (i : Nat) : (d.attnCause i).freeCtr = d.freeCtr := rfl
@[simp] theorem Dev.attnCause_ports (d : Dev) (i : Nat) : (d.attnCause i).ports = d.ports := rfl
@[simp] theorem Dev.attnCause_regions (d : Dev) (i : Nat) : (d.attnCause i).regions = d.regions := rfl
@[simp] theorem Dev.attnCause_datum (d : Dev) (i : Nat) : (d.attnCause i).datum = d.datum := rfl
@[simp] theorem Dev.attnCause_cl (d : Dev) (i : Nat) : (d.attnCause i).cl = d.cl := rfl
@[simp] theorem Dev.attnCause_latch (d : Dev) (i : Nat) : (d.attnCause i).latch = d.latch := rfl
@[simp] theorem Dev.attnCause_bus (d : Dev) (i : Nat) : (d.attnCause i).bus = d.bus := rfl
@[simp] theorem Dev.attnCause_holds (d : Dev) (i : Nat) : (d.attnCause i).holds = d.holds := rfl
@[simp] theorem Dev.attnCause_xbar (d : Dev) (i : Nat) : (d.attnCause i).xbar = d.xbar := rfl
@[simp] theorem Dev.attnCause_errs (d : Dev) (i : Nat) : (d.attnCause i).errs = d.errs := rfl
@[simp] theorem Dev.attnCause_keys (d : Dev) (i : Nat) : (d.attnCause i).keys = d.keys := rfl
@[simp] theorem Dev.attnCause_otp (d : Dev) (i : Nat) : (d.attnCause i).otp = d.otp := rfl
@[simp] theorem Dev.attnCause_att (d : Dev) (i : Nat) : (d.attnCause i).att = d.att := rfl
@[simp] theorem Dev.attnCause_hash (d : Dev) (i : Nat) : (d.attnCause i).hash = d.hash := rfl
@[simp] theorem Dev.attnCause_eng (d : Dev) (i : Nat) : (d.attnCause i).eng = d.eng := rfl
@[simp] theorem Dev.attnCause_drv (d : Dev) (i : Nat) : (d.attnCause i).drv = d.drv := rfl
@[simp] theorem Dev.attnCause_dbg (d : Dev) (i : Nat) : (d.attnCause i).dbg = d.dbg := rfl
@[simp] theorem Dev.attnCause_sec (d : Dev) (i : Nat) : (d.attnCause i).sec = d.sec := rfl
@[simp] theorem Dev.attnCause_links (d : Dev) (i : Nat) : (d.attnCause i).links = d.links := rfl
@[simp] theorem Dev.attnCause_tdp (d : Dev) (i : Nat) : (d.attnCause i).tdp = d.tdp := rfl
@[simp] theorem Dev.attnCause_can (d : Dev) (i : Nat) : (d.attnCause i).can = d.can := rfl
@[simp] theorem Dev.attnCause_cfg (d : Dev) (i : Nat) : (d.attnCause i).cfg = d.cfg := rfl
@[simp] theorem Dev.attnCause_cores (d : Dev) (i : Nat) : (d.attnCause i).cores = d.cores := rfl
@[simp] theorem Dev.attnCause_flash (d : Dev) (i : Nat) : (d.attnCause i).flash = d.flash := rfl
@[simp] theorem Dev.attnCause_mbx (d : Dev) (i : Nat) : (d.attnCause i).mbx = d.mbx := rfl
@[simp] theorem Dev.attnCause_evt (d : Dev) (i : Nat) : (d.attnCause i).evt = d.evt := rfl
@[simp] theorem Dev.attnCause_rtc (d : Dev) (i : Nat) : (d.attnCause i).rtc = d.rtc := rfl
@[simp] theorem Dev.attnCause_pwr (d : Dev) (i : Nat) : (d.attnCause i).pwr = d.pwr := rfl
@[simp] theorem Dev.attnCause_flt (d : Dev) (i : Nat) : (d.attnCause i).flt = d.flt := rfl
@[simp] theorem Dev.attnCause_upd (d : Dev) (i : Nat) : (d.attnCause i).upd = d.upd := rfl
@[simp] theorem Dev.attnCause_img (d : Dev) (i : Nat) : (d.attnCause i).img = d.img := rfl
@[simp] theorem Dev.attnCause_resetDue (d : Dev) (i : Nat) : (d.attnCause i).resetDue = d.resetDue := rfl

@[simp] theorem Dev.secCause_now (d : Dev) (i : Nat) : (d.secCause i).now = d.now := rfl
@[simp] theorem Dev.secCause_freeCtr (d : Dev) (i : Nat) : (d.secCause i).freeCtr = d.freeCtr := rfl
@[simp] theorem Dev.secCause_ports (d : Dev) (i : Nat) : (d.secCause i).ports = d.ports := rfl
@[simp] theorem Dev.secCause_regions (d : Dev) (i : Nat) : (d.secCause i).regions = d.regions := rfl
@[simp] theorem Dev.secCause_datum (d : Dev) (i : Nat) : (d.secCause i).datum = d.datum := rfl
@[simp] theorem Dev.secCause_cl (d : Dev) (i : Nat) : (d.secCause i).cl = d.cl := rfl
@[simp] theorem Dev.secCause_latch (d : Dev) (i : Nat) : (d.secCause i).latch = d.latch := rfl
@[simp] theorem Dev.secCause_bus (d : Dev) (i : Nat) : (d.secCause i).bus = d.bus := rfl
@[simp] theorem Dev.secCause_holds (d : Dev) (i : Nat) : (d.secCause i).holds = d.holds := rfl
@[simp] theorem Dev.secCause_xbar (d : Dev) (i : Nat) : (d.secCause i).xbar = d.xbar := rfl
@[simp] theorem Dev.secCause_errs (d : Dev) (i : Nat) : (d.secCause i).errs = d.errs := rfl
@[simp] theorem Dev.secCause_keys (d : Dev) (i : Nat) : (d.secCause i).keys = d.keys := rfl
@[simp] theorem Dev.secCause_otp (d : Dev) (i : Nat) : (d.secCause i).otp = d.otp := rfl
@[simp] theorem Dev.secCause_att (d : Dev) (i : Nat) : (d.secCause i).att = d.att := rfl
@[simp] theorem Dev.secCause_hash (d : Dev) (i : Nat) : (d.secCause i).hash = d.hash := rfl
@[simp] theorem Dev.secCause_eng (d : Dev) (i : Nat) : (d.secCause i).eng = d.eng := rfl
@[simp] theorem Dev.secCause_drv (d : Dev) (i : Nat) : (d.secCause i).drv = d.drv := rfl
@[simp] theorem Dev.secCause_dbg (d : Dev) (i : Nat) : (d.secCause i).dbg = d.dbg := rfl
@[simp] theorem Dev.secCause_trk (d : Dev) (i : Nat) : (d.secCause i).trk = d.trk := rfl
@[simp] theorem Dev.secCause_links (d : Dev) (i : Nat) : (d.secCause i).links = d.links := rfl
@[simp] theorem Dev.secCause_tdp (d : Dev) (i : Nat) : (d.secCause i).tdp = d.tdp := rfl
@[simp] theorem Dev.secCause_can (d : Dev) (i : Nat) : (d.secCause i).can = d.can := rfl
@[simp] theorem Dev.secCause_cfg (d : Dev) (i : Nat) : (d.secCause i).cfg = d.cfg := rfl
@[simp] theorem Dev.secCause_cores (d : Dev) (i : Nat) : (d.secCause i).cores = d.cores := rfl
@[simp] theorem Dev.secCause_flash (d : Dev) (i : Nat) : (d.secCause i).flash = d.flash := rfl
@[simp] theorem Dev.secCause_mbx (d : Dev) (i : Nat) : (d.secCause i).mbx = d.mbx := rfl
@[simp] theorem Dev.secCause_evt (d : Dev) (i : Nat) : (d.secCause i).evt = d.evt := rfl
@[simp] theorem Dev.secCause_rtc (d : Dev) (i : Nat) : (d.secCause i).rtc = d.rtc := rfl
@[simp] theorem Dev.secCause_pwr (d : Dev) (i : Nat) : (d.secCause i).pwr = d.pwr := rfl
@[simp] theorem Dev.secCause_flt (d : Dev) (i : Nat) : (d.secCause i).flt = d.flt := rfl
@[simp] theorem Dev.secCause_upd (d : Dev) (i : Nat) : (d.secCause i).upd = d.upd := rfl
@[simp] theorem Dev.secCause_img (d : Dev) (i : Nat) : (d.secCause i).img = d.img := rfl
@[simp] theorem Dev.secCause_resetDue (d : Dev) (i : Nat) : (d.secCause i).resetDue = d.resetDue := rfl

@[simp] theorem Dev.pwrFlag_now (d : Dev) (i : Nat) : (d.pwrFlag i).now = d.now := rfl
@[simp] theorem Dev.pwrFlag_freeCtr (d : Dev) (i : Nat) : (d.pwrFlag i).freeCtr = d.freeCtr := rfl
@[simp] theorem Dev.pwrFlag_ports (d : Dev) (i : Nat) : (d.pwrFlag i).ports = d.ports := rfl
@[simp] theorem Dev.pwrFlag_regions (d : Dev) (i : Nat) : (d.pwrFlag i).regions = d.regions := rfl
@[simp] theorem Dev.pwrFlag_datum (d : Dev) (i : Nat) : (d.pwrFlag i).datum = d.datum := rfl
@[simp] theorem Dev.pwrFlag_cl (d : Dev) (i : Nat) : (d.pwrFlag i).cl = d.cl := rfl
@[simp] theorem Dev.pwrFlag_latch (d : Dev) (i : Nat) : (d.pwrFlag i).latch = d.latch := rfl
@[simp] theorem Dev.pwrFlag_bus (d : Dev) (i : Nat) : (d.pwrFlag i).bus = d.bus := rfl
@[simp] theorem Dev.pwrFlag_holds (d : Dev) (i : Nat) : (d.pwrFlag i).holds = d.holds := rfl
@[simp] theorem Dev.pwrFlag_xbar (d : Dev) (i : Nat) : (d.pwrFlag i).xbar = d.xbar := rfl
@[simp] theorem Dev.pwrFlag_errs (d : Dev) (i : Nat) : (d.pwrFlag i).errs = d.errs := rfl
@[simp] theorem Dev.pwrFlag_keys (d : Dev) (i : Nat) : (d.pwrFlag i).keys = d.keys := rfl
@[simp] theorem Dev.pwrFlag_otp (d : Dev) (i : Nat) : (d.pwrFlag i).otp = d.otp := rfl
@[simp] theorem Dev.pwrFlag_att (d : Dev) (i : Nat) : (d.pwrFlag i).att = d.att := rfl
@[simp] theorem Dev.pwrFlag_hash (d : Dev) (i : Nat) : (d.pwrFlag i).hash = d.hash := rfl
@[simp] theorem Dev.pwrFlag_eng (d : Dev) (i : Nat) : (d.pwrFlag i).eng = d.eng := rfl
@[simp] theorem Dev.pwrFlag_drv (d : Dev) (i : Nat) : (d.pwrFlag i).drv = d.drv := rfl
@[simp] theorem Dev.pwrFlag_dbg (d : Dev) (i : Nat) : (d.pwrFlag i).dbg = d.dbg := rfl
@[simp] theorem Dev.pwrFlag_sec (d : Dev) (i : Nat) : (d.pwrFlag i).sec = d.sec := rfl
@[simp] theorem Dev.pwrFlag_trk (d : Dev) (i : Nat) : (d.pwrFlag i).trk = d.trk := rfl
@[simp] theorem Dev.pwrFlag_links (d : Dev) (i : Nat) : (d.pwrFlag i).links = d.links := rfl
@[simp] theorem Dev.pwrFlag_tdp (d : Dev) (i : Nat) : (d.pwrFlag i).tdp = d.tdp := rfl
@[simp] theorem Dev.pwrFlag_can (d : Dev) (i : Nat) : (d.pwrFlag i).can = d.can := rfl
@[simp] theorem Dev.pwrFlag_cfg (d : Dev) (i : Nat) : (d.pwrFlag i).cfg = d.cfg := rfl
@[simp] theorem Dev.pwrFlag_cores (d : Dev) (i : Nat) : (d.pwrFlag i).cores = d.cores := rfl
@[simp] theorem Dev.pwrFlag_flash (d : Dev) (i : Nat) : (d.pwrFlag i).flash = d.flash := rfl
@[simp] theorem Dev.pwrFlag_mbx (d : Dev) (i : Nat) : (d.pwrFlag i).mbx = d.mbx := rfl
@[simp] theorem Dev.pwrFlag_evt (d : Dev) (i : Nat) : (d.pwrFlag i).evt = d.evt := rfl
@[simp] theorem Dev.pwrFlag_rtc (d : Dev) (i : Nat) : (d.pwrFlag i).rtc = d.rtc := rfl
@[simp] theorem Dev.pwrFlag_flt (d : Dev) (i : Nat) : (d.pwrFlag i).flt = d.flt := rfl
@[simp] theorem Dev.pwrFlag_upd (d : Dev) (i : Nat) : (d.pwrFlag i).upd = d.upd := rfl
@[simp] theorem Dev.pwrFlag_img (d : Dev) (i : Nat) : (d.pwrFlag i).img = d.img := rfl
@[simp] theorem Dev.pwrFlag_resetDue (d : Dev) (i : Nat) : (d.pwrFlag i).resetDue = d.resetDue := rfl

@[simp] theorem Dev.authRestart_now (d : Dev) : (d.authRestart).now = d.now := rfl
@[simp] theorem Dev.authRestart_freeCtr (d : Dev) : (d.authRestart).freeCtr = d.freeCtr := rfl
@[simp] theorem Dev.authRestart_ports (d : Dev) : (d.authRestart).ports = d.ports := rfl
@[simp] theorem Dev.authRestart_regions (d : Dev) : (d.authRestart).regions = d.regions := rfl
@[simp] theorem Dev.authRestart_datum (d : Dev) : (d.authRestart).datum = d.datum := rfl
@[simp] theorem Dev.authRestart_cl (d : Dev) : (d.authRestart).cl = d.cl := rfl
@[simp] theorem Dev.authRestart_latch (d : Dev) : (d.authRestart).latch = d.latch := rfl
@[simp] theorem Dev.authRestart_bus (d : Dev) : (d.authRestart).bus = d.bus := rfl
@[simp] theorem Dev.authRestart_holds (d : Dev) : (d.authRestart).holds = d.holds := rfl
@[simp] theorem Dev.authRestart_xbar (d : Dev) : (d.authRestart).xbar = d.xbar := rfl
@[simp] theorem Dev.authRestart_errs (d : Dev) : (d.authRestart).errs = d.errs := rfl
@[simp] theorem Dev.authRestart_keys (d : Dev) : (d.authRestart).keys = d.keys := rfl
@[simp] theorem Dev.authRestart_otp (d : Dev) : (d.authRestart).otp = d.otp := rfl
@[simp] theorem Dev.authRestart_att (d : Dev) : (d.authRestart).att = d.att := rfl
@[simp] theorem Dev.authRestart_hash (d : Dev) : (d.authRestart).hash = d.hash := rfl
@[simp] theorem Dev.authRestart_eng (d : Dev) : (d.authRestart).eng = d.eng := rfl
@[simp] theorem Dev.authRestart_drv (d : Dev) : (d.authRestart).drv = d.drv := rfl
@[simp] theorem Dev.authRestart_dbg (d : Dev) : (d.authRestart).dbg = d.dbg := rfl
@[simp] theorem Dev.authRestart_trk (d : Dev) : (d.authRestart).trk = d.trk := rfl
@[simp] theorem Dev.authRestart_links (d : Dev) : (d.authRestart).links = d.links := rfl
@[simp] theorem Dev.authRestart_tdp (d : Dev) : (d.authRestart).tdp = d.tdp := rfl
@[simp] theorem Dev.authRestart_can (d : Dev) : (d.authRestart).can = d.can := rfl
@[simp] theorem Dev.authRestart_cfg (d : Dev) : (d.authRestart).cfg = d.cfg := rfl
@[simp] theorem Dev.authRestart_cores (d : Dev) : (d.authRestart).cores = d.cores := rfl
@[simp] theorem Dev.authRestart_flash (d : Dev) : (d.authRestart).flash = d.flash := rfl
@[simp] theorem Dev.authRestart_mbx (d : Dev) : (d.authRestart).mbx = d.mbx := rfl
@[simp] theorem Dev.authRestart_evt (d : Dev) : (d.authRestart).evt = d.evt := rfl
@[simp] theorem Dev.authRestart_rtc (d : Dev) : (d.authRestart).rtc = d.rtc := rfl
@[simp] theorem Dev.authRestart_pwr (d : Dev) : (d.authRestart).pwr = d.pwr := rfl
@[simp] theorem Dev.authRestart_flt (d : Dev) : (d.authRestart).flt = d.flt := rfl
@[simp] theorem Dev.authRestart_upd (d : Dev) : (d.authRestart).upd = d.upd := rfl
@[simp] theorem Dev.authRestart_img (d : Dev) : (d.authRestart).img = d.img := rfl
@[simp] theorem Dev.authRestart_resetDue (d : Dev) : (d.authRestart).resetDue = d.resetDue := rfl

@[simp] theorem Dev.advance_freeCtr (d : Dev) (n : Nat) : (d.advance n).freeCtr = d.freeCtr := rfl
@[simp] theorem Dev.advance_ports (d : Dev) (n : Nat) : (d.advance n).ports = d.ports := rfl
@[simp] theorem Dev.advance_regions (d : Dev) (n : Nat) : (d.advance n).regions = d.regions := rfl
@[simp] theorem Dev.advance_cl (d : Dev) (n : Nat) : (d.advance n).cl = d.cl := rfl
@[simp] theorem Dev.advance_latch (d : Dev) (n : Nat) : (d.advance n).latch = d.latch := rfl
@[simp] theorem Dev.advance_bus (d : Dev) (n : Nat) : (d.advance n).bus = d.bus := rfl
@[simp] theorem Dev.advance_holds (d : Dev) (n : Nat) : (d.advance n).holds = d.holds := rfl
@[simp] theorem Dev.advance_xbar (d : Dev) (n : Nat) : (d.advance n).xbar = d.xbar := rfl
@[simp] theorem Dev.advance_errs (d : Dev) (n : Nat) : (d.advance n).errs = d.errs := rfl
@[simp] theorem Dev.advance_keys (d : Dev) (n : Nat) : (d.advance n).keys = d.keys := rfl
@[simp] theorem Dev.advance_otp (d : Dev) (n : Nat) : (d.advance n).otp = d.otp := rfl
@[simp] theorem Dev.advance_att (d : Dev) (n : Nat) : (d.advance n).att = d.att := rfl
@[simp] theorem Dev.advance_hash (d : Dev) (n : Nat) : (d.advance n).hash = d.hash := rfl
@[simp] theorem Dev.advance_eng (d : Dev) (n : Nat) : (d.advance n).eng = d.eng := rfl
@[simp] theorem Dev.advance_drv (d : Dev) (n : Nat) : (d.advance n).drv = d.drv := rfl
@[simp] theorem Dev.advance_dbg (d : Dev) (n : Nat) : (d.advance n).dbg = d.dbg := rfl
@[simp] theorem Dev.advance_sec (d : Dev) (n : Nat) : (d.advance n).sec = d.sec := rfl
@[simp] theorem Dev.advance_trk (d : Dev) (n : Nat) : (d.advance n).trk = d.trk := rfl
@[simp] theorem Dev.advance_links (d : Dev) (n : Nat) : (d.advance n).links = d.links := rfl
@[simp] theorem Dev.advance_tdp (d : Dev) (n : Nat) : (d.advance n).tdp = d.tdp := rfl
@[simp] theorem Dev.advance_can (d : Dev) (n : Nat) : (d.advance n).can = d.can := rfl
@[simp] theorem Dev.advance_cfg (d : Dev) (n : Nat) : (d.advance n).cfg = d.cfg := rfl
@[simp] theorem Dev.advance_flash (d : Dev) (n : Nat) : (d.advance n).flash = d.flash := rfl
@[simp] theorem Dev.advance_mbx (d : Dev) (n : Nat) : (d.advance n).mbx = d.mbx := rfl
@[simp] theorem Dev.advance_evt (d : Dev) (n : Nat) : (d.advance n).evt = d.evt := rfl
@[simp] theorem Dev.advance_pwr (d : Dev) (n : Nat) : (d.advance n).pwr = d.pwr := rfl
@[simp] theorem Dev.advance_flt (d : Dev) (n : Nat) : (d.advance n).flt = d.flt := rfl
@[simp] theorem Dev.advance_upd (d : Dev) (n : Nat) : (d.advance n).upd = d.upd := rfl
@[simp] theorem Dev.advance_img (d : Dev) (n : Nat) : (d.advance n).img = d.img := rfl
@[simp] theorem Dev.advance_resetDue (d : Dev) (n : Nat) : (d.advance n).resetDue = d.resetDue := rfl

@[simp] theorem Dev.settle_now (d : Dev) : (d.settle).now = d.now := by unfold Dev.settle; dsimp only; split <;> rfl
@[simp] theorem Dev.settle_freeCtr (d : Dev) : (d.settle).freeCtr = d.freeCtr := by unfold Dev.settle; dsimp only; split <;> rfl
@[simp] theorem Dev.settle_ports (d : Dev) : (d.settle).ports = d.ports := by unfold Dev.settle; dsimp only; split <;> rfl
@[simp] theorem Dev.settle_regions (d : Dev) : (d.settle).regions = d.regions := by unfold Dev.settle; dsimp only; split <;> rfl
@[simp] theorem Dev.settle_datum (d : Dev) : (d.settle).datum = d.datum := by unfold Dev.settle; dsimp only; split <;> rfl
@[simp] theorem Dev.settle_cl (d : Dev) : (d.settle).cl = d.cl := by unfold Dev.settle; dsimp only; split <;> rfl
@[simp] theorem Dev.settle_latch (d : Dev) : (d.settle).latch = d.latch := by unfold Dev.settle; dsimp only; split <;> rfl
@[simp] theorem Dev.settle_bus (d : Dev) : (d.settle).bus = d.bus := by unfold Dev.settle; dsimp only; split <;> rfl
@[simp] theorem Dev.settle_holds (d : Dev) : (d.settle).holds = d.holds := by unfold Dev.settle; dsimp only; split <;> rfl
@[simp] theorem Dev.settle_xbar (d : Dev) : (d.settle).xbar = d.xbar := by unfold Dev.settle; dsimp only; split <;> rfl
@[simp] theorem Dev.settle_errs (d : Dev) : (d.settle).errs = d.errs := by unfold Dev.settle; dsimp only; split <;> rfl
@[simp] theorem Dev.settle_keys (d : Dev) : (d.settle).keys = d.keys := by unfold Dev.settle; dsimp only; split <;> rfl
@[simp] theorem Dev.settle_otp (d : Dev) : (d.settle).otp = d.otp := by unfold Dev.settle; dsimp only; split <;> rfl
@[simp] theorem Dev.settle_att (d : Dev) : (d.settle).att = d.att := by unfold Dev.settle; dsimp only; split <;> rfl
@[simp] theorem Dev.settle_hash (d : Dev) : (d.settle).hash = d.hash := by unfold Dev.settle; dsimp only; split <;> rfl
@[simp] theorem Dev.settle_eng (d : Dev) : (d.settle).eng = d.eng := by unfold Dev.settle; dsimp only; split <;> rfl
@[simp] theorem Dev.settle_drv (d : Dev) : (d.settle).drv = d.drv := by unfold Dev.settle; dsimp only; split <;> rfl
@[simp] theorem Dev.settle_dbg (d : Dev) : (d.settle).dbg = d.dbg := by unfold Dev.settle; dsimp only; split <;> rfl
@[simp] theorem Dev.settle_sec (d : Dev) : (d.settle).sec = d.sec := by unfold Dev.settle; dsimp only; split <;> rfl
@[simp] theorem Dev.settle_links (d : Dev) : (d.settle).links = d.links := by unfold Dev.settle; dsimp only; split <;> rfl
@[simp] theorem Dev.settle_tdp (d : Dev) : (d.settle).tdp = d.tdp := by unfold Dev.settle; dsimp only; split <;> rfl
@[simp] theorem Dev.settle_can (d : Dev) : (d.settle).can = d.can := by unfold Dev.settle; dsimp only; split <;> rfl
@[simp] theorem Dev.settle_cfg (d : Dev) : (d.settle).cfg = d.cfg := by unfold Dev.settle; dsimp only; split <;> rfl
@[simp] theorem Dev.settle_cores (d : Dev) : (d.settle).cores = d.cores := by unfold Dev.settle; dsimp only; split <;> rfl
@[simp] theorem Dev.settle_flash (d : Dev) : (d.settle).flash = d.flash := by unfold Dev.settle; dsimp only; split <;> rfl
@[simp] theorem Dev.settle_mbx (d : Dev) : (d.settle).mbx = d.mbx := by unfold Dev.settle; dsimp only; split <;> rfl
@[simp] theorem Dev.settle_evt (d : Dev) : (d.settle).evt = d.evt := by unfold Dev.settle; dsimp only; split <;> rfl
@[simp] theorem Dev.settle_rtc (d : Dev) : (d.settle).rtc = d.rtc := by unfold Dev.settle; dsimp only; split <;> rfl
@[simp] theorem Dev.settle_pwr (d : Dev) : (d.settle).pwr = d.pwr := by unfold Dev.settle; dsimp only; split <;> rfl
@[simp] theorem Dev.settle_flt (d : Dev) : (d.settle).flt = d.flt := by unfold Dev.settle; dsimp only; split <;> rfl
@[simp] theorem Dev.settle_upd (d : Dev) : (d.settle).upd = d.upd := by unfold Dev.settle; dsimp only; split <;> rfl
@[simp] theorem Dev.settle_img (d : Dev) : (d.settle).img = d.img := by unfold Dev.settle; dsimp only; split <;> rfl
@[simp] theorem Dev.settle_resetDue (d : Dev) : (d.settle).resetDue = d.resetDue := by unfold Dev.settle; dsimp only; split <;> rfl

@[simp] theorem Dev.setUnsynced_now (d : Dev) (b : Bool) : (d.setUnsynced b).now = d.now := by unfold Dev.setUnsynced; dsimp only; split <;> rfl
@[simp] theorem Dev.setUnsynced_freeCtr (d : Dev) (b : Bool) : (d.setUnsynced b).freeCtr = d.freeCtr := by unfold Dev.setUnsynced; dsimp only; split <;> rfl
@[simp] theorem Dev.setUnsynced_ports (d : Dev) (b : Bool) : (d.setUnsynced b).ports = d.ports := by unfold Dev.setUnsynced; dsimp only; split <;> rfl
@[simp] theorem Dev.setUnsynced_regions (d : Dev) (b : Bool) : (d.setUnsynced b).regions = d.regions := by unfold Dev.setUnsynced; dsimp only; split <;> rfl
@[simp] theorem Dev.setUnsynced_cl (d : Dev) (b : Bool) : (d.setUnsynced b).cl = d.cl := by unfold Dev.setUnsynced; dsimp only; split <;> rfl
@[simp] theorem Dev.setUnsynced_latch (d : Dev) (b : Bool) : (d.setUnsynced b).latch = d.latch := by unfold Dev.setUnsynced; dsimp only; split <;> rfl
@[simp] theorem Dev.setUnsynced_bus (d : Dev) (b : Bool) : (d.setUnsynced b).bus = d.bus := by unfold Dev.setUnsynced; dsimp only; split <;> rfl
@[simp] theorem Dev.setUnsynced_holds (d : Dev) (b : Bool) : (d.setUnsynced b).holds = d.holds := by unfold Dev.setUnsynced; dsimp only; split <;> rfl
@[simp] theorem Dev.setUnsynced_xbar (d : Dev) (b : Bool) : (d.setUnsynced b).xbar = d.xbar := by unfold Dev.setUnsynced; dsimp only; split <;> rfl
@[simp] theorem Dev.setUnsynced_errs (d : Dev) (b : Bool) : (d.setUnsynced b).errs = d.errs := by unfold Dev.setUnsynced; dsimp only; split <;> rfl
@[simp] theorem Dev.setUnsynced_keys (d : Dev) (b : Bool) : (d.setUnsynced b).keys = d.keys := by unfold Dev.setUnsynced; dsimp only; split <;> rfl
@[simp] theorem Dev.setUnsynced_otp (d : Dev) (b : Bool) : (d.setUnsynced b).otp = d.otp := by unfold Dev.setUnsynced; dsimp only; split <;> rfl
@[simp] theorem Dev.setUnsynced_att (d : Dev) (b : Bool) : (d.setUnsynced b).att = d.att := by unfold Dev.setUnsynced; dsimp only; split <;> rfl
@[simp] theorem Dev.setUnsynced_hash (d : Dev) (b : Bool) : (d.setUnsynced b).hash = d.hash := by unfold Dev.setUnsynced; dsimp only; split <;> rfl
@[simp] theorem Dev.setUnsynced_eng (d : Dev) (b : Bool) : (d.setUnsynced b).eng = d.eng := by unfold Dev.setUnsynced; dsimp only; split <;> rfl
@[simp] theorem Dev.setUnsynced_drv (d : Dev) (b : Bool) : (d.setUnsynced b).drv = d.drv := by unfold Dev.setUnsynced; dsimp only; split <;> rfl
@[simp] theorem Dev.setUnsynced_dbg (d : Dev) (b : Bool) : (d.setUnsynced b).dbg = d.dbg := by unfold Dev.setUnsynced; dsimp only; split <;> rfl
@[simp] theorem Dev.setUnsynced_sec (d : Dev) (b : Bool) : (d.setUnsynced b).sec = d.sec := by unfold Dev.setUnsynced; dsimp only; split <;> rfl
@[simp] theorem Dev.setUnsynced_links (d : Dev) (b : Bool) : (d.setUnsynced b).links = d.links := by unfold Dev.setUnsynced; dsimp only; split <;> rfl
@[simp] theorem Dev.setUnsynced_tdp (d : Dev) (b : Bool) : (d.setUnsynced b).tdp = d.tdp := by unfold Dev.setUnsynced; dsimp only; split <;> rfl
@[simp] theorem Dev.setUnsynced_can (d : Dev) (b : Bool) : (d.setUnsynced b).can = d.can := by unfold Dev.setUnsynced; dsimp only; split <;> rfl
@[simp] theorem Dev.setUnsynced_cfg (d : Dev) (b : Bool) : (d.setUnsynced b).cfg = d.cfg := by unfold Dev.setUnsynced; dsimp only; split <;> rfl
@[simp] theorem Dev.setUnsynced_cores (d : Dev) (b : Bool) : (d.setUnsynced b).cores = d.cores := by unfold Dev.setUnsynced; dsimp only; split <;> rfl
@[simp] theorem Dev.setUnsynced_flash (d : Dev) (b : Bool) : (d.setUnsynced b).flash = d.flash := by unfold Dev.setUnsynced; dsimp only; split <;> rfl
@[simp] theorem Dev.setUnsynced_mbx (d : Dev) (b : Bool) : (d.setUnsynced b).mbx = d.mbx := by unfold Dev.setUnsynced; dsimp only; split <;> rfl
@[simp] theorem Dev.setUnsynced_evt (d : Dev) (b : Bool) : (d.setUnsynced b).evt = d.evt := by unfold Dev.setUnsynced; dsimp only; split <;> rfl
@[simp] theorem Dev.setUnsynced_rtc (d : Dev) (b : Bool) : (d.setUnsynced b).rtc = d.rtc := by unfold Dev.setUnsynced; dsimp only; split <;> rfl
@[simp] theorem Dev.setUnsynced_pwr (d : Dev) (b : Bool) : (d.setUnsynced b).pwr = d.pwr := by unfold Dev.setUnsynced; dsimp only; split <;> rfl
@[simp] theorem Dev.setUnsynced_flt (d : Dev) (b : Bool) : (d.setUnsynced b).flt = d.flt := by unfold Dev.setUnsynced; dsimp only; split <;> rfl
@[simp] theorem Dev.setUnsynced_upd (d : Dev) (b : Bool) : (d.setUnsynced b).upd = d.upd := by unfold Dev.setUnsynced; dsimp only; split <;> rfl
@[simp] theorem Dev.setUnsynced_img (d : Dev) (b : Bool) : (d.setUnsynced b).img = d.img := by unfold Dev.setUnsynced; dsimp only; split <;> rfl
@[simp] theorem Dev.setUnsynced_resetDue (d : Dev) (b : Bool) : (d.setUnsynced b).resetDue = d.resetDue := by unfold Dev.setUnsynced; dsimp only; split <;> rfl

@[simp] theorem Dev.authRoll_now (d : Dev) : (d.authRoll).now = d.now := by unfold Dev.authRoll; dsimp only; split <;> rfl
@[simp] theorem Dev.authRoll_freeCtr (d : Dev) : (d.authRoll).freeCtr = d.freeCtr := by unfold Dev.authRoll; dsimp only; split <;> rfl
@[simp] theorem Dev.authRoll_ports (d : Dev) : (d.authRoll).ports = d.ports := by unfold Dev.authRoll; dsimp only; split <;> rfl
@[simp] theorem Dev.authRoll_regions (d : Dev) : (d.authRoll).regions = d.regions := by unfold Dev.authRoll; dsimp only; split <;> rfl
@[simp] theorem Dev.authRoll_datum (d : Dev) : (d.authRoll).datum = d.datum := by unfold Dev.authRoll; dsimp only; split <;> rfl
@[simp] theorem Dev.authRoll_cl (d : Dev) : (d.authRoll).cl = d.cl := by unfold Dev.authRoll; dsimp only; split <;> rfl
@[simp] theorem Dev.authRoll_latch (d : Dev) : (d.authRoll).latch = d.latch := by unfold Dev.authRoll; dsimp only; split <;> rfl
@[simp] theorem Dev.authRoll_bus (d : Dev) : (d.authRoll).bus = d.bus := by unfold Dev.authRoll; dsimp only; split <;> rfl
@[simp] theorem Dev.authRoll_holds (d : Dev) : (d.authRoll).holds = d.holds := by unfold Dev.authRoll; dsimp only; split <;> rfl
@[simp] theorem Dev.authRoll_xbar (d : Dev) : (d.authRoll).xbar = d.xbar := by unfold Dev.authRoll; dsimp only; split <;> rfl
@[simp] theorem Dev.authRoll_errs (d : Dev) : (d.authRoll).errs = d.errs := by unfold Dev.authRoll; dsimp only; split <;> rfl
@[simp] theorem Dev.authRoll_keys (d : Dev) : (d.authRoll).keys = d.keys := by unfold Dev.authRoll; dsimp only; split <;> rfl
@[simp] theorem Dev.authRoll_otp (d : Dev) : (d.authRoll).otp = d.otp := by unfold Dev.authRoll; dsimp only; split <;> rfl
@[simp] theorem Dev.authRoll_att (d : Dev) : (d.authRoll).att = d.att := by unfold Dev.authRoll; dsimp only; split <;> rfl
@[simp] theorem Dev.authRoll_hash (d : Dev) : (d.authRoll).hash = d.hash := by unfold Dev.authRoll; dsimp only; split <;> rfl
@[simp] theorem Dev.authRoll_eng (d : Dev) : (d.authRoll).eng = d.eng := by unfold Dev.authRoll; dsimp only; split <;> rfl
@[simp] theorem Dev.authRoll_drv (d : Dev) : (d.authRoll).drv = d.drv := by unfold Dev.authRoll; dsimp only; split <;> rfl
@[simp] theorem Dev.authRoll_dbg (d : Dev) : (d.authRoll).dbg = d.dbg := by unfold Dev.authRoll; dsimp only; split <;> rfl
@[simp] theorem Dev.authRoll_trk (d : Dev) : (d.authRoll).trk = d.trk := by unfold Dev.authRoll; dsimp only; split <;> rfl
@[simp] theorem Dev.authRoll_links (d : Dev) : (d.authRoll).links = d.links := by unfold Dev.authRoll; dsimp only; split <;> rfl
@[simp] theorem Dev.authRoll_tdp (d : Dev) : (d.authRoll).tdp = d.tdp := by unfold Dev.authRoll; dsimp only; split <;> rfl
@[simp] theorem Dev.authRoll_can (d : Dev) : (d.authRoll).can = d.can := by unfold Dev.authRoll; dsimp only; split <;> rfl
@[simp] theorem Dev.authRoll_cfg (d : Dev) : (d.authRoll).cfg = d.cfg := by unfold Dev.authRoll; dsimp only; split <;> rfl
@[simp] theorem Dev.authRoll_cores (d : Dev) : (d.authRoll).cores = d.cores := by unfold Dev.authRoll; dsimp only; split <;> rfl
@[simp] theorem Dev.authRoll_flash (d : Dev) : (d.authRoll).flash = d.flash := by unfold Dev.authRoll; dsimp only; split <;> rfl
@[simp] theorem Dev.authRoll_mbx (d : Dev) : (d.authRoll).mbx = d.mbx := by unfold Dev.authRoll; dsimp only; split <;> rfl
@[simp] theorem Dev.authRoll_evt (d : Dev) : (d.authRoll).evt = d.evt := by unfold Dev.authRoll; dsimp only; split <;> rfl
@[simp] theorem Dev.authRoll_rtc (d : Dev) : (d.authRoll).rtc = d.rtc := by unfold Dev.authRoll; dsimp only; split <;> rfl
@[simp] theorem Dev.authRoll_pwr (d : Dev) : (d.authRoll).pwr = d.pwr := by unfold Dev.authRoll; dsimp only; split <;> rfl
@[simp] theorem Dev.authRoll_flt (d : Dev) : (d.authRoll).flt = d.flt := by unfold Dev.authRoll; dsimp only; split <;> rfl
@[simp] theorem Dev.authRoll_upd (d : Dev) : (d.authRoll).upd = d.upd := by unfold Dev.authRoll; dsimp only; split <;> rfl
@[simp] theorem Dev.authRoll_img (d : Dev) : (d.authRoll).img = d.img := by unfold Dev.authRoll; dsimp only; split <;> rfl
@[simp] theorem Dev.authRoll_resetDue (d : Dev) : (d.authRoll).resetDue = d.resetDue := by unfold Dev.authRoll; dsimp only; split <;> rfl

/-! ### A whole command -/

@[simp] theorem onDev_ram (f : Dev → Dev) (s : State) : (onDev f s).ram = s.ram := rfl
@[simp] theorem onDev_pending (f : Dev → Dev) (s : State) : (onDev f s).pending = s.pending := rfl
@[simp] theorem onDev_d (f : Dev → Dev) (s : State) : (onDev f s).d = (f s.d).settle := rfl

/-- SEQ is judged, and nothing else of the trunk registers changes. -/
theorem Dev.settle_cause (d : Dev) : d.settle.trk.cause = d.trk.cause := by unfold Dev.settle; split <;> rfl

/-- Time that is past does not run back. -/
theorem Dev.until_past (d : Dev) (t : Nat) (h : t ≤ d.now) : (d.until_ t).now = d.now := by
  simp [Dev.until_, Dev.advance]; omega

/-- Time reaches the tick. -/
theorem Dev.until_due (d : Dev) (t : Nat) (h : d.now ≤ t) : (d.until_ t).now = t := by
  simp [Dev.until_, Dev.advance]; omega

end Sys2Proof.Machine
end

