-- ==== Sys2Proof/Laws/Compose.lean ====
section
/-! SUPPORT. How updates compose, when two commands' effects are equal, and what the accesses of each page and the shared
operations on queues and frames can do: cited in place of unfolding them. -/

namespace Sys2Proof.Machine

/-! ### Two changes of one part are one change -/

theorem Dev.modPort_modPort (d : Dev) (p : PortId) (f g : Port → Port) :
    (d.modPort p f).modPort p g = d.modPort p fun x => g (f x) := by
  simp only [Dev.modPort, vset_self]
  simp [-Fin.getElem_fin]

theorem Dev.modRegion_modRegion (d : Dev) (r : RegionId) (f g : Region → Region) :
    (d.modRegion r f).modRegion r g = d.modRegion r fun x => g (f x) := by
  simp only [Dev.modRegion, vset_self]
  simp [-Fin.getElem_fin]

theorem Dev.modTrunk_modTrunk (d : Dev) (l : LinkId) (f g : Trunk → Trunk) :
    (d.modTrunk l f).modTrunk l g = d.modTrunk l fun x => g (f x) := by
  simp only [Dev.modTrunk, vset_self]
  simp [-Fin.getElem_fin]

theorem Dev.modCore_modCore (d : Dev) (c : CoreId) (f g : Core → Core) :
    (d.modCore c f).modCore c g = d.modCore c fun x => g (f x) := by
  simp only [Dev.modCore, vset_self]
  simp [-Fin.getElem_fin]

theorem Dev.modRx_modRx (d : Dev) (p : PortId) (f g : Rx → Rx) : (d.modRx p f).modRx p g = d.modRx p fun x => g (f x) := by
  simp only [Dev.modRx_eq, Dev.modPort_modPort]

theorem Dev.modSyn_modSyn (d : Dev) (p : PortId) (f g : Synth → Synth) :
    (d.modSyn p f).modSyn p g = d.modSyn p fun x => g (f x) := by
  simp only [Dev.modSyn_eq, Dev.modPort_modPort]

theorem Dev.modTx_modTx (d : Dev) (p : PortId) (f g : Tx → Tx) : (d.modTx p f).modTx p g = d.modTx p fun x => g (f x) := by
  simp only [Dev.modTx_eq, Dev.modPort_modPort]

theorem Dev.modTun_modTun (d : Dev) (p : PortId) (f g : Tuner → Tuner) :
    (d.modTun p f).modTun p g = d.modTun p fun x => g (f x) := by
  simp only [Dev.modTun_eq, Dev.modPort_modPort]

theorem Dev.modCal_modCal (d : Dev) (p : PortId) (f g : Cal → Cal) : (d.modCal p f).modCal p g = d.modCal p fun x => g (f x) := by
  simp only [Dev.modCal_eq, Dev.modPort_modPort]

theorem Dev.modSb_modSb (d : Dev) (p : PortId) (f g : SlotBook → SlotBook) :
    (d.modSb p f).modSb p g = d.modSb p fun x => g (f x) := by
  simp only [Dev.modSb_eq, Dev.modPort_modPort]

theorem Dev.modLink_modLink (d : Dev) (r : RegionId) (f g : Link → Link) :
    (d.modLink r f).modLink r g = d.modLink r fun x => g (f x) := by
  simp only [Dev.modLink_eq, Dev.modRegion_modRegion]

/-! ### Changes that agree on what stands there are equal -/

theorem Dev.modPort_congr {d : Dev} {p : PortId} {f g : Port → Port} (h : f d.ports[p] = g d.ports[p]) :
    d.modPort p f = d.modPort p g := by
  simp only [Dev.modPort, h]

theorem Dev.modRegion_congr {d : Dev} {r : RegionId} {f g : Region → Region} (h : f d.regions[r] = g d.regions[r]) :
    d.modRegion r f = d.modRegion r g := by
  simp only [Dev.modRegion, h]

theorem Dev.modTrunk_congr {d : Dev} {l : LinkId} {f g : Trunk → Trunk} (h : f d.links[l] = g d.links[l]) :
    d.modTrunk l f = d.modTrunk l g := by
  simp only [Dev.modTrunk, h]

theorem Dev.modRx_congr {d : Dev} {p : PortId} {f g : Rx → Rx} (h : f (d.ports[p]).rx = g (d.ports[p]).rx) :
    d.modRx p f = d.modRx p g := by
  simp only [Dev.modRx, Dev.modPort, h]

theorem Dev.modSyn_congr {d : Dev} {p : PortId} {f g : Synth → Synth} (h : f (d.ports[p]).syn = g (d.ports[p]).syn) :
    d.modSyn p f = d.modSyn p g := by
  simp only [Dev.modSyn, Dev.modPort, h]

theorem Dev.modTx_congr {d : Dev} {p : PortId} {f g : Tx → Tx} (h : f (d.ports[p]).tx = g (d.ports[p]).tx) :
    d.modTx p f = d.modTx p g := by
  simp only [Dev.modTx, Dev.modPort, h]

theorem Dev.modTun_congr {d : Dev} {p : PortId} {f g : Tuner → Tuner} (h : f (d.ports[p]).tun = g (d.ports[p]).tun) :
    d.modTun p f = d.modTun p g := by
  simp only [Dev.modTun, Dev.modPort, h]

theorem Dev.modCal_congr {d : Dev} {p : PortId} {f g : Cal → Cal} (h : f (d.ports[p]).cal = g (d.ports[p]).cal) :
    d.modCal p f = d.modCal p g := by
  simp only [Dev.modCal, Dev.modPort, h]

theorem Dev.modSb_congr {d : Dev} {p : PortId} {f g : SlotBook → SlotBook} (h : f (d.ports[p]).sb = g (d.ports[p]).sb) :
    d.modSb p f = d.modSb p g := by
  simp only [Dev.modSb, Dev.modPort, h]

theorem Dev.modGauge_congr {d : Dev} {p : PortId} {f g : Gauge → Gauge} (h : f (d.ports[p]).rx.gauge = g (d.ports[p]).rx.gauge) :
    d.modGauge p f = d.modGauge p g := by
  simp only [Dev.modGauge, Dev.modRx, Dev.modPort, h]

theorem Dev.modLink_congr {d : Dev} {r : RegionId} {f g : Link → Link} (h : f (d.regions[r]).link = g (d.regions[r]).link) :
    d.modLink r f = d.modLink r g := by
  simp only [Dev.modLink, Dev.modRegion, h]

/-! ### Time -/

@[simp] theorem Dev.until_ports (d : Dev) (t : Nat) : (d.until_ t).ports = d.ports := rfl
@[simp] theorem Dev.until_regions (d : Dev) (t : Nat) : (d.until_ t).regions = d.regions := rfl
@[simp] theorem Dev.untilDatum_ports (d : Dev) (t : Int) : (d.untilDatum t).ports = d.ports := rfl
@[simp] theorem Dev.untilDatum_regions (d : Dev) (t : Int) : (d.untilDatum t).regions = d.regions := rfl

theorem Dev.advance_unsynced (d : Dev) (n : Nat) : (d.advance n).datum.unsynced = d.datum.unsynced := by
  unfold Dev.advance
  dsimp only
  split <;> rfl

theorem Dev.untilDatum_unsynced (d : Dev) (t : Int) : (d.untilDatum t).datum.unsynced = d.datum.unsynced :=
  Dev.advance_unsynced ..

/-! ### A command's end -/

/-- Without a call for a chip reset, the end of a command only brings the levels of Dev.settle up to date. -/
theorem finish_of {s : State} (h : s.d.resetDue = false) : finish s = { s with d := s.d.settle } := by
  unfold finish
  rw [h]
  rfl

/-- With one, the device starts anew and its SRAM is cleared (R427). -/
theorem finish_reset {s : State} (h : s.d.resetDue = true) : finish s = { s with d := (s.d.beginStart 3).settle, ram := [] } := by
  unfold finish
  rw [h]
  rfl

/-- The queue of commands stands. -/
@[simp] theorem finish_pending (s : State) : (finish s).pending = s.pending := by
  unfold finish
  split <;> rfl

@[simp] theorem onDevW_pending (f : Dev → Dev) (s : State) : (onDevW f s).pending = s.pending := finish_pending _

theorem onDevW_of {f : Dev → Dev} {s : State} (h : (f s.begun.d).resetDue = false) :
    onDevW f s = { s with d := (f s.begun.d).settle } := finish_of h

theorem onDevW_ports {f : Dev → Dev} {s : State} (h : (f s.begun.d).resetDue = false) :
    (onDevW f s).d.ports = (f s.begun.d).ports := by
  rw [onDevW_of h, Dev.settle_ports]

theorem onDevW_ram {f : Dev → Dev} {s : State} (h : (f s.begun.d).resetDue = false) : (onDevW f s).ram = s.ram := by
  rw [onDevW_of h]

/-- Two device changes that agree on this state give the same next state. -/
theorem onDev_next {f g : Dev → Dev} {s : State} (h : f s.d = g s.d) :
    (Host.Outcome.next (onDev f s) : Host.Outcome State Fault Refusal) = .next (onDev g s) := by
  simp [onDev, h]

theorem onDevW_next {f g : Dev → Dev} {s : State} (h : f s.begun.d = g s.begun.d) :
    (Host.Outcome.next (onDevW f s) : Host.Outcome State Fault Refusal) = .next (onDevW g s) := by
  simp [onDevW, h]

/-! ### Register accesses, page by page -/

/-- A write of a port register that answers: what Dev.portWrite does, and the initiator is answered. -/
theorem rowWrite_portReg {i : Initiator} {p : PortId} {a o : Nat} {v : Word} {s : State} {g : Dev → Dev}
    (ha : a = portBase p + o) (ho : o < 0x10000) (hp : s.d.portAnswers p) (hi : s.d.mayWrite i a)
    (h : s.begun.d.portWrite p o v = g s.begun.d) :
    (Host.Outcome.next (rowWrite i a v s) : Host.Outcome State Fault Refusal) =
      .next (onDevW (fun d => (g d).answer i .done) s) := by
  subst ha
  rw [rowWrite_port (winOf_port p o ho) hi hp]
  exact onDevW_next (by rw [h])

/-- A write of a region page that answers, where regionWrite changes the device alone. -/
theorem rowWrite_regionReg {i : Initiator} {r : RegionId} {k : Fin 4} {a o : Nat} {v : Word} {s : State} {g : Dev → Dev}
    (ha : a = regionPage r k.val + o) (ho : o < 0x10000) (hp : s.d.pageAnswers r k) (hi : s.d.mayWrite i a)
    (h : regionWrite i r k o v s.begun = ({ s.begun with d := g s.begun.d }, .done)) :
    (Host.Outcome.next (rowWrite i a v s) : Host.Outcome State Fault Refusal) =
      .next (onDevW (fun d => (g d).answer i .done) s) := by
  subst ha
  rw [rowWrite_region (winOf_region r k o ho) hi hp, h]
  rfl

/-- A write of a chip page, where chipWrite changes the device alone. -/
theorem rowWrite_chipReg {i : Initiator} {k : Fin 12} {a o : Nat} {v : Word} {s : State} {g : Dev → Dev}
    (ha : a = chipPage k.val + o) (ho : o < 0x10000) (hi : s.d.mayWrite i a)
    (h : chipWrite i k o v s.begun = ({ s.begun with d := g s.begun.d }, .done)) :
    (Host.Outcome.next (rowWrite i a v s) : Host.Outcome State Fault Refusal) =
      .next (onDevW (fun d => (g d).answer i .done) s) := by
  subst ha
  rw [rowWrite_chip (winOf_chip k o ho) hi, h]
  rfl

/-- A read of a region page that answers. -/
theorem rowRead_regionReg {i : Initiator} {r : RegionId} {k : Fin 4} {a o : Nat} {s : State}
    {g : Dev → Dev} {w : Word} (ha : a = regionPage r k.val + o) (ho : o < 0x10000) (hp : s.d.pageAnswers r k)
    (hi : s.d.mayRead i a) (h : s.begun.d.regionRead i r k o = (g s.begun.d, .data w)) :
    (Host.Outcome.next (rowRead i a s) : Host.Outcome State Fault Refusal) =
      .next (onDevW (fun d => (g d).answer i (.data w)) s) := by
  subst ha
  rw [rowRead_region (winOf_region r k o ho) hi hp, h]
  rfl

/-- A read of a chip page. -/
theorem rowRead_chipReg {i : Initiator} {k : Fin 12} {a o : Nat} {s : State} {g : Dev → Dev} {w : Word}
    (ha : a = chipPage k.val + o) (ho : o < 0x10000) (hi : s.d.mayRead i a)
    (h : s.begun.d.chipRead i k o = (g s.begun.d, .data w)) :
    (Host.Outcome.next (rowRead i a s) : Host.Outcome State Fault Refusal) =
      .next (onDevW (fun d => (g d).answer i (.data w)) s) := by
  subst ha
  rw [rowRead_chip (winOf_chip k o ho) hi, h]
  rfl

/-- A write of the security page: its core registers ask for machine mode (R235). -/
theorem rowWrite_security {i : Initiator} {a o : Nat} {v : Word} {s : State} {g : Dev → Dev} (ha : a = chipPage 6 + o)
    (ho : o < 0x10000) (hi : s.d.mayWrite i a) (hm : coreOnly o = true → s.d.machineCore i = true)
    (h : s.begun.d.secWrite s.ram o v = g s.begun.d) :
    (Host.Outcome.next (rowWrite i a v s) : Host.Outcome State Fault Refusal) =
      .next (onDevW (fun d => (g d).answer i .done) s) := by
  refine rowWrite_chipReg (k := 6) (g := g) ha ho hi ?_
  unfold chipWrite
  dsimp only
  rw [if_neg]
  · rw [← h]
    rfl
  · intro hh
    simp at hh
    have := hm hh.1
    rw [show s.begun.d.machineCore i = s.d.machineCore i from rfl, this] at hh
    simp at hh

/-! ### Queues -/

/-- A word pushed to a queue that is not throwing words away stands at its end, marked; FREE falls by one (R352). -/
theorem Queue.push_words (q : Queue) (w : Word64) (eop : Bool) (h : q.discard = false) :
    (q.push w eop).words = q.words ++ [{ data := w, eop }] := by
  simp [Queue.push, h]

/-- A queue that throws words away keeps what it holds (R357). -/
theorem Queue.push_discard (q : Queue) (w : Word64) (eop : Bool) (h : q.discard = true) :
    q.push w eop = { q with discard := !eop, lastEop := eop } := by
  simp [Queue.push, h]

/-- The word that leaves is the first (R355). -/
theorem Queue.pop_words (q : Queue) : q.pop.words = q.words.tail := by
  unfold Queue.pop
  split <;> simp_all

/-- A push into an empty queue and a pop give the queue without words back. -/
theorem Queue.pop_push (q : Queue) (w : Word64) (eop : Bool) (h : q.words = []) (hd : q.discard = false) :
    (q.push w eop).pop.words = [] := by
  rw [Queue.pop_words, Queue.push_words _ _ _ hd, h]
  rfl

theorem Dev.wakeDomain_ports (d : Dev) (r : RegionId) (n : Nat) : (d.wakeDomain r n).ports = d.ports := by
  unfold Dev.wakeDomain
  split <;> rfl

/-- A packet that a hardware producer wrote: the queue was usable and had room, and no port changed (R353). -/
theorem Dev.producePacket_some {d e : Dev} {q : QueueId} {ws : List Word64} (h : d.producePacket q ws = some e) :
    d.queueUsable q = true ∧ ws.length ≤ (d.queue q).free ∧ e.ports = d.ports ∧ e.resetDue = d.resetDue := by
  unfold Dev.producePacket at h
  split at h
  · rename_i hc
    simp only [Bool.and_eq_true, decide_eq_true_eq] at hc
    cases h
    refine ⟨hc.1, hc.2, Dev.wakeDomain_ports _ _ _, ?_⟩
    unfold Dev.wakeDomain
    split <;> rfl
  · cases h

/-! ### Events -/

/-- An event that no channel has selected reaches nothing (R377). -/
theorem Dev.reachChannels_none (e : Ev) (l : List (Fin 64)) (d : Dev)
    (h : ∀ m : Fin 64, arrivals (d.evt.ch[m]).src [e] = none) : Dev.reachChannels [e] l d = (d, [], []) := by
  induction l with
  | nil => rfl
  | cons m l ih =>
    unfold Dev.reachChannels
    rw [h m]
    exact ih

/-! ### Requests of the dictionary -/

/-- What an answer to a request leaves: the response leaves on the carrier, if there is one. -/
def answered (c : Carrier) (a : Answer) : Host.Outcome State Fault Refusal :=
  .next (finish (match a with | (s, some m) => { s with d := s.d.respond c m } | (s, none) => s))

/-- A request that its carrier takes at once is parsed, and its answer is what its kind gives (R269, R270). -/
theorem tdpRow_parse {s : State} {c : Carrier} {m : List Byte} {ok : Bool} (h : s.tdpReady c m) :
    (Host.Outcome.next (tdpRow c m ok s) : Host.Outcome State Fault Refusal) = answered c
      (match parseTdp (s.d.tdpLimits c) m with
      | .writeExp i b l => routed c i b m (tdpWriteExp c i b l ok) s.heard
      | .read i b => routed c i b m (tdpRead c i b) s.heard
      | .writeInit i b t => routed c i b m (tdpWriteInit c i b t) s.heard
      | .segReq q => inXfer c m (tdpSegReq c q) s.heard
      | .seg last q l => inXfer c m (tdpSeg c last q l ok) s.heard
      | .abort i b e => inXfer c m (tdpAbort c i b e) s.heard
      | .bad i b => aborts c (s.d.badNames c m i b).1 (s.d.badNames c m i b).2 1 s.heard) := by
  obtain ⟨h1, h2, h3, h4, h5⟩ := h
  have h2' : (decide (c ≠ 0) && (dictNotReady s.d m).isSome) = false := by
    rcases h2 with h2 | h2 <;> simp [h2]
  have hov : s.heard.d.xferOverdue c = false := h4
  have hup : s.heard.d.updOverdue = false := h5
  have e : tdpServe c m ok s.begun = tdpGive c m ok s.heard := rfl
  unfold tdpRow answered
  rw [h1, h2', e]
  unfold tdpGive
  rw [h3]
  unfold tdpHandle
  simp only [hov, hup, Bool.false_eq_true, if_false, Bool.not_true, Bool.or_false]
  congr 2

/-- A READ or write of an object that the HV2448 itself serves (R267). -/
theorem routed_hw {s : State} {c : Carrier} {i : BitVec 16} {b : Byte} {m : List Byte} {f : State → Answer}
    (h : (s.asked c).d.route i.toNat = .hw) : routed c i b m f s.heard = f (s.asked c) := by
  unfold routed
  dsimp only
  change (match (s.asked c).d.route i.toNat with | .hw => _ | .fw => _ | .no e => _) = _
  rw [h]
  rfl

end Sys2Proof.Machine
end

