-- ==== Sys2Proof/Laws/Cores.lean ====
section
/-! SUPPORT. What the operations that every instruction of a core ends with can do: retiring, taking an exception, MRET. -/

namespace Sys2Proof.Machine


/-- An instruction retires: its destination register alone takes the value, x0 none, the pc the next address, minstret
counts; nothing else of the core, no other core and no memory changes. -/
theorem coreRetire_frame (u : State) (c : CoreId) (rd : Fin 32) (v pc : Word) :
    ((coreRetire c rd v pc u).d.cores[c]).pc = pc ∧
    (∀ k : Fin 32, ((coreRetire c rd v pc u).d.cores[c]).reg k = if k = rd ∧ k.val ≠ 0 then v else (u.d.cores[c]).reg k) ∧
    ((coreRetire c rd v pc u).d.cores[c]).mach = (u.d.cores[c]).mach ∧
    ((coreRetire c rd v pc u).d.cores[c]).resv = (u.d.cores[c]).resv ∧
    ((coreRetire c rd v pc u).d.cores[c]).csr =
      { (u.d.cores[c]).csr with minstret := ((coreRetire c rd v pc u).d.cores[c]).csr.minstret } ∧
    (coreRetire c rd v pc u).ram = u.ram ∧
    (∀ k, k ≠ c → (coreRetire c rd v pc u).d.cores[k] = u.d.cores[k]) := by
  unfold coreRetire
  dsimp only
  rw [Dev.modCore_cores_self]
  generalize u.d.cores[c] = x
  refine ⟨rfl, ?_, ?_, ?_, ?_, rfl, fun k h => Dev.modCore_cores_ne _ _ _ _ h⟩
  · intro k
    unfold Core.reg Core.retire Core.setReg
    dsimp only
    by_cases h0 : rd.val = 0
    · by_cases hk : k.val = 0
      · simp [hk]
      · have : k ≠ rd := fun e => hk (e ▸ h0)
        simp [h0, hk, this]
    · simp only [h0, if_false, vset_get]
      by_cases hk : k.val = 0
      · simp [hk]
      · simp [hk, -Fin.getElem_fin]
  · unfold Core.retire Core.setReg
    split <;> rfl
  · unfold Core.retire Core.setReg
    split <;> rfl
  · unfold Core.retire Core.setReg
    dsimp only
    split <;> split <;> rfl

/-- An exception: the pc, the cause and the value are saved, the core is in machine mode at the base of mtvec; its
registers, the other cores and memory stand (R323). -/
theorem coreExcept_frame (u : State) (c : CoreId) (code : Nat) (tval : Word) :
    ((coreExcept c code tval u).d.cores[c]).csr.mepc = (u.d.cores[c]).pc ∧
    ((coreExcept c code tval u).d.cores[c]).csr.mcause = BitVec.ofNat 32 code ∧
    ((coreExcept c code tval u).d.cores[c]).csr.mtval = tval ∧
    ((coreExcept c code tval u).d.cores[c]).mach = true ∧
    ((coreExcept c code tval u).d.cores[c]).pc = (u.d.cores[c]).csr.mtvec &&& 0xFFFFFFFC ∧
    ((coreExcept c code tval u).d.cores[c]).regs = (u.d.cores[c]).regs ∧
    (coreExcept c code tval u).ram = u.ram ∧
    (∀ k, k ≠ c → (coreExcept c code tval u).d.cores[k] = u.d.cores[k]) := by
  unfold coreExcept Dev.except Dev.trap
  dsimp only
  rw [Dev.modCore_cores_self]
  exact ⟨rfl, rfl, rfl, rfl, by simp, rfl, rfl, fun k h => Dev.modCore_cores_ne _ _ _ _ h⟩

/-- MRET goes back to mepc in the mode that MPP holds; the general registers stand. -/
theorem Core.mret_frame (x : Core) :
    x.mret.pc = x.csr.mepc ∧ x.mret.mach = decide (fld x.csr.mstatus 11 2 = 3) ∧ x.mret.regs = x.regs := by
  unfold Core.mret Core.retire Core.setReg
  exact ⟨rfl, rfl, rfl⟩

end Sys2Proof.Machine
end

