-- ==== Sys2Proof/Laws/Memory.lean ====
section
/-! SUPPORT. Memory in its canonical form: every operation keeps the form, a byte written reads back, and every other
byte stands. -/

namespace Sys2Proof.Machine

/-- The form from a later address holds from an earlier one. -/
theorem memWfFrom_mono {dflt : Byte} {m : Memory} {lo lo' : Nat} (h : memWfFrom dflt lo m = true) (l : lo' ≤ lo) :
    memWfFrom dflt lo' m = true := by
  cases m with
  | nil => rfl
  | cons x m =>
    simp only [memWfFrom, Bool.and_eq_true, decide_eq_true_eq] at h ⊢
    exact ⟨⟨by omega, h.1.2⟩, h.2⟩

/-- What lies below a form is unlisted. -/
theorem memGet_below {dflt : Byte} {m : Memory} {lo a : Nat} (h : memWfFrom dflt lo m = true) (l : a < lo) :
    memGet dflt m a = dflt := by
  induction m generalizing lo with
  | nil => rfl
  | cons x m ih =>
    simp only [memWfFrom, Bool.and_eq_true, decide_eq_true_eq] at h
    simp only [memGet]
    rw [if_neg (by omega)]
    exact ih h.2 (by omega)

/-- A write keeps the form. -/
theorem memSet_wfFrom {dflt v : Byte} {m : Memory} {lo a : Nat} (h : memWfFrom dflt lo m = true) (l : lo ≤ a) :
    memWfFrom dflt lo (memSet dflt m a v) = true := by
  induction m generalizing lo with
  | nil => by_cases e : v = dflt <;> simp [memSet, memWfFrom, e, l]
  | cons x m ih =>
    obtain ⟨b, w⟩ := x
    simp only [memWfFrom, Bool.and_eq_true, decide_eq_true_eq] at h
    simp only [memSet]
    split
    · split
      · simp only [memWfFrom, Bool.and_eq_true, decide_eq_true_eq]; exact h
      · rename_i c e
        simp only [memWfFrom, Bool.and_eq_true, decide_eq_true_eq]
        exact ⟨⟨l, e⟩, ⟨by omega, h.1.2⟩, h.2⟩
    · split
      · split
        · exact memWfFrom_mono h.2 (by omega)
        · rename_i c e1 e
          simp only [memWfFrom, Bool.and_eq_true, decide_eq_true_eq]
          exact ⟨⟨l, e⟩, e1 ▸ h.2⟩
      · simp only [memWfFrom, Bool.and_eq_true, decide_eq_true_eq]
        exact ⟨h.1, ih h.2 (by omega)⟩

/-- A string of bytes keeps the form. -/
theorem memWrite_wfFrom {dflt : Byte} {l : List Byte} {m : Memory} {lo a : Nat} (h : memWfFrom dflt lo m = true)
    (le : lo ≤ a) : memWfFrom dflt lo (memWrite dflt m a l) = true := by
  induction l generalizing m a with
  | nil => exact h
  | cons v l ih => exact ih (memSet_wfFrom h le) (by omega)

/-- One byte of SRAM is written: the form stands. -/
theorem Memory.wf_memSet {m : Memory} {a : Nat} {v : Byte} (h : m.wf = true) : Memory.wf (memSet 0 m a v) = true :=
  memSet_wfFrom h (Nat.zero_le a)

/-- A string of bytes of SRAM is written: the form stands. -/
theorem Memory.wf_memWrite {m : Memory} {a : Nat} {l : List Byte} (h : m.wf = true) :
    Memory.wf (memWrite 0 m a l) = true := memWrite_wfFrom h (Nat.zero_le a)

/-- Read after write, in the canonical form. -/
theorem memGet_memSet {dflt v : Byte} {m : Memory} {lo a b : Nat} (h : memWfFrom dflt lo m = true) :
    memGet dflt (memSet dflt m a v) b = if b = a then v else memGet dflt m b := by
  induction m generalizing lo with
  | nil =>
    by_cases e : v = dflt
    · simp [memSet, memGet, e]
    · simp only [memSet, if_neg e, memGet]
      by_cases c : a = b
      · simp [c]
      · simp [c, Ne.symm c]
  | cons x m ih =>
    obtain ⟨c, w⟩ := x
    simp only [memWfFrom, Bool.and_eq_true, decide_eq_true_eq] at h
    simp only [memSet]
    split
    · rename_i lt
      by_cases e : v = dflt
      · simp only [if_pos e]
        by_cases ab : b = a
        · subst ab
          simp only [memGet, if_pos]
          rw [if_neg (by omega), memGet_below h.2 (by omega)]
          exact e.symm
        · rw [if_neg ab]
      · simp only [if_neg e, memGet]
        by_cases ab : b = a
        · simp [ab]
        · rw [if_neg ab, if_neg (Ne.symm ab)]
    · split
      · rename_i nlt eq
        subst eq
        by_cases e : v = dflt
        · simp only [if_pos e]
          by_cases ab : b = a
          · subst ab
            rw [if_pos rfl, memGet_below h.2 (by omega), e]
          · simp only [if_neg ab, memGet]
            rw [if_neg (Ne.symm ab)]
        · simp only [if_neg e, memGet]
          by_cases ab : b = a
          · simp [ab]
          · rw [if_neg (Ne.symm ab), if_neg ab, if_neg (Ne.symm ab)]
      · rename_i nlt neq
        simp only [memGet]
        by_cases cb : c = b
        · rw [if_pos cb, if_neg (by omega), if_pos cb]
        · rw [if_neg cb, if_neg cb]
          exact ih h.2

/-- A string of bytes leaves every byte outside it. -/
theorem memGet_memWrite_outside {dflt : Byte} {l : List Byte} {m : Memory} {a b : Nat} (h : memWfFrom dflt 0 m = true)
    (out : b < a ∨ a + l.length ≤ b) : memGet dflt (memWrite dflt m a l) b = memGet dflt m b := by
  induction l generalizing m a with
  | nil => rfl
  | cons v l ih =>
    simp only [List.length_cons] at out
    simp only [memWrite]
    rw [ih (memSet_wfFrom h (Nat.zero_le a)) (by omega), memGet_memSet h, if_neg (by omega)]

/-- A string of bytes reads back. -/
theorem memGet_memWrite_inside {dflt : Byte} {l : List Byte} {m : Memory} {a k : Nat} (h : memWfFrom dflt 0 m = true)
    (lt : k < l.length) : memGet dflt (memWrite dflt m a l) (a + k) = l[k] := by
  induction l generalizing m a k with
  | nil => exact absurd lt (Nat.not_lt_zero _)
  | cons v l ih =>
    simp only [memWrite]
    cases k with
    | zero =>
      rw [memGet_memWrite_outside (memSet_wfFrom h (Nat.zero_le a)) (by omega), memGet_memSet h]
      simp
    | succ k =>
      rw [show a + (k + 1) = a + 1 + k by omega]
      simpa using ih (memSet_wfFrom h (Nat.zero_le a)) (by simpa using lt)

end Sys2Proof.Machine
end

