-- ==== Sys2Proof/Laws/RxOnly.lean ====
section
/-! SUPPORT. What the shared operations of the receive side can change: the receive part of ports and the second-look part
of regions, nothing else. One lemma for each operation, cited where an event stops, serves or moves receptions. -/

namespace Sys2Proof.Machine

/-- What the receive side alone can change: the receive part of each port, the second-look part of each region. -/
structure RxOnly (d e : Dev) : Prop where
  rest : e = { d with ports := e.ports, regions := e.regions }
  port : ∀ o : PortId, e.ports[o] = { d.ports[o] with rx := (e.ports[o]).rx }
  region : ∀ r : RegionId, e.regions[r] = { d.regions[r] with second := (e.regions[r]).second }

theorem RxOnly.refl (d : Dev) : RxOnly d d := ⟨rfl, fun _ => rfl, fun _ => rfl⟩

theorem RxOnly.trans {a b c : Dev} (h : RxOnly a b) (g : RxOnly b c) : RxOnly a c := by
  refine ⟨?_, fun o => ?_, fun r => ?_⟩
  · rw [g.rest, h.rest]
  · rw [g.port o, h.port o]
  · rw [g.region r, h.region r]

theorem RxOnly.modRx (d : Dev) (p : PortId) (f : Rx → Rx) : RxOnly d (d.modRx p f) := by
  refine ⟨rfl, fun o => ?_, fun _ => rfl⟩
  rw [Dev.modRx_eq]
  by_cases e : o = p
  · subst e; rw [Dev.modPort_ports_self]
  · rw [Dev.modPort_ports_ne _ _ _ _ e]

theorem RxOnly.modSecond (d : Dev) (r : RegionId) (f : Second → Second) : RxOnly d (d.modSecond r f) := by
  refine ⟨rfl, fun _ => rfl, fun o => ?_⟩
  rw [Dev.modSecond_eq]
  by_cases e : o = r
  · subst e; rw [Dev.modRegion_regions_self]
  · rw [Dev.modRegion_regions_ne _ _ _ _ e]

theorem RxOnly.countRx (d : Dev) (p : PortId) (c : RxCnt) : RxOnly d (d.countRx p c) := RxOnly.modRx _ _ _
theorem RxOnly.modLane (d : Dev) (p : PortId) (i : LaneId) (f : Lane → Lane) : RxOnly d (d.modLane p i f) := RxOnly.modRx _ _ _
theorem RxOnly.modGauge (d : Dev) (p : PortId) (f : Gauge → Gauge) : RxOnly d (d.modGauge p f) := RxOnly.modRx _ _ _
theorem RxOnly.markActive (d : Dev) (p : PortId) (c b : Nat) : RxOnly d (d.markActive p c b) := by
  unfold Dev.markActive; exact RxOnly.modRx _ _ _
theorem RxOnly.gcSlices (d : Dev) (r : RegionId) : RxOnly d (d.gcSlices r) := by
  unfold Dev.gcSlices; exact RxOnly.modSecond _ _ _
theorem RxOnly.allocSlice (d : Dev) (p : PortId) (m : Mode) : RxOnly d (d.allocSlice p m) := by
  unfold Dev.allocSlice
  split
  · exact RxOnly.modSecond _ _ _
  · exact RxOnly.refl _
theorem RxOnly.grant (d : Dev) (p q : PortId) (i : LaneId) (x : LaneReq) : RxOnly d (d.grant p q i x) := by
  unfold Dev.grant; dsimp only
  refine RxOnly.trans (RxOnly.trans ?_ (RxOnly.markActive _ _ _ _)) (RxOnly.allocSlice _ _ _)
  split
  · exact (RxOnly.modRx _ _ _).trans (RxOnly.modLane _ _ _ _)
  · exact (((RxOnly.modRx _ _ _).trans (RxOnly.modLane _ _ _ _)).trans (RxOnly.countRx _ _ _)).trans (RxOnly.countRx _ _ _)
theorem RxOnly.serveList (r : RegionId) (l : List (PortId × LaneReq)) (d : Dev) : RxOnly d (Dev.serveList r l d) := by
  induction l generalizing d with
  | nil => exact RxOnly.refl _
  | cons x l ih =>
    obtain ⟨p, q⟩ := x
    simp only [Dev.serveList]
    split
    · exact (RxOnly.modRx _ _ _).trans (ih _)
    · split
      · exact ih _
      · exact ((RxOnly.modRx _ _ _).trans (RxOnly.grant _ _ _ _ _)).trans (ih _)
theorem RxOnly.serveLanes (d : Dev) (r : RegionId) : RxOnly d (d.serveLanes r) := RxOnly.serveList _ _ _
theorem RxOnly.abortJob (d : Dev) (p : PortId) (i : LaneId) (j : LaneJob) : RxOnly d (d.abortJob p i j) := by
  unfold Dev.abortJob Dev.freeLane
  exact ((RxOnly.modLane _ _ _ _).trans (RxOnly.markActive _ _ _ _)).trans (RxOnly.countRx _ _ _)
theorem RxOnly.abortJobs (l : List (PortId × LaneId × LaneJob)) (d : Dev) : RxOnly d (Dev.abortJobs l d) := by
  induction l generalizing d with
  | nil => exact RxOnly.refl _
  | cons x l ih => obtain ⟨p, i, j⟩ := x; exact (RxOnly.abortJob _ _ _ _).trans (ih _)
theorem RxOnly.countAborts (n : Nat) (p : PortId) (d : Dev) : RxOnly d (Dev.countAborts n p d) := by
  induction n generalizing d with
  | zero => exact RxOnly.refl _
  | succ n ih => exact (RxOnly.countRx _ _ _).trans (ih _)
theorem RxOnly.stopFrames (d : Dev) (p : PortId) : RxOnly d (d.stopFrames p) := by
  unfold Dev.stopFrames
  exact ((RxOnly.abortJobs _ _).trans (RxOnly.countAborts _ _ _)).trans (RxOnly.modRx _ _ _)
theorem RxOnly.foldl {α : Type} (f : Dev → α → Dev) (h : ∀ d a, RxOnly d (f d a)) (l : List α) (d : Dev) :
    RxOnly d (l.foldl f d) := by
  induction l generalizing d with
  | nil => exact RxOnly.refl _
  | cons a l ih => exact (h d a).trans (ih _)
theorem RxOnly.leaveCombines (d : Dev) (p : PortId) : RxOnly d (d.leaveCombines p) :=
  RxOnly.foldl _ (fun _ _ => RxOnly.modRx _ _ _) _ _
theorem RxOnly.abandonGauge (d : Dev) (p : PortId) : RxOnly d (d.abandonGauge p) := RxOnly.modGauge _ _ _
theorem RxOnly.hopRx (d : Dev) (p : PortId) : RxOnly d (d.hopRx p) := by
  unfold Dev.hopRx
  exact ((RxOnly.stopFrames _ _).trans (RxOnly.serveLanes _ _)).trans (RxOnly.gcSlices _ _)
theorem RxOnly.suspendRx (d : Dev) (p : PortId) : RxOnly d (d.suspendRx p) := by
  unfold Dev.suspendRx
  exact ((((RxOnly.stopFrames _ _).trans (RxOnly.leaveCombines _ _)).trans (RxOnly.abandonGauge _ _)).trans
    (RxOnly.serveLanes _ _)).trans (RxOnly.gcSlices _ _)
theorem RxOnly.retuneRx (d : Dev) (p : PortId) : RxOnly d (d.retuneRx p) := by
  unfold Dev.retuneRx
  exact (((RxOnly.stopFrames _ _).trans (RxOnly.foldl _ (fun _ _ => RxOnly.countRx _ _ _) _ _)).trans
    (RxOnly.modSecond _ _ _)).trans ((RxOnly.serveLanes _ _).trans (RxOnly.gcSlices _ _))

/-- With no calibration wanted in a region, none is asked for. -/
theorem Dev.serveCal_none {d : Dev} {r : RegionId} (h : ∀ q ∈ portsOf r, (d.ports[q]).cal.wanted = false) : d.serveCal r = d := by
  unfold Dev.serveCal
  dsimp only
  split
  · rfl
  · have : (portsOf r).find? (fun p => (d.ports[p]).cal.wanted && d.portUp p) = none := by
      rw [List.find?_eq_none]
      intro x hx; rw [h x hx]; simp
    rw [this]

end Sys2Proof.Machine
end

