-- ==== Sys2Proof/WellFormed.lean ====
section
/-! DEFINITION. Well-formed commands: operands that the spec gives a range and that the types leave wider. The meanings
are total, so an ill-formed command has an outcome too; no physical event spells one. -/

namespace Sys2Proof

/-- A number that n bits hold. -/
def fits (n v : Nat) : Bool := v < 2 ^ n

/-- A signed number that n bits hold. -/
def fitsInt (n : Nat) (v : Int) : Bool := -(2 ^ (n - 1) : Nat) ≤ v && v < (2 ^ (n - 1) : Nat)

/-- RSSI in 0.1 dBm (R88). -/
def rssiOk (v : Int) : Bool := -1600 ≤ v && v ≤ 100

/-- A candidate (R43, R78): at least four aligned upchirps, at most 32 preamble symbols, levels in range. -/
def CandInfo.wf (c : CandInfo) : Bool := 4 ≤ c.npre && c.npre ≤ 32 && c.heard.all fun h => rssiOk h.rssi

/-- Demodulated symbols lie below 2^12 (R36). -/
def symsOk (l : List Nat) : Bool := l.all (fits 12)

/-- A lane's report (R51, R86, R89, R90). -/
def LaneReport.wf : LaneReport → Bool
  | .behind => true
  | .symbols peak0 peak1 header payload powers foff _ =>
    symsOk [peak0, peak1] && header.length ≤ 10 && symsOk header && symsOk payload && powers.length ≤ 10 && fitsInt 32 foff

/-- A second-look unit's report (R102). -/
def LookReport.wf : LookReport → Bool
  | .nothing => true
  | .found header payload _ rssi powers foff _ npre =>
    header.length ≤ 10 && symsOk header && symsOk payload && rssiOk rssi && powers.length ≤ 10 && fitsInt 32 foff && npre ≤ 32

/-- A config-memory device (R288): a size of at most 16 MiB, and contents within it. -/
def CfgDevice.wf (x : CfgDevice) : Bool :=
  let size := match x.sfdp with | some (n, _) => n | none => 16777216
  size ≤ 16777216 && (match x.content with | some l => decide (l.length ≤ size) | none => true)

/-- What a start finds: slots exist (R217), measured values fit their registers (R116, R143), one result per port. -/
def StartInputs.wf (x : StartInputs) : Bool :=
  x.slotsLost.all (fits 13) && (match x.cfgDevice with | some v => v.wf | none => true) &&
    x.cal.all (fun c => fits 16 c.nf && fitsInt 8 c.temp) && decide (x.cal.map (·.port)).Nodup

/-- Every operand is in the range that the spec gives it. -/
def Instr.wf : Instr → Bool
  | .preambleCandidate _ _ k c => 6 ≤ k && k ≤ 12 && c.wf
  | .syncCheck _ _ c s0 s1 => c < 4 && symsOk [s0, s1]
  | .laneOutcome _ _ rep => rep.wf
  | .secondLookDone _ _ rep => rep.wf
  | .gaugeDone _ floor => fitsInt 16 floor
  | .calNoiseHotEnd _ nf => fits 16 nf
  | .calTempDrift _ t => fitsInt 8 t
  | .tunerRlMeasured _ rl => fits 6 rl
  | .refinWindowEnd m => (match m with | .valid f => f ≠ 0 | .invalid => true)
  | .canRequestFrame x data fd _ => fits 11 x.ident && data.length ≤ (if fd then 64 else 8)
  | .tdpWriteExp _ _ _ data => data.length ≤ 60
  | .tdpSeg _ _ data => 1 ≤ data.length && data.length ≤ 255
  | .tdpSegLast _ _ data => data.length ≤ 255
  | .updImageSegment _ _ _ data _ => data.length ≤ 255
  | .tempHigh t => fitsInt 16 t
  | .vinValid inp => inp.wf
  | .vinOvervoltageEnd inp => inp.wf
  | .resetn inp => inp.wf
  | .rtcAlarm inp => inp.wf
  | .wakeEvent _ inp => inp.wf
  | .runReached inp => inp.wf
  | _ => true

end Sys2Proof
end

