-- ==== Sys2Proof/Tests/Slice0.lean ====
section
/-! SUPPORT. The model's own tests: ill-formed commands that WellFormed refuses, small tests of single commands against
figures of the spec, and for every statement of Certificates/Slice0 a concrete state and operands that meet its
hypotheses. -/

namespace Sys2Proof.Tests

open Sys2Proof Sys2Proof.Machine

set_option Elab.async false

/-! ### Helper states -/

/-- A module that is up, else as after reset. -/
def up : State := { State.reset with d := { State.reset.d with pwr := { State.reset.d.pwr with phase := .up } } }

/-- `up` with its device state changed. -/
def upWith (f : Dev → Dev) : State := { up with d := f up.d }

/-- `up` with one port changed. -/
def upPort (p : PortId) (f : Port → Port) : State := upWith fun d => d.modPort p f

/-- A state with its device state changed. -/
def withD (s : State) (f : Dev → Dev) : State := { s with d := f s.d }

/-- A candidate's data. -/
def cand0 (t : Word64) : CandInfo := ⟨t, 8, [⟨0, -900, 0, 0⟩]⟩

/-- The next state of a command, for tests. -/
def run (c : Instr) (s : State) : State := match exec c s with | .next t => t | _ => s

/-! ### Well-formedness: one ill-formed command for each check -/

theorem test_wf_candidate_order : (Instr.preambleCandidate 0 0 13 (cand0 0)).wf = false := by decide
theorem test_wf_candidate_low_order : (Instr.preambleCandidate 0 0 5 (cand0 0)).wf = false := by decide
theorem test_wf_candidate_few_symbols : (Instr.preambleCandidate 0 0 7 ⟨0, 3, []⟩).wf = false := by decide
theorem test_wf_candidate_many_symbols : (Instr.preambleCandidate 0 0 7 ⟨0, 33, []⟩).wf = false := by decide
theorem test_wf_candidate_level : (Instr.preambleCandidate 0 0 7 ⟨0, 8, [⟨0, 101, 0, 0⟩]⟩).wf = false := by decide
theorem test_wf_candidate : (Instr.preambleCandidate 0 0 7 (cand0 0)).wf = true := by decide
theorem test_wf_sync_candidate : (Instr.syncCheck 0 0 4 0 0).wf = false := by decide
theorem test_wf_sync_symbol : (Instr.syncCheck 0 0 0 4096 0).wf = false := by decide
theorem test_wf_lane_header : (Instr.laneOutcome 0 0 (.symbols 0 0 (List.replicate 11 0) [] [] 0 none)).wf = false := by decide
theorem test_wf_lane_powers : (Instr.laneOutcome 0 0 (.symbols 0 0 [] [] (List.replicate 11 (0, 0)) 0 none)).wf = false := by decide
theorem test_wf_lane_peak : (Instr.laneOutcome 0 0 (.symbols 4096 0 [] [] [] 0 none)).wf = false := by decide
theorem test_wf_look_preamble : (Instr.secondLookDone 0 0 (.found [] [] 0 0 [] 0 0 33)).wf = false := by decide
theorem test_wf_gauge_floor : (Instr.gaugeDone 0 32768).wf = false := by decide
theorem test_wf_noise_figure : (Instr.calNoiseHotEnd 0 65536).wf = false := by decide
theorem test_wf_temperature : (Instr.calTempDrift 0 128).wf = false := by decide
theorem test_wf_return_loss : (Instr.tunerRlMeasured 0 64).wf = false := by decide
theorem test_wf_reference : (Instr.refinWindowEnd (.valid 0)).wf = false := by decide
theorem test_wf_can_identifier : (Instr.canRequestFrame ⟨2048, [], []⟩ [] false false).wf = false := by decide
theorem test_wf_can_data : (Instr.canRequestFrame ⟨0, [], []⟩ (List.replicate 9 0) false false).wf = false := by decide
theorem test_wf_expedited : (Instr.tdpWriteExp 2 0 0 (List.replicate 61 0)).wf = false := by decide
theorem test_wf_empty_segment : (Instr.tdpSeg 2 0 []).wf = false := by decide
theorem test_wf_device : ({ sfdp := some (16777217, true), io1 := false, content := none } : CfgDevice).wf = false := by
  decide
theorem test_wf_device_content : ({ sfdp := some (0, true), io1 := false, content := some [0] } : CfgDevice).wf =
  false := by decide
theorem test_wf_last_segment : (Instr.tdpSegLast 2 0 (List.replicate 256 0)).wf = false := by decide +kernel
theorem test_wf_image_segment : (Instr.updImageSegment 2 0 false (List.replicate 256 0) true).wf = false := by decide +kernel
theorem test_wf_high_temperature : (Instr.tempHigh 32768).wf = false := by decide

/-- What a start finds where nothing fails. -/
def startOk : StartInputs :=
  { straps := 5, cfgDevice := none, imageBad := false, failed := [], chipSramBad := false, sramBad := [], storeOpens := true
    slotsLost := [], attCounterOk := true, cal := [] }

theorem test_wf_start_slot : (Instr.runReached { startOk with slotsLost := [8192] }).wf = false := by decide
theorem test_wf_start_port_twice :
    (Instr.runReached { startOk with cal := [⟨0, 0, 0, 0, 25, true⟩, ⟨0, 0, 0, 0, 25, true⟩] }).wf = false := by decide
theorem test_wf_start : (Instr.runReached startOk).wf = true := by decide

/-! ### Receive -/

theorem witness_GainLoopMovesOrNotesHeld : up.d.portUp 0 = true ∧ ((up.d.ports[(0 : PortId)]).rx.gain ≤ 31) := by decide +kernel

/-- Ports 0 and 1 receive on one frequency, as a combining group. -/
def pair01 : State := upWith fun d => [0, 1].foldl (fun d p => d.modRx p fun x => { x with rxctl := x.rxctl ||| 3 }) d

/-- A candidate that port 1 hears best. -/
def cand01 : CandInfo := ⟨1000, 4, [⟨0, -900, 0, 0⟩, ⟨1, -800, 2, 0⟩]⟩

theorem witness_CandidateIsHeldByTheStrongestPort :
    (∀ h ∈ cand01.heard, (pair01.d.combineGroup 0).contains h.port = true ∧ pair01.d.rxOn h.port = true ∧
      ((pair01.d.ports[h.port]).rx.watchers[(5 : WatcherId)]).searches
        (fld ((pair01.d.ports[(0 : PortId)]).rx.watchers[(5 : WatcherId)]).cfg 1 2) 7 = true) ∧
    (∃ h ∈ cand01.heard, h.port = 0) ∧ ⟨1, -800, 2, 0⟩ ∈ cand01.heard ∧
    (∀ h ∈ cand01.heard, h ≠ ⟨1, -800, 2, 0⟩ → h.rssi < -800) ∧ 4 ≤ cand01.npre ∧ cand01.npre ≤ 32 := by decide +kernel

/-- Port 0 receives and its watcher 5 holds four candidates. -/
def watchFull : State := upPort 0 fun p => { p with rx := { p.rx with
  rxctl := p.rx.rxctl ||| 1, watchers := p.rx.watchers.set 5 { p.rx.watchers[5] with cands := List.replicate 4 ⟨7, cand0 1000⟩ } } }

/-- Of two ports that hear a candidate alike the lower-numbered holds it, and a fifth candidate is not held (R78, R93). -/
theorem test_candidate_ties :
    (((run (.preambleCandidate 1 5 7 ⟨1000, 4, [⟨1, -800, 0, 0⟩, ⟨0, -800, 0, 0⟩]⟩) pair01).d.ports[(0 : PortId)]).rx.watchers[(5 : WatcherId)]).cands.length = 1 ∧
     (((run (.preambleCandidate 0 5 7 (cand0 1000)) watchFull).d.ports[(0 : PortId)]).rx.cnt[RxCnt.watchfull.ix] = 1) := by decide +kernel

/-- A port with a candidate of order 7 in watcher 0. -/
def candState : State := upPort 0 fun p => { p with rx := { p.rx with
  sync := 0x00011234, watchers := p.rx.watchers.set 0 { p.rx.watchers[0] with cands := [⟨7, cand0 1000⟩] } } }

theorem witness_SyncValueMakesTheDetection :
    ((candState.d.ports[(0 : PortId)]).rx.watchers[(0 : WatcherId)]).cands[0]? = some ⟨7, cand0 1000⟩ := by decide +kernel

/-- The symbols of SYNC1 = 0x12 and of 0x56 at order 7: a detection, and a rejection. -/
theorem test_syncCheck_both :
    (((run (.syncCheck 0 0 0 (syncSymbol 7 2) (syncSymbol 7 1)) candState).d.ports[(0 : PortId)]).rx.reqs.map (·.sync) = [0x12]) ∧
    (((run (.syncCheck 0 0 0 (syncSymbol 7 6) (syncSymbol 7 5)) candState).d.ports[(0 : PortId)]).rx.reqs = []) := by decide +kernel

/-- A detection of order 7 at 125 kHz. -/
def req7 (asked : Bool) : LaneReq := ⟨0, ⟨7, 1, 0⟩, 0x34, cand0 1000, 31, asked, true⟩

/-- `up` with one detection at port 0. -/
def reqState (asked : Bool) : State := upPort 0 fun p => { p with rx := { p.rx with reqs := [req7 asked] } }

theorem witness_LowestFreeLaneTakesTheRequest :
    (reqState false).d.pendingReqs (regionOfPort 0) = [] ∧
    (((reqState false).d.ports[(0 : PortId)]).rx.reqs[0]? = some (req7 false)) ∧
    (((reqState false).d.ports[(0 : PortId)]).rx.lanes[(0 : LaneId)]).free = true ∧
    ((reqState false).d.regionJobs (regionOfPort 0)).length < (reqState false).d.laneCap (regionOfPort 0) := by decide +kernel
theorem witness_LowestFreeLane_withdrawn :
    ((reqState true).d.ports[(0 : PortId)]).rx.reqs[0]? = some (req7 true) := by decide +kernel

/-- A frame of order 7 in lane 3 of port 0. -/
def job7 : LaneJob := ⟨0, req7 true, [], 0, false⟩
def laneState : State := upPort 0 fun p => { p with rx := { p.rx with
  rxctl := p.rx.rxctl ||| 1, lanes := p.rx.lanes.set 3 { p.rx.lanes[3] with work := .frame job7 } } }
def laneLinked : State := { laneState with d := laneState.d.modLink 0 fun x => { x with cfg := x.cfg ||| 1 } }
def hdr3 : Header := { len := 3, rate := 2, robust := false, crcp := true }

/-- The symbols of a header whose HCRC is wrong in its last bit. -/
def headerSymbolsBad (k : Nat) (h : Header) : List Nat :=
  let e := headerCode (h.bits.set 19 (!h.bits.getD 19 false))
  (List.range (headerLen k)).map fun t =>
    symbolOf true (k - 2) (bitsNat ((List.range (k - 2)).map fun i => e.getD (headerLen k * i + t) false))

theorem witness_LaneOutcomeCountsOrPassesTheFrame :
    (((laneLinked.d.ports[(0 : PortId)]).rx.lanes[(3 : LaneId)]).job = some job7) ∧ (laneLinked.d.pendingReqs (regionOfPort 0) = []) ∧
    (fsyncHolds 7 5 70 = true ∧ fsyncHolds 7 5 68 = true ∧ fsyncHolds 7 5 71 = false) ∧
    (headerOf 7 (headerSymbolsBad 7 hdr3) = none) ∧
    (crcHolds hdr3 (payloadOf 7 hdr3 (payloadSymbols 7 { hdr3 with len := 5, crcp := false } [1, 2, 3, 0, 0])) = false) ∧
    (headerOf 7 (headerSymbols 7 hdr3) = some hdr3) ∧ hdr3.crcp = true ∧
    (crcHolds hdr3 (payloadOf 7 hdr3 (payloadSymbols 7 hdr3 [1, 2, 3])) = true) ∧
    ((laneLinked.d.ports[(0 : PortId)]).rx.rxctl.getLsbD 3 = false) ∧
    ((laneLinked.d.regions[(0 : RegionId)]).link.cfg.getLsbD 0 = true) := by decide +kernel

/-- Equal powers of the decided bin and of all the others together, at order 7: P_pk = P_oth, P_n = P_oth / 127, and the SNR is
10 log10(126/128) = −0.1 dB (R89). -/
theorem test_snr : snrTenths 7 [(1000, 1000)] = -1 ∧ snrTenths 7 [(0, 1000)] = -320 := by decide +kernel

/-- A second-look request of a frame at port 0. -/
def look7 : SlReq := ⟨0, ⟨7, 1, 0⟩, 400000000, 5, 0, none, []⟩
def lookState : State := upWith fun d => d.modSecond 0 fun x => { x with reqs := [look7] }
def lookBusy : State := upWith fun d =>
  (d.modSecond 0 fun x => { x with units := x.units.set 0 { x.units[0] with job := some look7 } }).modLink 0 fun x =>
    { x with cfg := x.cfg ||| 1 }

theorem witness_SecondLookTakesExpiresAndRecovers :
    (∀ x ∈ (lookState.d.regions[(0 : RegionId)]).second.reqs, lookState.d.now < x.need + sliceSpan) ∧
    look7 ∈ (lookState.d.regions[(0 : RegionId)]).second.reqs ∧
    ((lookState.d.regions[(0 : RegionId)]).second.units[(0 : Fin 4)]).job = none ∧
    ((lookState.d.regions[(0 : RegionId)]).second.units[(0 : Fin 4)]).fenced = false ∧
    ((lookBusy.d.regions[(0 : RegionId)]).second.units[(0 : Fin 4)]).job = some look7 ∧
    (headerOf 7 (headerSymbols 7 hdr3) = some hdr3) ∧ (crcHolds hdr3 (payloadOf 7 hdr3 (payloadSymbols 7 hdr3 [1, 2, 3])) = true) ∧
    (lookBusy.d.ports[(0 : PortId)]).rx.accepts 0 = true ∧ (lookBusy.d.regions[regionOfPort 0]).link.cfg.getLsbD 0 = true ∧
    look7.seen = none ∧ (lookBusy.d.ports[(0 : PortId)]).rx.accepts 0x12 = false := by decide +kernel

theorem witness_PlumbChecksPassOrWithholdTheLane :
    ((up.d.ports[(0 : PortId)]).rx.interval ≠ 0) ∧ (((up.d.ports[(0 : PortId)]).rx.lanes[(0 : LaneId)]).retired = false) ∧
    ((up.d.ports[(0 : PortId)]).rx.plumbLane = none) ∧ ((up.d.ports[(0 : PortId)]).rx.plumbNext = some 0) ∧
    (((upPort 0 fun p => { p with rx := { p.rx with lanes := p.rx.lanes.set 0 { p.rx.lanes[0] with due := none } } }).d.ports[(0 : PortId)]).rx.lanes[(0 : LaneId)]).due =
      none ∧
    ((run (.plumbCheckStart 0) up).d.ports[(0 : PortId)]).rx.plumbLane = some 0 := by decide +kernel

/-- A check whose SNR is exactly 0.3 dB off passes, one 0.4 dB off fails (R105). -/
theorem test_plumb_boundary :
    (((run (.plumbCheckVerdict 0 true 3) (run (.plumbCheckStart 0) up)).d.ports[(0 : PortId)]).rx.cnt[RxCnt.plumbpass.ix] = 1) ∧
    (((run (.plumbCheckVerdict 0 true 4) (run (.plumbCheckStart 0) up)).d.ports[(0 : PortId)]).rx.cnt[RxCnt.plumbfail.ix] = 1) := by
  decide +kernel

def gaugeRuns : State := run (.gaugeStart 0) up

theorem witness_GaugeMeasuresFloorAndExcess :
    ((up.d.ports[(0 : PortId)]).rx.gauge.ctl.getLsbD 0 = true) ∧ ((up.d.ports[(0 : PortId)]).rx.gauge.run = none) ∧
    (up.d.portUp 0 = true) ∧ (up.d.now ≤ (up.d.ports[(0 : PortId)]).rx.gauge.dueAt) ∧
    ((up.d.ports[(0 : PortId)]).txBlock = false) ∧
    ((up.d.until_ (up.d.ports[(0 : PortId)]).rx.gauge.dueAt).quietChannel 0 = some 0) ∧
    ((gaugeRuns.d.ports[(0 : PortId)]).rx.gauge.run.map fun u => decide (gaugeRuns.d.now ≤ u.endAt)) = some true ∧
    (let s := upPort 0 fun p => { p with rx := { p.rx with activity := (List.range 64).map fun c => (c, 100000000000) } }
     (s.d.until_ (s.d.ports[(0 : PortId)]).rx.gauge.dueAt).quietChannel 0 = none) ∧
    ((upPort 0 fun p => { p with tx := { p.tx with interval := some 0 } }).d.ports[(0 : PortId)]).txBlock = true := by decide +kernel

/-- A floor of −120.0 dBm is 1.0 dB above the figure of R108, and OVER needs more than THRESH = 3.0 dB. -/
theorem test_gauge_excess :
    (((run (.gaugeDone 0 (-1200)) gaugeRuns).d.ports[(0 : PortId)]).rx.gauge.excess = 10) ∧
    (((run (.gaugeDone 0 (-1180)) gaugeRuns).d.ports[(0 : PortId)]).rx.gauge.isOver = false) ∧
    (((run (.gaugeDone 0 (-1179)) gaugeRuns).d.ports[(0 : PortId)]).rx.gauge.isOver = true) := by decide +kernel

/-! ### Port registers -/

/-- Register addresses an initiator may write now, as a computed fact. -/
def mayAll (s : State) (i : Initiator) (l : List Nat) : Bool := s.d.initReady i && l.all fun a => s.d.initMay i a true

/-- Port p answers, as a computed fact. -/
def portOk (d : Dev) (p : PortId) : Bool :=
  !(d.regions[regionOfPort p]).retired && d.rfPowered && !(d.ports[p]).rx.retired && !d.domainAsleep (regionOfPort p) (localOfPort p).val &&
    !(d.regions[regionOfPort p]).pwr.waking.contains (localOfPort p).val

theorem portOk_sound (d : Dev) (p : PortId) (h : portOk d p = true) : d.portAnswers p := by
  simp only [portOk, Bool.and_eq_true, Bool.not_eq_true'] at h
  exact ⟨h.1.1.1.1, h.1.1.1.2, h.1.1.2, h.1.2, h.2⟩

theorem mayAll_sound (s : State) (i : Initiator) (l : List Nat) (h : mayAll s i l = true) (a : Nat) (ha : a ∈ l) :
    s.d.mayWrite i a := by
  simp only [mayAll, Bool.and_eq_true, List.all_eq_true] at h
  exact ⟨h.1, h.2 a ha⟩

theorem witness_PortReceiveRegisterWrites :
    (∀ p ∈ [(0 : PortId), 23], portOk up.d p = true ∧ ∀ i ∈ [(0 : Initiator), 8, 9, 10, 13],
      mayAll up i ([0x00, 0x04, 0x0C, 0x10, 0x1C, 0x200, 0x3000, 0x1000, 0x10FC].map (portBase p + ·)) = true) ∧
    (((400000000#32).setWidth 30).toNat = 400000000) ∧ (((960000000#32).setWidth 30).toNat = 960000000) ∧
    (((399999999#32).setWidth 30).toNat < 400000000) ∧ ((960000001#32).setWidth 30).toNat > 960000000 ∧
    ((2#32).getLsbD 1 = true) ∧ ((256#32).getLsbD 8 = true) ∧ (fld 4 1 2 = 2) ∧ (fld 6 1 2 = 3) := by decide +kernel

/-- Values beyond the bounds of R72 set FREQ_BAD and leave the frequency. -/
theorem test_rxfreq_bounds :
    (((run (.portRxfreqWrite 0 0 960000001) up).d.ports[(0 : PortId)]).rx.rxfreq = 400000000) ∧
    (((run (.portRxfreqWrite 0 0 960000001) up).d.ports[(0 : PortId)]).rx.freqBad = true) ∧
    (((run (.portRxfreqWrite 0 0 399999999) up).d.ports[(0 : PortId)]).rx.freqBad = true) := by decide +kernel

theorem witness_PortTransmitRegisterWrites :
    portOk up.d 0 = true ∧ mayAll up 0 ([0x8100, 0x8100 + 8 * 63, 0x8010, 0x8404, 0x8414, 0x8800, 0x8804, 0x8C00].map (portBase 0 + ·)) = true ∧
    (∀ e : Fin 64, ((up.d.ports[(0 : PortId)]).syn.bm[e]).valid = true ∨ ((up.d.ports[(0 : PortId)]).syn.bm[e]).freq < 400000000 ∨
      960000000 < ((up.d.ports[(0 : PortId)]).syn.bm[e]).freq) ∧
    ((List.finRange 64).filter (fun e =>
      let b := ((run (.portBmFreqWrite 0 0 5 400000000) up).d.ports[(0 : PortId)]).syn.bm[e]
      !b.valid && decide (400000000 ≤ b.freq) && decide (b.freq ≤ 960000000))) = [5] := by decide +kernel

/-- PORT_TXPWR takes −10 dBm and +14 dBm, in steps of 0.5 dB, and nothing beyond. -/
theorem test_txpwr_bounds :
    (((run (.portTxpwrWrite 0 0 0xEC) up).d.ports[(0 : PortId)]).tx.pwr = 0xEC) ∧
    (((run (.portTxpwrWrite 0 0 0x1C) up).d.ports[(0 : PortId)]).tx.pwr = 0x1C) ∧
    (((run (.portTxpwrWrite 0 0 0x1D) up).d.ports[(0 : PortId)]).tx.pwrBad = true) := by decide +kernel

/-! ### Stakes, hops, transmission -/

/-- The request that SB_NEW holds for a transmit stake of 7 payload-free bytes at datum value `t`, order 7, preamble 8. -/
def newTx (t : Nat) : Vector Word 5 := #v[BitVec.ofNat 32 t, 0x00010000, 0x00080100, 0, 7]

/-- `up` with SB_NEW of port 0 filled. -/
def bookState (w : Vector Word 5) : State := upPort 0 fun p => { p with sb := { p.sb with new := w } }

/-- What BOOK of `bookState w` asks for and the stake that it would make. -/
def askOf (s : State) : BookReq :=
  (s.d.ports[(0 : PortId)]).sb.newReq (s.d.named48 ((s.d.ports[(0 : PortId)]).sb.new[0].toNat +
    ((s.d.ports[(0 : PortId)]).sb.new[1].setWidth 16).toNat * 2 ^ 32))
def stakeOf (s : State) : Stake := (s.d.ports[(0 : PortId)]).mkStake (askOf s) (askOf s).release s.d.now

theorem witness_BookAndCancelAnswerByTheChecks :
    portOk up.d 0 = true ∧ mayAll up 0 [portBase 0 + 0xF014] = true ∧
    (∀ q ∈ portsOf (regionOfPort 0), (up.d.ports[q]).cal.wanted = false) ∧
    ((0x500#32).getLsbD 10 = true ∧ fld 0x500 8 2 = 1 ∧ (0x500#32).getLsbD 11 = false) ∧
    (let s := bookState (newTx 100000000)
     (s.d.ports[(0 : PortId)]).paramOk (askOf s) = true ∧ (s.d.datum.now.toNat : Int) + 200 ≤ (stakeOf s).deadline ∧
     (s.d.ports[(0 : PortId)]).sb.stakes[(0 : SlotId)] = none) ∧
    (let s := bookState (newTx 1000)
     (s.d.ports[(0 : PortId)]).paramOk (askOf s) = true ∧ (stakeOf s).deadline < s.d.datum.now.toNat + 200) ∧
    (let s := bookState (#v[0, 0, 0, 0, 0])
     (s.d.ports[(0 : PortId)]).paramOk (askOf s) = false) := by decide +kernel

/-- A filled SB_NEW in a slot book whose entry 2 holds a stake, and in one that is full, 256 stakes a second apart. -/
def bookBusy : State := upPort 0 fun p => { p with sb := { p.sb with
  new := newTx 100000000, stakes := p.sb.stakes.set 2 (some (stakeOf (bookState (newTx 100000000)))) } }
def bookFull : State := upPort 0 fun p => { p with sb := { p.sb with
  new := newTx 100000000
  stakes := Vector.ofFn fun n : Fin 256 =>
    some { stakeOf (bookState (newTx 100000000)) with release := 200000000 * ((n.val : Int) + 2) } } }

theorem witness_BookAndCancel_conflict_full_cancel :
    (let s := bookBusy
     let k := stakeOf s
     (∀ y ∈ (s.d.ports[(0 : PortId)]).sb.used, y.2.origin ≠ 6) ∧ (s.d.ports[(0 : PortId)]).paramOk (askOf s) = true ∧
     (s.d.datum.now.toNat : Int) + 200 ≤ k.deadline ∧
     (∃ y ∈ (s.d.ports[(0 : PortId)]).sb.used, overlap y.2.interval k.interval = true) ∧
     (k.state = .booked ∧ k.origin ≠ 6 ∧ k.link = none ∧ (s.d.ports[(0 : PortId)]).tx.interval ≠ some 2)) ∧
    (let s := bookFull
     let k := stakeOf s
     (∀ y ∈ (s.d.ports[(0 : PortId)]).sb.used, y.2.origin ≠ 6 ∧ overlap y.2.interval k.interval = false) ∧
     (∀ x ∈ (s.d.ports[(0 : PortId)]).sb.blocked s.d.datum.now.toNat, overlap x k.interval = false) ∧
     (s.d.ports[(0 : PortId)]).paramOk (askOf s) = true ∧ (s.d.datum.now.toNat : Int) + 200 ≤ k.deadline ∧
     (s.d.ports[(0 : PortId)]).sb.freeSlot = none) ∧
    (fld 0x600 8 2 = 2 ∧ (0x600#32).getLsbD 10 = true) := by decide +kernel

/-- A hop in progress at port 0. -/
def hopping (k : HopKind) (e : Option (Fin 64)) : State :=
  upPort 0 fun p => { p with syn := { p.syn with hop := some ⟨433000000, k, e, false, 0, 28000⟩ } }

theorem witness_HopsLockFailAndRelock :
    (∀ q ∈ portsOf (regionOfPort 0), (up.d.ports[q]).cal.wanted = false) ∧ ((up.d.ports[(0 : PortId)]).cal.calvalid = false) ∧
    ((up.d.ports[(0 : PortId)]).sb.filling = none) ∧
    (((hopping .table (some 3)).d.ports[(0 : PortId)]).syn.hop = some ⟨433000000, .table, some 3, false, 0, 28000⟩) ∧
    (((hopping .full none).d.ports[(0 : PortId)]).syn.queued = none) ∧
    (((upPort 0 fun p => { p with syn := { p.syn with hop := some ⟨433000000, .full, none, true, 0, 28000⟩ } }).d.ports[(0 : PortId)]).syn.hop =
      some ⟨433000000, .full, none, true, 0, 28000⟩) ∧ (up.d.ports[(0 : PortId)]).tx.interval = none ∧
    ((upPort 0 fun p => { p with syn := { p.syn with lock := true } }).d.ports[(0 : PortId)]).syn.lock = true := by decide +kernel

theorem witness_CalibrationStepsEndOnTime :
    ∀ k ∈ [CalStep.cold, .hot, .loop, .tone, .ending],
      ((upPort 0 fun p => { p with cal := { p.cal with step := some k } }).d.ports[(0 : PortId)]).cal.step = some k := by decide +kernel
theorem witness_CalibrationSteps_drift :
    ((8 : Int) - (up.d.ports[(0 : PortId)]).cal.tcal ≤ 8 ∧ (up.d.ports[(0 : PortId)]).cal.tcal - 8 ≤ 8) ∧
    (8 < (9 : Int) - (up.d.ports[(0 : PortId)]).cal.tcal) := by decide +kernel

/-- 8 degrees of drift keep the calibration (R137). -/
theorem test_drift_boundary :
    ((run (.calTempDrift 0 28) (upPort 0 fun p => { p with cal := { p.cal with calvalid := true, tcal := 20 } })).d.ports[(0 : PortId)]).cal.calvalid =
      true := by decide +kernel

/-- A transmit stake in entry 2 of port 0 in a given state. -/
def txStake (st : StakeState) (checked : Bool) : Stake :=
  { stakeOf (bookState (newTx 100000000)) with state := st, checked := checked, firedAt := 100000000, winF := 400000000 }
def txState (st : StakeState) (checked : Bool) (f : Tx → Tx) : State :=
  upPort 0 fun p => { p with
    sb := { p.sb with stakes := p.sb.stakes.set 2 (some (txStake st checked)) }
    tx := f { p.tx with interval := some 2, ctl := p.tx.ctl ||| 1 }
    syn := { p.syn with lock := true } }

/-- Before a release with a trial state due, and at the end of an interval in which PORT_RXFREQ was written. -/
def trialTx : State := withD (txState .armed true id) fun d => d.modTun 0 fun x => { x with next := some 5 }
def heldTx : State := withD (txState .active true fun t => { t with endAt := some 120000000, retHop := true }) fun d =>
  d.modSyn 0 fun x => { x with heldHop := true }

theorem witness_TransmissionRunsItsTimedSequence :
    (let s := txState .armed true id
     (s.d.ports[(0 : PortId)]).sb.stakes[(2 : SlotId)] = some (txStake .armed true) ∧ (txStake .armed true).action = 1 ∧
     (s.d.ports[(0 : PortId)]).tx.interval = some 2 ∧ (s.d.ports[(0 : PortId)]).tx.endAt = none ∧
     (s.d.ports[(0 : PortId)]).tx.rampDown = none ∧ (s.d.ports[(0 : PortId)]).tun.next = none ∧
     (s.d.ports[(0 : PortId)]).tx.onSince = none) ∧
    (let s := trialTx
     (s.d.ports[(0 : PortId)]).sb.stakes[(2 : SlotId)] = some (txStake .armed true) ∧ (s.d.ports[(0 : PortId)]).tx.interval = some 2 ∧
     (s.d.ports[(0 : PortId)]).tx.endAt = none ∧ (s.d.ports[(0 : PortId)]).tx.rampDown = none ∧
     (s.d.ports[(0 : PortId)]).tun.next = some 5 ∧ (s.d.ports[(0 : PortId)]).tun.tune ≠ 5) ∧
    (let s := txState .active true fun t => { t with onSince := some 90000000, rampDown := some 110000000 }
     (s.d.ports[(0 : PortId)]).sb.stakes[(2 : SlotId)] = some (txStake .active true) ∧ (s.d.ports[(0 : PortId)]).tx.interval = some 2 ∧
     (s.d.ports[(0 : PortId)]).tx.endAt = none ∧ (s.d.ports[(0 : PortId)]).tx.rampDown = some 110000000 ∧
     (s.d.ports[(0 : PortId)]).tx.retHop = false) ∧
    (let s := txState .active true fun t => { t with onSince := some 90000000 }
     (s.d.ports[(0 : PortId)]).tx.rampDown = none ∧ (s.d.ports[(0 : PortId)]).tx.endAt = none) ∧
    (let s := txState .active true fun t => { t with endAt := some 120000000 }
     (s.d.ports[(0 : PortId)]).tx.interval = some 2 ∧ (s.d.ports[(0 : PortId)]).tx.endAt = some 120000000 ∧
     (s.d.ports[(0 : PortId)]).tx.retHop = false ∧ (s.d.ports[(0 : PortId)]).syn.heldHop = false) ∧
    (let s := heldTx
     (s.d.ports[(0 : PortId)]).tx.interval = some 2 ∧ (s.d.ports[(0 : PortId)]).tx.endAt = some 120000000 ∧
     (s.d.ports[(0 : PortId)]).syn.hop = none ∧ (s.d.ports[(0 : PortId)]).syn.heldHop = true) ∧
    (let s := txState .active true fun t => { t with interval := none }
     (s.d.ports[(0 : PortId)]).tx.interval ≠ some 2 ∧
     (s.d.regions[regionOfPort 0]).pwr.domsleep.getLsbD (localOfPort 0).val = false) := by decide +kernel

/-- The frame's end counts TXDONE at the release plus the air time (R126). -/
theorem test_frame_end :
    let t := run (.txFrameEnd 0 2) (txState .active true id)
    (t.d.ports[(0 : PortId)]).tx.cnt[TxCnt.txdone.ix] = 1 ∧ t.d.now = 100000000 + (txStake .active true).air := by decide +kernel

/-- A booked TX stake of 3 bytes whose TX queue, 5, holds a packet of `w` words. -/
def txQueued (w : List QWord) : State :=
  withD (txState .booked false fun t => { t with interval := none }) fun d =>
    (d.modSb 0 fun x => { x with stakes := x.stakes.set 2 (some
      { txStake .booked false with param := 3, w2 := (txStake .booked false).w2 ||| 0x05000000 }) }).modQueue 5 fun q =>
        { q with en := true, words := w, pktcnt := 1 }

/-- A stake of an action other than TX at port 0. -/
def actState (k : Stake) : State := upPort 0 fun p => { p with sb := { p.sb with stakes := p.sb.stakes.set 2 (some k) } }
def winStake : Stake := { txStake .active true with action := 2, winsel := true, param := 1000 }

theorem witness_StakesArePreparedArmedAndFired :
    (let s := txState .booked false fun t => { t with interval := none }
     (s.d.ports[(0 : PortId)]).tx.buffer.length < 2 ∧ s.d.portUp 0 = true ∧
     (s.d.ports[(0 : PortId)]).sb.toPrepare.head? = some (2, txStake .booked false) ∧ (txStake .booked false).link = none ∧
     fld (txStake .booked false).param 0 8 = 0) ∧
    (∀ w ∈ [[⟨0x030201, true, none⟩], [⟨7, false, none⟩, ⟨0x030201, true, none⟩]],
      let s := txQueued w
      (s.d.ports[(0 : PortId)]).tx.buffer.length < 2 ∧ s.d.portUp 0 = true ∧
      ((s.d.ports[(0 : PortId)]).sb.toPrepare.head?.map fun x => (x.1, x.2.link.isNone, fld x.2.param 0 8, fld x.2.w2 24 5)) =
        some (2, true, 3, 5) ∧
      s.d.queueUsable 5 = true ∧ (s.d.queue 5).packet = some w) ∧
    (let s := txState .ready false fun t => { t with interval := none }
     (s.d.ports[(0 : PortId)]).sb.stakes[(2 : SlotId)] = some (txStake .ready false) ∧
     originGrid (txStake .ready false).origin = false ∧ s.d.portUp 0 = true ∧ (s.d.ports[(0 : PortId)]).tx.ctl.getLsbD 0 = true ∧
     (txStake .ready false).action = 1 ∧ (txStake .ready false).winsel = false) ∧
    (let s := actState { txStake .ready false with action := 4 }
     (s.d.ports[(0 : PortId)]).sb.stakes[(2 : SlotId)] = some { txStake .ready false with action := 4 } ∧ s.d.portUp 0 = true) ∧
    (let s := txState .armed false id
     (s.d.ports[(0 : PortId)]).sb.stakes[(2 : SlotId)] = some (txStake .armed false) ∧
     (txStake .armed false).checked = false ∧ (s.d.ports[(0 : PortId)]).syn.lock = true ∧
     (s.d.ports[(0 : PortId)]).syn.freq = (txStake .armed false).winF) ∧
    ((actState { txStake .armed false with action := 4 }).d.ports[(0 : PortId)]).sb.stakes[(2 : SlotId)] =
      some { txStake .armed false with action := 4 } ∧
    (let s := txState .armed true fun t => { t with onSince := some 5 }
     (s.d.ports[(0 : PortId)]).sb.stakes[(2 : SlotId)] = some (txStake .armed true) ∧ (s.d.ports[(0 : PortId)]).tx.interval = some 2 ∧
     (s.d.ports[(0 : PortId)]).tx.endAt = none ∧ (s.d.ports[(0 : PortId)]).tx.rampDown = none ∧
     (s.d.ports[(0 : PortId)]).tx.onSince.isSome = true ∧ (txStake .armed true).link = none) ∧
    ((actState winStake).d.ports[(0 : PortId)]).sb.stakes[(2 : SlotId)] = some winStake ∧ winStake.state = .active ∧
    winStake.checked = true := by decide +kernel

/-- A transmission on air whose return loss is not measured yet, its tuner loop frozen or not. -/
def rlState (fr : Bool) : State :=
  withD (txState .active true fun t => { t with onSince := some 90000000 }) fun d => d.modTun 0 fun x => { x with frozen := fr }

theorem witness_ReturnLossIsMeasuredAndKept : ∀ fr : Bool,
    let s := rlState fr
    (s.d.ports[(0 : PortId)]).tx.interval = some 2 ∧ (s.d.ports[(0 : PortId)]).sb.stakes[(2 : SlotId)] = some (txStake .active true) ∧
    (s.d.ports[(0 : PortId)]).tx.onSince.isSome = true ∧ (s.d.ports[(0 : PortId)]).tx.rampDown = none ∧
    (s.d.ports[(0 : PortId)]).tun.measured = false ∧ (s.d.ports[(0 : PortId)]).tun.frozen = fr ∧
    (s.d.ports[(0 : PortId)]).tun.trial = false ∧ fld (s.d.ports[(0 : PortId)]).tun.ctl 8 6 ≤ 63 ∧
    fld (s.d.ports[(0 : PortId)]).tun.ctl 16 6 ≤ 63 := by decide +kernel

/-! ### Link engine -/

/-- A page of a region answers, as a computed fact. -/
def pageOk (d : Dev) (r : RegionId) (page : Fin 4) : Bool :=
  !(d.regions[r]).retired && (match pageDomain page with
    | some k => !d.domainAsleep r k && !(d.regions[r]).pwr.waking.contains k
    | none => true)

theorem pageOk_sound (d : Dev) (r : RegionId) (page : Fin 4) (h : pageOk d r page = true) : d.pageAnswers r page := by
  simp only [pageOk, Bool.and_eq_true, Bool.not_eq_true'] at h
  refine ⟨h.1, fun k hk => ?_⟩
  have h2 := h.2
  rw [hk] at h2
  simp only [Bool.and_eq_true, Bool.not_eq_true'] at h2
  exact h2

/-- `up` with context 5: LADDR 0x01020304, SADDR 0x0A0B, ACTIVE, FCNTUP 0x00FFFFFF. -/
def ctx5 : State := upWith fun d => (((d.ctxPut 5 0x00 4 0x01020304).ctxPut 5 0x04 2 0x0A0B).putState 5 0 2).ctxPut 5 0x08 4 0x00FFFFFF

/-- Context 5 installed. -/
def ctx5in : State := { ctx5 with d := { ctx5.d with cl := { ctx5.d.cl with
  table := [⟨true, 0x0A0B, 5⟩, ⟨false, 0x01020304, 5⟩] } } }

theorem test_install_enters_keys : (run (.ctxopInstall 0 0 0x9005) ctx5).d.cl.table = ctx5in.d.cl.table := by decide +kernel

theorem witness_ContextOperationsAnswer :
    pageOk up.d 0 2 = true ∧ mayAll up 0 [regionPage 0 2 + 0x8020] = true ∧ ((0x9005#32).getLsbD 15 = true) ∧ (fld 0x9005 12 2 = 1) ∧
    ((up.d.regions[(0 : RegionId)]).link.op).status ≠ 1 ∧ ctx5.d.installed 5 = false ∧ ctx5.d.laddr 5 = 0x01020304 ∧ ctx5.d.life 5 = 2 ∧
    (∀ k ∈ ctx5.d.keysOf 5, ctx5.d.find k.1 k.2 = none) ∧
    (∀ (q : RegionId) (j : Fin 16), (ctx5.d.regions[q]).link.hold[j] = none) ∧
    (fld 0xA005 12 2 = 2) ∧ (fld 0xB005 12 2 = 3) ∧
    (ctx5in.d.installed 5 = true) ∧ (ctx5in.d.inFlight 5 = false) ∧ (ctx5in.d.packets 5 = []) ∧
    (ctx5in.d.find false 0x01020304 = some 5) ∧ (ctx5in.d.find true 0x0A0B = some 5) ∧ (ctx5in.d.find true 0x0A0C = none) := by
  decide +kernel

/-- An unconfirmed data frame (type 0) in the long form from context 5, FCNT on air 0, payload 01 02. -/
def upBytes : List Byte := [0, 4, 3, 2, 1, 0, 0, 0, 68, 66, 207, 62, 52, 214, 53, 84, 53, 147]

/-- Its bytes after the header are the payload enciphered under the key and nonce of the frame. -/
theorem test_up_bytes : upBytes.drop 8 =
    ccmEnc (List.replicate 16 0) (nonceOf 0x01020304 0x01000000 false 0) (upBytes.take 8) [1, 2] := by decide +kernel

def airOf (b : List Byte) : AirFrame :=
  ⟨0, 0, false, ⟨7, 1, 0⟩, 2, false, true, true, 0x34, 8, 1000, 2000, -900, 50, 0, 31, 0, 0, 0, b⟩
def upState (b : List Byte) : State := { ctx5in with d :=
  let d := ctx5in.d.modLink 0 fun l => { l with work := [{ frame := airOf b }] }
  { d with keys := { d.keys with slots := [⟨1, List.replicate 16 0, 0, false⟩] } } }

/-- A frame whose link header does not parse, one too short. -/
theorem test_parse_malformed : parseUplink [0x80, 1, 0, 0, 0] true false = none ∧ parseUplink (List.replicate 15 0) true false = none := by
  decide +kernel

/-- What the parser finds in a frame: type, relayed, hops, address, FCNT, header bytes. -/
def seen (b : List Byte) : Option (List Nat) :=
  (parseUplink b true false).map fun h =>
    [h.type, if h.relay then 1 else 0, h.hops, h.addr, h.fcnt, h.size]

/-- The key of the context, and what the decryption of `upBytes` with another last byte gives. -/
def upKey (s : State) : Option (List Byte) := (s.d.keys.keyOf (2 * s.d.keyPair 5 + 1) 0).toOption
def badBytes : List Byte := [0, 4, 3, 2, 1, 0, 0, 0, 68, 66, 207, 62, 52, 214, 53, 84, 53, 146]

/-- A frame whose tag is off by one bit does not verify. -/
theorem witness_Uplinks_bad_tag :
    (seen badBytes = some [0, 0, 0, 0x01020304, 0, 8] ∧
      ccmDec (List.replicate 16 0) (nonceOf 0x01020304 0x01000000 false 0) (badBytes.take 8) (slice badBytes 8 2) (badBytes.drop 10) = none) ∧
    ((parseUplink badBytes true false).map fun h => additional badBytes h) = some (badBytes.take 8) := by decide +kernel

theorem witness_UplinksAreCheckedInOrder :
    (let s := upState upBytes
     (s.d.regions[(0 : RegionId)]).retired = false ∧ ((s.d.regions[(0 : RegionId)]).link.work = [{ frame := airOf upBytes }]) ∧
     ((s.begun.d.linkPair 0).2 = some 0) ∧ seen upBytes = some [0, 0, 0, 0x01020304, 0, 8] ∧
     s.d.find false 0x01020304 = some 5 ∧ s.d.life 5 = 2 ∧
     extendFcnt (s.d.fcntup 5) 0 (s.d.regions[(0 : RegionId)]).link.maxgap = .ok 0x01000000 ∧ upBytes.length ≤ 8 + 8 + 231 ∧
     upKey s = some (List.replicate 16 0)) ∧
    ((upWith fun d => d.modLink 0 fun l => { l with hold := l.hold.set 7 (some ⟨airOf upBytes, 1000⟩) }).d.regions[(0 : RegionId)]).link.hold[(7 : Fin 16)] =
      some ⟨airOf upBytes, 1000⟩ ∧
    ((withD (upState upBytes) fun d => d.modLink 0 fun l => { l with work := [⟨airOf upBytes, some (5, 9)⟩] }).d.regions[(0 : RegionId)]).link.work =
      [⟨airOf upBytes, some (5, 9)⟩] := by decide +kernel

theorem witness_Uplinks_refused :
    (parseUplink (List.replicate 15 0) true false = none) ∧
    seen ([0x20, 4, 3, 2, 1, 0, 0, 0, 1, 0, 0x20] ++ List.replicate 16 0) = some [0, 1, 2, 0x01020304, 0, 11] ∧
    seen ([0x00, 5, 3, 2, 1, 0, 0, 0] ++ List.replicate 16 0) = some [0, 0, 0, 0x01020305, 0, 8] ∧
    (upState upBytes).d.find false 0x01020305 = none ∧
    (seen ([0x00, 4, 3, 2, 1, 0, 0x80, 0] ++ List.replicate 16 0) = some [0, 0, 0, 0x01020304, 0x8000, 8] ∧
      extendFcnt 0x00FFFFFF 0x8000 14 = .gap) ∧
    (seen ([0x00, 4, 3, 2, 1, 0, 0, 0] ++ List.replicate 240 0) = some [0, 0, 0, 0x01020304, 0, 8] ∧
      ([0x00, 4, 3, 2, 1, 0, 0, 0] ++ List.replicate 240 (0 : Byte)).length = 248) ∧
    ((withD (upState upBytes) fun d => d.putState 5 0 3).d.life 5 = 3) := by decide +kernel

/-- FCNT 0 after U = 0x00FFFFFF is 0x01000000; U's low bits again are a duplicate; 2^MAXGAP further is a gap (R166). -/
theorem test_fcnt :
    extendFcnt 0x00FFFFFF 0 14 = .ok 0x01000000 ∧ extendFcnt 0x00FFFFFF 0xFFFFFF 14 = .dup ∧
    extendFcnt 0 16384 14 = .ok 16384 ∧ extendFcnt 0 16385 14 = .gap ∧ extendFcnt 0xFFFFFFFF 0 14 = .gap := by decide +kernel

theorem witness_FcntIsTheNextWithTheseLowBits :
    (0 : Nat) ≠ 0x00FFFFFF % 2 ^ 24 ∧ (16385 : Nat) ≠ 0 % 2 ^ 24 ∧ (upState upBytes).d.fcntup 5 = 0x00FFFFFF ∧
    ((upState upBytes).d.keys.keyOf (2 * (upState upBytes).d.keyPair 5 + 1) 0).toOption = some (List.replicate 16 0) ∧
    ccmDec (List.replicate 16 0) (nonceOf 0x01020304 0x01000000 false 0) (upBytes.take 8) (slice upBytes 8 2) (upBytes.drop 10) =
      some [1, 2] := by decide +kernel

theorem witness_LinkRegistersAndContextWords :
    (let s : State := { ctx5in with d := { ctx5in.d with cl := { ctx5in.d.cl with removing := [(5, some 0)] } } }
     s.d.cl.removing.find? (fun x => x.1 = 5) = some (5, some 0) ∧ s.d.inFlight 5 = false ∧ s.d.installed 5 = true) ∧
    pageOk up.d 0 2 = true ∧ (up.d.installed 5 = false) ∧ (ctx5in.d.installed 5 = true) ∧
    mayAll ctx5in 0 [0x30000000 + 64 * 5 + 60] = true ∧
    mayAll up 0 [regionPage 0 2 + 0x802C, regionPage 0 2 + 0x8004, 0x30000000, 0x3003FFFC] = true ∧
    up.d.initMay 0 (regionPage 0 2 + 0x8028) false = true := by decide +kernel

/-! ### Downlink -/

/-- Queue 3 of region 0 (DNINQ at reset) enabled, with one packet of kind 0 for context 5 and 2 bytes. -/
def dnState (w : Word64) (anchor : Word) : State := { ctx5in with d :=
  let d := ctx5in.d.modQueue (queueOf 0 (Fin.ofNat 32 (fld (ctx5in.d.regions[(0 : RegionId)]).link.qsel 8 5))) fun q =>
    { q with en := true, words := [⟨w, false, none⟩, ⟨0x0201, true, none⟩], pktcnt := 1 }
  { d with cl := { d.cl with anchor := anchor } } }

/-- A state with one downlink chain. -/
def withChain (s : State) (c : Chain) : State := { s with d := { s.d with cl := { s.d.cl with chains := [c] } } }

/-- Port 3 holds a broadcast stake with a lifetime. -/
def castStake : Stake := { txStake .ready false with
  link := some ⟨none, 7, none, some 9, 0, [], none, 3, 0, [], false, some 1000⟩ }
def castState : State := upPort 3 fun p => { p with sb := { p.sb with stakes := p.sb.stakes.set 4 (some castStake) } }

/-- The queue that packets of region 0 come from. -/
def dnin (s : State) : QueueId := queueOf 0 (Fin.ofNat 32 (fld (s.d.regions[(0 : RegionId)]).link.qsel 8 5))

theorem witness_DownlinkPacketsAreQueuedAndExpire :
    (let s := dnState 0x20005 7
     s.d.queueUsable (dnin s) = true ∧ (s.d.queue (dnin s)).packet.isSome = true ∧ s.d.cl.anchor ≠ 0) ∧
    (fld64 0x20005 12 3 = 0 ∧ fld64 0x2005 12 3 = 2 ∧ fld64 0x5005 12 3 = 5 ∧ fld64 0x3005 12 3 = 3 ∧ fld64 0x4005 12 3 = 4) ∧
    (let s := dnState 0x20005 7
     s.d.installed 5 = true ∧ (s.d.packets 5).length < s.d.dnmax 0 ∧ s.d.installed 6 = false) ∧
    (fld64 0x4005 16 8 = 0 ∧ fld64 0xFF4005 16 8 = 255) ∧ (fld64 0x0201 48 5 < 24 ∧ 24 ≤ fld64 0x18000000000201 48 5) ∧
    ((dnState 0x20005 0).d.cl.anchor = 0) := by decide +kernel

theorem witness_Downlink_full :
    (let c : Chain := ⟨5, 0, [⟨0, 0, false, 0, [], none, 0, none⟩], none⟩
     let s := withD (withChain (dnState 0x20005 7) c) fun d => d.modLink 0 fun x => { x with cfg := x.cfg &&& 0x0FFFFFFF ||| 0x10000000 }
     s.d.installed 5 = true ∧ s.d.dnmax 0 ≤ (s.d.packets 5).length) := by decide +kernel

theorem witness_Downlink_expired :
    (let c : Chain := ⟨5, 0, [⟨0, 0, false, 0, [], some 1000, 0, none⟩], some 500⟩
     (withChain ctx5in c).d.chain 5 = some c ∧ (withChain ctx5in c).d.packets 5 = c.packets) := by decide +kernel

theorem witness_Downlink_broadcast :
    (castState.d.stake 3 4 = some castStake ∧ castStake.state ≠ .active) := by decide +kernel

theorem witness_Downlink_window :
    (let s := withChain { dnState 0x20005 7 with d := (dnState 0x20005 7).d.ctxPut 5 0x1A 2 60 }
       ⟨5, 0, [⟨0, 0, false, 0, [], none, 0, none⟩], none⟩
     s.d.ctxN 5 0x1A 2 ≠ 0 ∧ s.d.installed 5 = true ∧ (s.d.chainHead 5).isSome = true ∧ s.d.cl.anchor ≠ 0 ∧
     s.d.schedBooked 5 = false) := by decide +kernel

/-- The packet is appended to the chain of its context. -/
theorem test_downlink_appended :
    ((run (.downlinkPacket 0) (dnState 0x0000000000020005 7)).d.packets 5).map (·.payload) = [[1, 2]] := by decide +kernel

/-! ### Datum -/

theorem witness_DatumRegisterAccesses :
    up.d.initReady 0 = true ∧ up.d.initMay 0 (chipPage 3 + 0x8000) false = true ∧
    mayAll up 0 ([0x8010, 0x8034, 0x8008].map (chipPage 3 + ·)) = true ∧
    ((100000#32).toInt = 100000) ∧ ((0xFFFE7960#32).toInt = -100000) ∧ ((100001#32).toInt = 100001) ∧ ((1000#32).toInt - up.d.datum.trim = 1000) ∧
    (up.d.datum.holdover = false) ∧ ((1001#32).toInt - up.d.datum.trim = 1001) ∧
    (up.d.datum.onHoldover = false) ∧ (up.d.datum.pps.ctl.getLsbD 1 ≠ (3#32).getLsbD 1) ∧ (3#32).getLsbD 0 = true ∧
    (up.d.datum.pend = none) ∧ ((2#32).getLsbD 0 = false ∧ (2#32).getLsbD 1 = true ∧ (6#32).getLsbD 0 = false ∧ (6#32).getLsbD 1 = true) ∧ (2#32).getLsbD 2 = false ∧
    (6#32).getLsbD 2 = true ∧ ((1#32).getLsbD 0 = true ∧ (1#32).getLsbD 1 = false) := by decide +kernel

/-- −100 000 and +100 000 are taken in steps of 1000 at most, 100 001 sets TRIM_BAD (R186). -/
theorem test_trim :
    (run (.datumTrimWrite 0 1000) up).d.datum.trim = 1000 ∧ (run (.datumTrimWrite 0 100001) up).d.datum.trimBad = true ∧
    (run (.datumTrimWrite 0 100001) up).d.datum.trim = 0 := by decide +kernel

theorem witness_StepsAndSyncChanges :
    (∀ (p : PortId) (n : SlotId), (up.d.ports[p]).sb.stakes[n] = none) ∧ (∀ p : PortId, (up.d.ports[p]).cal.wanted = false) ∧
    up.d.datum.unsynced = true := by
  refine ⟨fun p n => ?_, by decide +kernel⟩
  have h : ∀ p : PortId, (up.d.ports[p]).sb.stakes = Vector.replicate 256 none := by decide +kernel
  rw [h p]
  simp

/-- A PPS capture under way: enabled for rising edges, the last edge at tick 0, the present tick given. -/
def ppsState (n : Nat) (f : Pps → Pps) : State := upWith fun d =>
  { d with now := n, datum := { d.datum with pps := f { d.datum.pps with ctl := 0x003C0A01, lastEdge := some 0 } } }

theorem witness_ReferenceAndPpsAreJudged :
    up.d.datum.holdover = false ∧ (upWith fun d => { d with datum := { d.datum with holdover := true } }).d.datum.holdover = true ∧
    (let s := ppsState 199799999 id
     s.d.datum.pps.ctl.getLsbD 0 = true ∧ s.d.datum.pps.ctl.getLsbD 1 = false ∧ s.d.datumCounts = true ∧ s.d.now < 0 + 199800000) ∧
    (let s := ppsState 199800000 id
     s.d.datum.pps.lastEdge = some 0 ∧ 0 + 199800000 ≤ s.d.now ∧ s.d.datum.pend = none) ∧
    ((ppsState 200200000 id).d.now ≤ 0 + 200200000) ∧ (0 + 200200000 < (ppsState 200200001 id).d.now) ∧
    ((ppsState 0 id).d.datum.pps.countFrom = some 0) ∧
    (let s := ppsState 0 fun x => { x with lostAt := some 0 }
     s.d.datum.pps.lostAt = some 0 ∧ fld s.d.datum.pps.ctl 16 16 = 60 ∧ s.d.datum.pps.lostLong = false) := by decide +kernel

/-- One tick inside the window of R187 the edge is taken, one outside it is a glitch. -/
theorem test_pps_window :
    (run (.ppsEdge false) (ppsState 199799999 id)).d.datum.ppsGlitch = true ∧
    (run (.ppsEdge false) (ppsState 200200001 id)).d.datum.ppsGlitch = true := by decide +kernel

/-- 220 000 000 ticks without an edge set PPS_LOST (R188). -/
theorem test_pps_lost :
    (run .ppsLost (ppsState 0 id)).d.datum.ppsLost = true ∧ (run .ppsLost (ppsState 0 id)).d.now = 220000000 := by decide +kernel

/-! ### Ciphers, keys, hash, OTP, attestation, debug -/

/-- Channel 0 of region 0 with registers for a CCM encryption of 4 bytes, 4 bytes of additional data, in region SRAM. -/
def ciphRegs0 (op len : Nat) : CiphRegs :=
  { src := 0x20000000, dst := 0x20000100, len := BitVec.ofNat 32 len, key := 0x00020001, nonce := #v[1, 2, 3, 4], op }
def ciphState (st : CiphStage) (op len : Nat) : State := upWith fun d =>
  let d := d.modChan 0 0 fun c => { c with regs := ciphRegs0 op len, stage := st }
  { d with keys := { d.keys with slots := [⟨1, List.replicate 16 7, 0, false⟩] } }
def ciphRunning (op len : Nat) : State :=
  ciphState (.running ⟨ciphRegs0 op len, some (List.replicate 16 7), none, none, (0, 1), 0⟩) op len

theorem witness_CipherRequestsAreGranted :
    pageOk up.d 0 2 = true ∧ mayAll up 0 [regionPage 0 2 + 0x20, regionPage 0 2 + 0x60] = true ∧ (0x9#32).getLsbD 3 = true ∧
    fld 0x9 0 3 ≠ 0 ∧ (((up.d.regions[(0 : RegionId)]).cipher.chans[(0 : Fin 2)]).status ≠ 1) ∧
    (let s := ciphState (.waiting (ciphRegs0 1 0x404)) 1 0x404
     (s.d.regions[(0 : RegionId)]).retired = false ∧ (s.d.regions[(0 : RegionId)]).link.work = [] ∧
     (s.d.regions[(0 : RegionId)]).cipher.waiter = some (0, ciphRegs0 1 0x404) ∧
     (s.d.regions[(0 : RegionId)]).cipher.nextPair = some 0 ∧
     ((ciphRegs0 1 0x404).keyAt s.d.keys).toOption = some (List.replicate 16 7) ∧
     ((ciphRegs0 1 0x404).keyAt up.d.keys).toOption = none) := by decide +kernel

/-- What a streamed read finds. -/
def found (x : Dev × StrRd) : Option Nat := match x.2 with | .data l => some l.length | _ => none
def failed (x : Dev × StrRd) : Bool := match x.2 with | .error => true | _ => false

theorem witness_CipherOperationsEnd :
    (((ciphRunning 1 0x404).d.regions[(0 : RegionId)]).cipher.chans[(0 : Fin 2)]).stage =
      .running ⟨ciphRegs0 1 0x404, some (List.replicate 16 7), none, none, (0, 1), 0⟩ ∧
    (∀ op ∈ [1, 2, 3, 4, 5, 7], let g := ciphRegs0 op 0x404
      let u : CiphRun := ⟨g, some (List.replicate 16 7), none, some ⟨2, List.replicate 16 1, 0, true⟩, (0, 1), 0⟩
      sramOk 0 g.src.toNat g.srcLen = true ∧ sramOk 0 g.dst.toNat u.dstLen = true) ∧
    (∀ op ∈ [1, 2, 3, 4], (ciphRegs0 op 0x404).lenOk = true) ∧ ((ciphRegs0 5 16).lenOk = true) ∧ ((ciphRegs0 6 48).lenOk = true) ∧
    ((ciphRegs0 1 0x4E8).lenOk = false) ∧ (sramOk 0 0x10000000 4 = false) ∧
    (let s := ciphRunning 1 0x404
     found (s.begun.d.strRead s.ram 0x20000000 8) = some 8 ∧
     failed ({ s.begun.d with errs := [(0x20000004, true)] }.strRead s.ram 0x20000000 8) = true ∧
     (Dev.mismatches 0 0 1 [] s.begun.d).2 = true ∧ (Dev.mismatches 0 0 1 [⟨true, true, false⟩] s.begun.d).2 = false) := by
  decide +kernel

theorem witness_CcmDecryptionUndoesEncryption :
    (List.replicate 32 (0 : Byte)).length = 32 ∧ (List.replicate 13 (0 : Byte)).length = 13 := by decide +kernel

/-- AES-128 of the block of FIPS-197, appendix B. -/
theorem test_aes : aes [0x2b, 0x7e, 0x15, 0x16, 0x28, 0xae, 0xd2, 0xa6, 0xab, 0xf7, 0x15, 0x88, 0x09, 0xcf, 0x4f, 0x3c]
    [0x32, 0x43, 0xf6, 0xa8, 0x88, 0x5a, 0x30, 0x8d, 0x31, 0x31, 0x98, 0xa2, 0xe0, 0x37, 0x07, 0x34] =
    [0x39, 0x25, 0x84, 0x1d, 0x02, 0xdc, 0x09, 0xfb, 0xdc, 0x11, 0x85, 0x97, 0x19, 0x6a, 0x0b, 0x32] := by decide +kernel

/-- The CRC of R247 over the nine ASCII bytes "123456789", and the CRC-16 of R54. -/
theorem test_crcs : crc32 [0x31, 0x32, 0x33, 0x34, 0x35, 0x36, 0x37, 0x38, 0x39] = 0xCBF43926 ∧
    crc16 [0x31, 0x32, 0x33, 0x34, 0x35, 0x36, 0x37, 0x38, 0x39] = 0x29B1 := by decide +kernel

theorem witness_KeyStoreWritesCommit :
    mayAll up 0 [chipPage 6 + 0x1020] = true ∧ up.d.machineCore 0 = true ∧ up.d.keys.status ≠ 1 ∧ (0xA0000#32).getLsbD 19 = true ∧
    fld 0xA0000 17 2 = 1 ∧ fld 0xA4000 14 2 = 1 ∧ fld 0xA8000 14 2 = 2 ∧ fld 0xC0000 17 2 = 2 ∧ fld 0xE0000 17 2 = 3 ∧
    ((run (.keyErase 0 0xC0000) up).d.keys.commits = [(.keyPage, .erase 0)]) := by decide +kernel

/-- What the hash engine answers: its status. -/
def hashStatus (x : Dev × Option (Nat × List Byte)) : Option Nat := x.2.map (·.1)

theorem witness_HashOperationsAnswer :
    (let s := upWith fun d => { d with hash := { d.hash with src := 0x20000000, len := 3, sig := 0x20001000 } }
     mayAll s 0 [chipPage 6 + 0x8] = true ∧ s.d.hash.status ≠ 1 ∧ s.d.eng.user = none ∧ s.d.att.run = none ∧ s.d.eng.tokens = [] ∧
     hashStatus (s.begun.d.hashRun s.ram ⟨1, 0, 0x20000000, 3, 0x20001000, 0⟩) = some 2 ∧
     hashStatus (s.begun.d.hashRun s.ram ⟨1, 0, 0xFFFFFFF0, 64, 0, 0⟩) = some 4) ∧
    ((upWith fun d => { d with eng := { d.eng with user := some .att } }).d.eng.user = some .att) ∧
    ((5#32).getLsbD 2 = true ∧ fld 5 0 2 = 1) ∧ ((6#32).getLsbD 2 = true ∧ fld 6 0 2 = 2 ∧ fld 0x306 8 2 = 3) ∧
    (found (up.d.strRead up.ram 0x20000000 3) = some 3 ∧ found (up.d.strRead up.ram 0x20001000 2668) = some 2668 ∧
      found (up.d.strRead up.ram 0x20002000 56) = some 56) ∧
    ((up.d.strRead up.ram 0xFFFFFFF0 64).2 = .outside) ∧
    (up.d.otp.usable 0).isSome = true ∧ up.d.otp.usable 1 = none ∧
    failed ({ up.d with errs := [(0x20000000, true)] }.strRead up.ram 0x20000000 3) = true ∧
    (let t := run (.hashSha256 0 5) up
     t.d.eng.user = some .hash ∧ t.d.hash.result.isSome = true) := by decide +kernel

/-- The OTP with an operation running. -/
def otpRuns (x : Nat × Fin 2) (k : Option (List Byte)) : State := upWith fun d => { d with otp := { d.otp with run := some x, taken := k } }

theorem witness_OtpOperationsAreOneWay :
    mayAll up 0 [chipPage 6 + 0x2004] = true ∧ up.d.machineCore 0 = true ∧ up.d.otp.run = none ∧ (0x9#32).getLsbD 3 = true ∧
    fld 0x9 0 2 = 1 ∧ fld 0xA 0 2 = 2 ∧ fld 0xB 0 2 = 3 ∧
    up.d.otp.denied 3 0 = true ∧ up.d.otp.denied 1 0 = false ∧
    (let s := upWith fun d => { d with otp := { d.otp with src := 0x20000000 } }
     found (s.begun.d.strRead s.ram s.d.otp.src.toNat 56) = some 56) ∧
    (otpRuns (1, 1) (some [1])).d.otp.run = some (1, 1) ∧ (otpRuns (1, 1) (some [1])).d.otp.taken = some [1] ∧
    (otpRuns (2, 0) none).d.otp.run = some (2, 0) ∧ (otpRuns (3, 0) none).d.otp.run = some (3, 0) := by decide +kernel

/-- A module 20 seconds after its start, its attestation addresses in chip SRAM. -/
def attState (c : Nat) (src dst : Word) : State := upWith fun d =>
  { d with att := { d.att with c, src, dst }, rtc := { d.rtc with count := 20 * 65536 } }

theorem witness_AttestationConsumesAnIndex :
    (let s := attState 5 0x20000000 0x20001000
     mayAll s 0 [chipPage 6 + 0x3000] = true ∧ s.d.att.run = none ∧ s.d.att.lost = false ∧ s.d.att.c + 1 < 33554432 ∧
     s.d.pwr.phase = .up ∧ s.d.att.last + 16 * 65536 ≤ s.d.rtc.count ∧
     (inChipSram s.d.att.src.toNat 32 && inChipSram s.d.att.dst.toNat 5332) = true) ∧
    ((attState 5 0x30000000 0).d.att.lost = false ∧ (inChipSram 0x30000000 32 && inChipSram 0 5332) = false) ∧
    (let s := attState 5 0x20000000 0x20001000
     found (s.begun.d.strRead s.ram 0x20000000 32) = some 32 ∧ (s.begun.d.strRead s.ram 0x20000000 32).1.att = s.d.att ∧
     (s.begun.d.strRead s.ram 0x20000000 32).1.rtc = s.d.rtc) ∧
    (let s := upWith fun d => { d with eng := { d.eng with user := some .att }
                                       att := { d.att with run := some ⟨.regs 0x20000000 0x20001000, [], 5⟩ } }
     s.d.eng.user = some .att ∧ s.d.att.run = some ⟨.regs 0x20000000 0x20001000, [], 5⟩) ∧
    ((upWith fun d => { d with att := { d.att with lost := true } }).d.att.lost = true) ∧
    (33554432 ≤ (attState 33554432 0 0).d.att.c) ∧ ((upWith id).d.rtc.count < up.d.att.last + 16 * 65536) := by decide +kernel

theorem witness_DebugOpensByToken :
    (up.d.eng.user = none ∧ up.d.eng.tokens = [] ∧ up.d.att.run = none ∧ up.d.hash.job = none) ∧
    up.d.tokenOk [] = false ∧ mayAll up 0 [chipPage 6 + 0x4014] = true ∧
    ((upWith fun d => { d with eng := { d.eng with user := some .att } }).d.eng.user = some .att) ∧
    (let s := upWith fun d => { d with dbg := { d.dbg with locked := true } }
     s.d.dbg.locked = true ∧ s.d.dbg.scope = 0) ∧
    (upWith fun d => { d with dbg := { d.dbg with locked := true, scope := 3, unlocked := true } }).d.debugged 0 = true ∧
    (up.d.pwr.now ≠ .reset) ∧
    (let s := upWith fun d => { d with dbg := { d.dbg with testen := true }, pwr := { d.pwr with now := .reset } }
     s.d.pwr.now = .reset ∧ s.d.dbg.testen = true) := by decide +kernel

/-- A failure window from second 0 with one failure to go. -/
def authState : State := upWith fun d => { d with sec := { d.sec with cnt := fld d.sec.authctl 0 16 - 1 } }

theorem witness_AuthFailuresAreCountedByWindow :
    authState.d.sec.winStart ≤ authState.d.datumSec ∧ authState.d.datumSec < authState.d.sec.winStart + authState.d.sec.window ∧
    authState.d.datum.now.toNat + authState.d.sec.window * 200000000 < 2 ^ 64 ∧ authState.d.datumCounts = true ∧
    authState.d.sec.hit = false ∧ max 1 (fld authState.d.sec.authctl 0 16) ≤ authState.d.sec.cnt + 1 ∧
    up.d.sec.cnt + 1 < max 1 (fld up.d.sec.authctl 0 16) := by decide +kernel

/-! ### Trunk -/

/-- A request frame with its CRC (R245 to R247). -/
def trkFrame (tag opc flags addr len param : Nat) (data : List Byte) : List Byte :=
  let b := [BitVec.ofNat 8 tag, BitVec.ofNat 8 opc] ++ natBytes 2 flags ++ natBytes 4 addr ++ natBytes 2 len ++ natBytes 2 param ++ data
  b ++ natBytes 4 (crc32 b).toNat

/-- `up` with trunk link 0 UP, changed. -/
def linkUp (f : Trunk → Trunk) : State := upWith fun d => d.modTrunk 0 fun k => f { k with state := 2 }

/-- Link 0 with one admitted request. -/
def admittedReq (opc flags addr len param : Nat) (data : List Byte) : TrunkReq :=
  ⟨3, opc, flags, BitVec.ofNat 32 addr, len, param, data, 1, 1, 0, 0, none⟩
def admitted (r : TrunkReq) : State := linkUp fun k => { k with admitted := [r], tags := k.tags.set 3 { st := .active } }

theorem witness_TrunkLinkStates :
    up.d.trk.ctl.getLsbD 0 = true ∧ up.d.pwr.now = .on ∧ ((up.d.links[(0 : LinkId)]).state = 0) ∧ ((up.d.links[(0 : LinkId)]).freein = 128) ∧
    (((run (.trunkSignalPresent 0) up).d.links[(0 : LinkId)]).state = 1) ∧
    (((linkUp fun k => { k with state := 1, freein := 127 }).d.links[(0 : LinkId)]).freein ≠ 128) ∧
    (((linkUp id).d.links[(0 : LinkId)]).state = 2) := by decide +kernel

/-- A frame with a right CRC, of 4 bytes at least. -/
def goodFrame (b : List Byte) : Bool :=
  b.length < 4200 && 4 ≤ b.length && bytesNat (b.drop (b.length - 4)) = (crc32 (b.take (b.length - 4))).toNat

/-- Tag 31 of link 0 in a state, and its reply space used up. -/
def tagged (x : TagState) : State := linkUp fun k => { k with tags := k.tags.set 31 { st := x } }
def noRoom : State := linkUp fun k => { k with tags := k.tags.set 3 { st := .retained, resv := 1024 } }

theorem witness_TrunkFramesAreChecked :
    (let b := trkFrame 31 0 0 0 0 0 []
     let k := (linkUp id).d.links[(0 : LinkId)]
     k.state = 2 ∧ b.length = 16 ∧ goodFrame b = true ∧ (frameReq b).units ≤ k.freein ∧ (byteAt b 0).toNat < 32 ∧
     (frameReq b).flags.testBit 0 = false ∧ k.active (frameReq b).tag = false ∧ reqDataLen 0 0 0 = some 0 ∧
     k.resv + 1 ≤ 1024 + k.back (frameReq b) ∧ goodFrame (0 :: b) = false ∧
     ((linkUp fun k => { k with freein := 0 }).d.links[(0 : LinkId)]).freein < (frameReq b).units ∧
     1024 + (noRoom.d.links[(0 : LinkId)]).back (frameReq b) < (noRoom.d.links[(0 : LinkId)]).resv + 1) ∧
    (let b := trkFrame 31 0 1 0 0 0 []
     goodFrame b = true ∧ (frameReq b).flags.testBit 0 = true ∧ (frameReq b).tag = 31 ∧
     ((tagged .active).d.links[(0 : LinkId)]).active 31 = true ∧
     (((tagged .retained).d.links[(0 : LinkId)]).tags[(31 : Fin 32)]).st = .retained ∧
     ((tagged .retained).d.links[(0 : LinkId)]).active 31 = false ∧
     (((tagged .expired).d.links[(0 : LinkId)]).tags[(31 : Fin 32)]).st = .expired) ∧
    (let b := trkFrame 32 0 0 0 0 0 []
     goodFrame b = true ∧ (byteAt b 0).toNat = 32) ∧
    (let b := trkFrame 31 0 0 0 0 0 [7]
     goodFrame b = true ∧ b.length = 17) ∧ 4200 ≤ (List.replicate 4200 (0 : Byte)).length := by decide +kernel

/-- A PING frame waits for admission, is admitted, and its reply is sent (R244, R250, R253). -/
theorem test_ping :
    let s1 := run (.trunkFrameRx 0 (trkFrame 5 0 0 0 0 0 []) false) (linkUp id)
    let s2 := run (.trunkPing 0) (run (.trunkAdmit 0) s1)
    ((s1.d.links[(0 : LinkId)]).waiting.length = 1) ∧
    (((s2.d.links[(0 : LinkId)]).tags[(5 : Fin 32)]).st = .retained) ∧
    (((s2.d.links[(0 : LinkId)]).sent.map fun b => (byteAt b 0, byteAt b 1, byteAt b 2)).head? = some (5, 0x80, 0)) := by decide +kernel

theorem witness_TrunkAdmissionAndTags :
    (let r := admittedReq 0 0 0 0 0 []
     ((linkUp fun k => { k with waiting := [r] }).d.links[(0 : LinkId)]).nextAdmit = some r ∧ r.opc < 8 ∧ r.flags < 8) ∧
    (let r := admittedReq 8 0 0 0 0 []
     ((linkUp fun k => { k with waiting := [r] }).d.links[(0 : LinkId)]).nextAdmit = some r ∧ 8 ≤ r.opc) ∧
    (((linkUp fun k => { k with tags := k.tags.set 3 { st := .retained } }).d.links[(0 : LinkId)]).tags[(3 : Fin 32)]).st = .retained ∧
    ((linkUp id).d.links[(0 : LinkId)]).nextAdmit = none ∧
    (let r := { admittedReq 0 0 0 0 0 [] with answer := some 2 }
     ((linkUp fun k => { k with waiting := [r] }).d.links[(0 : LinkId)]).nextAdmit = some r) ∧
    mayAll up 0 [chipPage 7 + 0x28, chipPage 7 + 0x30] = true ∧ (3#32).getLsbD 0 = true ∧ (3#32).getLsbD 1 = true := by decide +kernel

/-- `admitted` during a start. -/
def admittedEarly (r : TrunkReq) : State := { admitted r with d := { (admitted r).d with pwr := { up.d.pwr with phase := .starting 9 } } }

theorem witness_TrunkMemoryRequests :
    ((admitted (admittedReq 0 0 0 0 0 [])).d.frontReq 0 (fun r => r.opc = 0) = some (admittedReq 0 0 0 0 0 [])) ∧
    ((admittedEarly (admittedReq 1 0 0x20000000 4 0 [])).d.frontReq 0 (fun r => r.opc = 1)).isSome = true ∧
    (let r := admittedReq 1 0 0x20000000 4 0 []
     let s := admitted r
     s.d.pwr.phase = .up ∧ (s.begun.d.popReq 0).memRefusal r = none ∧
     (({ s.begun with d := s.begun.d.popReq 0 } : State).busRead (initOfLink 0) r.addr.toNat 4 false).2 = .data 0) ∧
    ((admitted (admittedReq 0 0 0 4 0 [])).d.frontReq 0 (fun r => r.opc = 0)).isSome = true ∧
    (let r := admittedReq 2 0 0x20000000 4 0 [1, 2, 3, 4]
     ((admitted r).begun.d.popReq 0).memRefusal r = none ∧ (admitted r).d.frontReq 0 (fun r => r.opc = 2) = some r ∧
     (({ (admitted r).begun with d := (admitted r).begun.d.popReq 0 } : State).busWrite (initOfLink 0) r.addr.toNat 4
       (BitVec.ofNat 32 (bytesNat (r.data.take 4)))).2 = .done) ∧
    (let r := admittedReq 1 0 0x200FF000 4 0 []
     ((admitted r).begun.d.popReq 0).memRefusal r = some 3) ∧
    (let r := admittedReq 1 0 0x20000000 2 0 []
     ((admitted r).begun.d.popReq 0).memRefusal r = some 2) ∧
    (let r := admittedReq 1 0 0x20000000 4 0 []
     let s := trunkAt 0 r 0 [] (admitted r)
     (({ s with d := { s.d with errs := [(0x20000000, true)] } } : State).busRead (initOfLink 0) 0x20000000 4 false).2 = .error ∧
     (({ s with d := { s.d with flash := { s.d.flash with op := .program 0x08000010, status := 1 } } } : State).busRead
       (initOfLink 0) 0x08000000 4 false).2 = .held ∧
     (s.busWrite (initOfLink 0) (chipPage 15) 4 0).2 = .error ∧
     ((withD s fun d => d.modQueue 0 fun q => { q with depth := 0, words := [⟨5, false, none⟩] }).busWrite (initOfLink 0)
       (queReg 0 0x24) 4 0).2 = .held) := by decide +kernel

/-- A full queue 0, else `admitted`. -/
def fullQueue (r : TrunkReq) (qwait : Nat) : State := { admitted r with d :=
  let d := (admitted r).d.modQueue 0 fun q => { q with depth := 0, words := [⟨5, false, none⟩] }
  { d with trk := { d.trk with ctl := BitVec.ofNat 32 (3 + 256 * qwait) } } }

theorem witness_TrunkQueueRequests :
    (let r := admittedReq 3 0 128 8 0 []
     (admitted r).d.pwr.phase = .up ∧ ((admitted r).begun.d.popReq 0).queueRefusal r = some 2 ∧
     (admitted r).d.frontReq 0 (fun r => r.opc = 3) = some r) ∧
    (let r := admittedReq 3 0 127 8 0 []
     ((admitted r).begun.d.popReq 0).queueRefusal r = none) ∧
    (let r := admittedReq 4 0 0 8 0 (List.replicate 8 1)
     ((admitted r).begun.d.popReq 0).queueRefusal r = none ∧ (admitted r).d.frontReq 0 (fun r => r.opc = 4) = some r ∧
     (fullQueue r 10).d.pwr.phase = .up ∧
     (fullQueue r 10).d.frontReq 0 (fun r => r.opc = 4) = some r ∧
     r.len / 8 ≤ ((admitted r).d.queue r.queue).free ∧ ((fullQueue r 10).d.queue r.queue).free < r.len / 8 ∧
     fld (fullQueue r 10).d.trk.ctl 8 8 = 10 ∧ fld (fullQueue r 0).d.trk.ctl 8 8 = 0) ∧
    (let r := admittedReq 7 0 0 8 1 []
     ((admitted r).begun.d.popReq 0).queueRefusal r = none ∧ (admitted r).d.frontReq 0 (fun r => r.opc = 7) = some r ∧
     ((admitted r).d.queue r.queue).pktcnt = 0 ∧ ((admitted r).d.links[(0 : LinkId)]).standing < 8) ∧
    (let s := linkUp fun k => { k with parked := [⟨admittedReq 4 0 0 8 0 (List.replicate 8 1), 1000⟩] }
     (s.d.links[(0 : LinkId)]).parkedTag 3 4 = some ⟨admittedReq 4 0 0 8 0 (List.replicate 8 1), 1000⟩ ∧ s.d.queueUsable 0 = true ∧
     1 ≤ (s.d.queue 0).free ∧ ((withD s fun d => d.modQueue 0 fun q => { q with en := false }).d.queueUsable 0 = false) ∧
     ((withD s fun d => d.modQueue 0 fun q => { q with depth := 0, words := [⟨5, false, none⟩] }).d.queue 0).free < 1) ∧
    (let r := admittedReq 7 0 0 8 1 []
     let s := withD (admitted r) fun d => d.modQueue 0 fun q => { q with words := [⟨5, true, none⟩], pktcnt := 1 }
     (s.begun.d.popReq 0).queueRefusal r = none ∧ s.d.frontReq 0 (fun r => r.opc = 7) = some r ∧ 0 < (s.d.queue r.queue).pktcnt ∧
     (s.begun.d.popReq 0).olderSread r = false) ∧
    (let s := linkUp fun k => { k with parked := [⟨admittedReq 7 0 0 8 1 [], 1000⟩] }
     (s.d.links[(0 : LinkId)]).parkedTag 3 7 = some ⟨admittedReq 7 0 0 8 1 [], 1000⟩ ∧ s.d.olderSread (admittedReq 7 0 0 8 1 []) = false) := by
  decide +kernel

theorem witness_TrunkDictionaryAndMailboxRequests :
    (let r := admittedReq 5 0 0 4 0 (msgRead 0x1001 1)
     (admitted r).d.frontReq 0 (fun r => r.opc = 5) = some r ∧ (admitted r).d.owed (carrierOf 0) = false ∧
     1 ≤ r.len ∧ r.len ≤ 256 ∧ dictNotReady ((admitted r).begun.d.popReq 0) r.data = none ∧ (admitted r).d.pwr.phase = .up) ∧
    (let r := admittedReq 5 0 0 4 0 (msgRead 0xA001 1)
     (dictNotReady ((withD (admitted r) fun d => { d with pwr := { d.pwr with phase := .starting 9 } }).begun.d.popReq 0) r.data).isSome = true) ∧
    (let r := admittedReq 6 0 12 4 1 [1, 2, 3, 4]
     (admitted r).d.frontReq 0 (fun r => r.opc = 6 && r.param = 1) = some r ∧ (admitted r).d.pwr.phase = .up ∧ 12 ≤ r.addr.toNat ∧ r.addr.toNat < 16) ∧
    (let r := admittedReq 6 0 15 0 2 []
     (admitted r).d.frontReq 0 (fun r => r.opc = 6 && r.param = 2) = some r) ∧
    (let r := admittedReq 6 0 11 0 2 []
     (admitted r).d.frontReq 0 (fun r => r.opc = 6 && r.param = 2) = some r ∧ r.addr.toNat < 12) ∧
    (let r := admittedReq 6 0 15 0 3 []
     (admitted r).d.frontReq 0 (fun r => r.opc = 6 && r.param ≠ 1 && r.param ≠ 2) = some r) := by decide +kernel

/-! ### TDP, dictionary, update, CAN, config memory -/

/-- A carrier takes a message at once, as a computed fact. -/
def readyFor (s : State) (c : Carrier) (m : List Byte) : Bool :=
  s.d.carrierFree c && (decide (c = 0) || (dictNotReady s.d m).isNone) && (s.heard.d.dictHeld c m).isNone &&
    !s.d.xferOverdue c && !s.d.updOverdue

theorem readyFor_sound (s : State) (c : Carrier) (m : List Byte) (h : readyFor s c m = true) : s.tdpReady c m := by
  simp only [readyFor, Bool.and_eq_true, Bool.or_eq_true, decide_eq_true_eq, Option.isNone_iff_eq_none, Bool.not_eq_true'] at h
  exact ⟨h.1.1.1.1, h.1.1.1.2, h.1.1.2, h.1.2, h.2⟩

/-- `up` with an open transfer on carrier 1. -/
def xferOf (write : Bool) (last : Option Byte) : Xfer :=
  { write, index := 0x2010, sub := 1, total := some 3, data := if write then [] else [1, 2, 3], last, lastResp := [0x46, 0], pos := 0
    at_ := 0, ctxSel := 0 }
def xferState (x : Xfer) : State := upWith fun d => d.modCarrier 1 fun k => { k with xfer := some x }

theorem witness_MessagesParseBack :
    (List.replicate 60 (0 : Byte)).length ≤ 60 ∧ 60 < (List.replicate 61 (0 : Byte)).length ∧
    ([(7 : Byte)].length ≤ (up.d.tdpLimits 1).wseg) ∧ ((up.d.tdpLimits 0).wseg < (List.replicate 255 (0 : Byte)).length) := by
  decide +kernel

/-- An object entry, as a computed fact: is there one, is it a DOMAIN, its write refusal, its size. -/
def entry (i : BitVec 16) (b : Byte) : Option (Bool × Option Nat × Option Nat) :=
  (objAt (up.asked 1).d i.toNat b.toNat).toOption.map fun o => (match o.src with | .dom _ => true | _ => false, o.noWrite, o.ty.size)

/-- What a read of an object gives: a length or a code. -/
def readOf (i : BitVec 16) (b : Byte) : Option (Except Nat Nat) :=
  (objAt (up.asked 1).d i.toNat b.toNat).toOption.map fun o =>
    match (objRead o i b (up.asked 1)).2 with | .ok l => .ok l.length | .error e => .error e

theorem witness_DictionaryRequestsAreServed :
    (∀ i ∈ [0x1001, 0x2010, 0x9010], (up.asked 1).d.route i = .hw) ∧
    readyFor up 1 (msgRead 0x1001 1) = true ∧ readyFor up 1 (msgRead 0x2010 1) = true ∧
    readyFor up 1 (msgWrite 0x2010 1 [2]) = true ∧ readyFor up 1 (msgInit 0x2010 1 1) = true ∧
    (entry 0x1001 1).isSome = true ∧ entry 0x1001 200 = none ∧ (up.asked 1).d.deadWrite 0x2010 = false ∧
    (readOf 0x2010 1).isSome = true := by decide +kernel

/-- A DOMAIN that reads and writes in segments. -/
theorem witness_DictionaryRequests_domain :
    (match objAt (up.asked 1).d 0x5100 3 with | .ok o => (match o.src with | .dom .ctxData => true | _ => false) | .error _ => false) = true ∧
    (up.asked 1).d.ctxWindow = true ∧ readyFor up 1 (msgRead 0x5100 3) = true ∧ readyFor up 1 (msgInit 0x5100 3 64) = true ∧
    (up.asked 1).d.route 0x5100 = .hw := by decide +kernel

/-- A transfer of CTXDATA on carrier 1. -/
def ctxXfer (write : Bool) : Xfer :=
  { write, index := 0x5100, sub := 3, total := some 64, data := [], last := none, lastResp := [], pos := 0, at_ := 0, ctxSel := 3 }

theorem witness_Transfers :
    (up.d.tdp.car[(1 : Carrier)]).xfer = none ∧ (up.d.tdp.car[(1 : Carrier)]).timedOut = none ∧
    (up.d.tdp.car[(1 : Carrier)]).fwXfer = none ∧ readyFor up 1 [0x42, 0] = true ∧ readyFor up 1 (msgSeg false 0 [1]) = true ∧
    readyFor up 1 ([0xC0#8] ++ natBytes 2 0x2010 ++ [1, 0]) = true ∧
    (let x := xferOf false none
     let s := xferState x
     (s.d.tdp.car[(1 : Carrier)]).xfer = some x ∧ (s.d.tdp.car[(1 : Carrier)]).fwXfer = none ∧ readyFor s 1 [0x42, 0] = true ∧
     readyFor s 1 [0x42, 1] = true ∧ readyFor s 1 ([0xC0#8] ++ natBytes 2 0x2010 ++ [1, 0]) = true ∧ x.done = false ∧ x.isCtx = false) ∧
    (let x := xferOf false (some 0)
     readyFor (xferState x) 1 [0x42, 0] = true ∧ x.last = some 0) ∧
    (let x := xferOf true none
     let s := xferState x
     readyFor s 1 (msgSeg true 0 [1, 2, 3]) = true ∧ readyFor s 1 (msgSeg true 0 [1, 2]) = true ∧
     readyFor s 1 (msgSeg false 0 [1]) = true ∧ readyFor s 1 (msgSeg false 7 [1]) = true ∧ x.done = false ∧ x.isCtx = false ∧
     [(1 : Byte), 2, 3].length ≤ (s.d.tdpLimits 1).wseg) ∧
    (let x := xferOf true (some 0)
     readyFor (xferState x) 1 (msgSeg false 0 [1]) = true) := by decide +kernel

theorem witness_Transfers_contexts_and_attest :
    (ctxXfer false).isCtx = true ∧ (ctxXfer false).done = false ∧
    readyFor (xferState (ctxXfer false)) 1 [0x42, 0] = true ∧ readyFor (xferState (ctxXfer true)) 1 (msgSeg false 0 [1]) = true ∧
    (ctxFill 64 5 3 [] (xferState (ctxXfer false)).heard).2.isSome = true ∧
    (let x : Xfer := { xferOf true none with index := 0x6010, total := some 2 }
     readyFor (xferState x) 1 (msgSeg true 0 [1, 2]) = true ∧ x.isCtx = false ∧
     ((xferState x).heard.d.attDict [] 1 [1, 2]).2 = some 15) := by decide +kernel

/-- Carrier 1 awaits firmware's answer 9; firmware's queue holds a packet. -/
def fwState (w : Word64) : State := upWith fun d =>
  let d := d.modQueue (queueOf 0 (Fin.ofNat 32 (fld d.tdp.fwctl 16 5))) fun q =>
    { q with words := [⟨w, false, none⟩, ⟨0x44, true, none⟩], pktcnt := 1 }
  d.modCarrier 1 fun k => { k with fw := some (9, 0xA000, 0, 1000) }

theorem witness_FirmwareAnswers :
    (let s := fwState 0x0000000000040009
     let q := queueOf 0 (Fin.ofNat 32 (fld s.d.tdp.fwctl 16 5))
     s.d.awaits 9 = some 1 ∧ s.d.awaits 8 = none ∧ fld64 0x0000000000040009 18 9 = 1 ∧ fld64 0x0000000000000009 18 9 = 0 ∧
     (s.d.tdp.car[(1 : Carrier)]).fw = some (9, 0xA000, 0, 1000) ∧ 1 ≤ (s.d.tdpLimits 1).resp ∧
     (s.d.tdpLimits 1).resp < fld64 0x0000000007FC0009 18 9 ∧
     s.d.queueUsable q = true ∧ (s.d.queue q).packet.isSome = true) ∧
    (let s := up
     (s.d.queue (queueOf 0 (Fin.ofNat 32 (fld s.d.tdp.fwctl 16 5)))).packet = none) := by decide +kernel

theorem witness_DictionaryCommandsAct :
    indexMax (0x1010 + 13) = some 0 ∧ readyFor up 1 (msgWrite 0x101D 0 [1]) = true ∧ detailSize 13 0 = 1 ∧
    readyFor up 1 (msgWrite 0x5101 4 [1]) = true ∧ up.d.pwr.phase = .up ∧ up.d.tdp.op.status ≠ 1 ∧ up.d.carrierFree 1 = true ∧
    (upWith fun d => { d with tdp := { d.tdp with op := { d.tdp.op with status := 1 } } }).d.tdp.op.status = 1 ∧
    readyFor up 1 (msgWrite 0x8003 0 [1]) = true ∧ readyFor up 1 (msgWrite 0x8003 0 [2]) = true ∧
    (attState 5 0 0).d.att.run = none ∧ (attState 5 0 0).d.att.lost = false ∧
    (attState 5 0 0).d.att.last + 16 * 65536 ≤ (attState 5 0 0).d.rtc.count ∧ (attState 5 0 0).d.pwr.phase = .up ∧
    up.d.rtc.count < up.d.att.last + 16 * 65536 ∧
    (upWith fun d => { d with att := { d.att with lost := true } }).d.att.lost = true ∧
    (upWith fun d => { d with att := { d.att with run := some ⟨.dict 1, [], 5⟩ } }).d.att.run = some ⟨.dict 1, [], 5⟩ := by decide +kernel

/-- The detail of ATTN bits 0 and 1 is live: its objects take no write. -/
theorem witness_DictionaryCommands_live :
    (indexMax (0x1010 + 1)).isSome = true ∧ readyFor up 1 (msgWrite 0x1011 1 [0, 0, 0, 0]) = true := by decide +kernel

/-- The update lock held by carrier 2, in a given state, with an open image transfer. -/
def updState (st : Nat) : State := upWith fun d =>
  let d := { d with upd := { d.upd with holder := some 2, state := st, total := 2992 } }
  d.modCarrier 2 fun k => { k with xfer := some { write := true, index := 0x9010, sub := 0, total := some 2992, data := [], last := none
                                                  lastResp := [], pos := 0, at_ := 0, ctxSel := 0 } }

/-- An engine's job of one word at an offset, with the flash in a state. -/
def updJob (o : Nat) (x : Option Xfer) (words : Bool) : UpdJob :=
  { carrier := 2, words := if words then [(o, List.replicate 16 1)] else [], ok := true, rest := [], count := 16, xfer := x
    last := true, wrong := false }
def jobState (j : UpdJob) (f : Flash → Flash) : State := withD (updState 2) fun d =>
  { d with upd := { d.upd with job := some j, erased := 1 }, flash := f d.flash }

theorem witness_UpdatesFollowTheLock :
    up.d.upd.holder = none ∧ readyFor up 2 (msgWrite 0x9001 0 [1]) = true ∧ up.d.pwr.phase = .up ∧
    ((updState 2).d.upd.holder = some 2 ∧ (updState 2).d.pwr.phase = .up) ∧
    (∀ c ∈ [(1 : Carrier), 2], readyFor (updState 1) c (msgWrite 0x9001 0 [1]) = true ∧ readyFor (updState 1) c (msgWrite 0x9001 0 [0]) = true ∧
      readyFor (updState 4) c (msgWrite 0x9002 0 [1]) = true ∧ readyFor (updState 2) c (msgWrite 0x9003 0 [1]) = true ∧
      readyFor (updState 1) c (msgInit 0x9010 0 2992) = true ∧ readyFor (updState 1) c (msgInit 0x9010 0 2991) = true) ∧
    (2992 % 16 = 0) ∧ readyFor (updState 2) 2 (msgSeg false 0 (List.replicate 16 1)) = true ∧
    ((updState 2).d.tdp.car[(2 : Carrier)]).fwXfer = none ∧
    (((updState 2).d.tdp.car[(2 : Carrier)]).xfer.map fun x => (x.write, x.index, x.done, x.last)) = some (true, 0x9010, false, none) := by
  decide +kernel

theorem witness_Updates_job :
    (let s := jobState (updJob 0 none true) id
     s.d.upd.job = some (updJob 0 none true) ∧ s.d.flash.engineMay = true ∧ 0 / 65536 < s.d.upd.erased ∧ s.d.upd.erased ≤ 65536 / 65536 ∧
     s.d.flash.refusal 1 0x08000000 false = none ∧ s.d.flash.refusal 2 0x08010000 false = none) ∧
    ((jobState (updJob 65536 none true) fun f => { f with op := .program 0x08000010 }).d.flash.engineMay = false) ∧
    ((updJob 0 (some (xferOf true none)) false).words = [] ∧ (updJob 0 none false).xfer = none) ∧
    (let s := jobState (updJob 0 none true) fun f => { f with src := true, status := 3 }
     s.d.flash.src = true ∧ s.d.flash.status = 3) := by decide +kernel

/-- The CAN controller on, node 5, with waiting frames. -/
def canState (n : Nat) (cur : Option CanReq) (out : Option CanFrame) : State := upWith fun d =>
  { d with can := { d.can with mode := 1, node := 5, buf := List.replicate n ⟨[1, 1, 1, 1], false, false, []⟩, cur, out } }

theorem witness_CanFramesAndConfigRecords :
    (canState 0 none none).begun.d.canOn = true ∧ (canState 4 none none).d.can.buf.length = 4 ∧ (canState 0 none none).d.owed 0 = false ∧
    up.d.canOn = false ∧ ((canState 0 none none).begun.d.canErrs [.rx8]).canOn = true ∧ (canState 0 none none).d.can.buf = [] ∧
    (let r : CanReq := ⟨[1, 1], false, false, []⟩
     let s := canState 2 (some r) (some ⟨0x385, [0], false, false⟩)
     s.d.can.cur ≠ none ∧ s.d.can.out = some ⟨0x385, [0], false, false⟩ ∧ s.d.can.buf.length < 4 ∧ s.begun.d.canTried.canOn = true) ∧
    ((canState 1 none none).d.can.cur = none ∧ (canState 1 none none).d.can.buf = [⟨[1, 1, 1, 1], false, false, []⟩] ∧ (canState 1 none none).d.owed 0 = false) ∧
    ((withD (canState 0 none none) fun d => { d with can := { d.can with mode := 3 } }).d.can.mode = 3) ∧
    mayAll up 0 [chipPage 8 + 0x4, chipPage 9 + 0xC] = true ∧ up.d.datumCounts = true ∧
    (0 < ({ up.d.cfg with size := 8192 } : Cfg).areaSize) ∧ ((up.d.cfg).areaSize = 0) := by decide +kernel

/-- A response of 4 bytes to a request in the FD form fills 6 of the 6 bytes of its length code, with ATTN in front (R282, R287). -/
theorem test_can_frame : canFrame 5 ⟨[], true, true, []⟩ 0x8001 [0x44, 1, 2, 3] =
    { ident := 0x385, data := [0x01, 0x80, 0x44, 1, 2, 3], fd := true, brs := true } := by decide +kernel

/-- Sixteen transmit errors make the port error passive, and the answer that is then sent takes 1 back (ISO 11898-1). -/
theorem test_can_tries :
    (let s := canState 0 (some ⟨[1, 1], false, false, [List.replicate 16 .tx8]⟩) (some ⟨0x385, [0], false, false⟩)
     s.begun.d.canTried.can.mode = 2 ∧ (run .canResponseSent s).d.can.tec = 127) := by decide +kernel

/-! ### Cores -/

/-- `up` with instruction words at 0x20000000 and core 0 there, registers x1 = 0x20000104, x2 = 5. -/
def coreAt (w : Word) (f : Core → Core) : State :=
  { upWith (fun d => d.modCore 0 fun c => f { c with
      pc := 0x20000000, regs := (c.regs.set (1 : Fin 32) 0x20000104).set (2 : Fin 32) 5 }) with
    ram := memWrite 0 (memWrite 0 [] 0x20000000 (natBytes 4 w.toNat)) 0x20000104 [0x78, 0x56, 0x34, 0x82] }

/-- The state after the fetch, and whether the core runs and fetches this word. -/
def fetched (s : State) : State := (coreFetch 0 { s with d := (s.begun.d.upset []).modCore 0 fun x => { x with wfi := false } }).1
def fetchesB (s : State) (w : Word) (len : Nat) : Bool :=
  s.d.coreLive 0 && s.d.coreWakes 0 &&
    decide ((coreFetch 0 { s with d := (s.begun.d.upset []).modCore 0 fun x => { x with wfi := false } }).2 = .word w len)

theorem fetchesB_sound (s : State) (w : Word) (len : Nat) (h : fetchesB s w len = true) :
    s.d.coreRuns 0 ∧ s.fetches 0 [] w len (fetched s) := by
  simp only [fetchesB, Bool.and_eq_true, decide_eq_true_eq] at h
  exact ⟨⟨h.1.1, h.1.2⟩, Prod.ext rfl h.2⟩

/-- lw x3, 0(x1); sw x2, 0(x1); lr.w x3, (x1); sc.w x3, x2, (x1); amoadd.w x3, x2, (x1). -/
theorem witness_CoreAccessesCompleteOrTrap :
    (let s := coreAt 0x0000A183 id
     let t := fetched s
     fetchesB s 0x0000A183 4 = true ∧ iOp 0x0000A183 = 0x03 ∧ loadForm (iF3 0x0000A183) = some (4, false) ∧
     ((t.d.cores[(0 : CoreId)]).reg (iRs1 0x0000A183) + immI 0x0000A183).toNat % 4 = 0 ∧
     (t.d.cores[(0 : CoreId)]).csr.pmpOk (t.d.cores[(0 : CoreId)]).dataMach 0x20000104 4 0 = true ∧
     (t.busRead (initOfCore 0) 0x20000104 4 false).2 = .data 0x82345678 ∧
     (({ t with d := { t.d with errs := [(0x20000104, true)] } } : State).busRead (initOfCore 0) 0x20000104 4 false).2 = .error ∧
     (({ t with d := { t.d with flash := { t.d.flash with op := .program 0x08000010 } } } : State).busRead (initOfCore 0)
       0x08000000 4 false).2 = .held) ∧
    (let s := coreAt 0x0020A023 id
     fetchesB s 0x0020A023 4 = true ∧ iOp 0x0020A023 = 0x23 ∧ iF3 0x0020A023 = 2 ∧
     ((fetched s).busWrite (initOfCore 0) 0x20000104 4 5).2 = .done ∧ ((fetched s).busWrite (initOfCore 0) 0x08000000 4 5).2 = .error ∧
     ((fetched s).busWrite (initOfCore 0) 0x20000104 4 5).1.d.sramAlive 0x20000104 = true ∧ (fetched s).d.errAt 0x20000104 = none) ∧
    (let s := coreAt 0x0020A023 fun c => { c with mach := false }
     fetchesB s 0x0020A023 4 = false) := by decide +kernel

/-- The atomic instructions, their address aligned, in a window or not, the reservation held or not. -/
theorem witness_CoreAccesses_atomic :
    (fetchesB (coreAt 0x1000A1AF id) 0x1000A1AF 4 = true ∧ classOf 0x1000A1AF = .lr ∧ atomicWindow 0x20000104 = true ∧
      ((fetched (coreAt 0x1000A1AF id)).d.cores[(0 : CoreId)]).csr.pmpOk true 0x20000104 4 0 = true) ∧
    (fetchesB (coreAt 0x1820A1AF id) 0x1820A1AF 4 = true ∧ classOf 0x1820A1AF = .sc ∧
      ((fetched (coreAt 0x1820A1AF id)).d.cores[(0 : CoreId)]).resv = none ∧
      ((fetched (coreAt 0x1820A1AF fun c => { c with resv := some 0x20000104 })).d.cores[(0 : CoreId)]).resv = some 0x20000104) ∧
    (fetchesB (coreAt 0x0020A1AF id) 0x0020A1AF 4 = true ∧ classOf 0x0020A1AF = .amo ∧
      amoOp (fld 0x0020A1AF 27 5) 0x82345678 5 = some 0x8234567D) ∧
    atomicWindow 0x40000000 = false := by decide +kernel

/-- lw gives the word at its address and the pc moves past the instruction. -/
theorem test_lw :
    let t := run (.coreLoadStore 0 []) (coreAt 0x0000A183 id)
    (t.d.cores[(0 : CoreId)]).regs[(3 : Fin 32)] = 0x82345678 ∧ (t.d.cores[(0 : CoreId)]).pc = 0x20000004 := by decide +kernel

/-- sc.w without a reservation gives 1 and stores nothing; after lr.w at the address it gives 0. -/
theorem test_sc :
    ((run (.coreScW 0) (coreAt 0x1820A1AF id)).d.cores[(0 : CoreId)]).regs[(3 : Fin 32)] = 1 ∧
    ((run (.coreScW 0) (coreAt 0x1820A1AF fun c => { c with resv := some 0x20000104 })).d.cores[(0 : CoreId)]).regs[(3 : Fin 32)] = 0 := by
  decide +kernel

/-- lui, auipc, jal, jalr, beq, addi, add, a reserved OP: each is fetched and is of its form. -/
theorem witness_CoreInstructionsRetire :
    (([0x000121B7, 0x00012197, 0x008001EF, 0x000081E7, 0x00208463, 0x00108193, 0x002081B3, 0x802081B3] : List Word).all fun w => fetchesB (coreAt w id) w 4) = true ∧
    (iOp 0x000121B7 = 0x37 ∧ iOp 0x00012197 = 0x17 ∧ iOp 0x008001EF = 0x6F) ∧
    (iOp 0x000081E7 = 0x67 ∧ iF3 0x000081E7 = 0 ∧ iOp 0x00208463 = 0x63 ∧ branchTaken (iF3 0x00208463) 0x20000104 5 = some false) ∧
    (iOp 0x00108193 = 0x13 ∧ aluImm 0x00108193 0x20000104 = some 0x20000105) ∧
    (iOp 0x002081B3 = 0x33 ∧ aluReg (iF7 0x002081B3) (iF3 0x002081B3) 1 5 = some 6) ∧
    (iOp 0x802081B3 = 0x33 ∧ aluReg (iF7 0x802081B3) (iF3 0x802081B3) 1 5 = none) := by decide +kernel

/-- ecall, mret, csrrs of mscratch, fence, fence.i, wfi, rdtime, csrrw of MTIMECMP and of MIRQCLAIM. -/
theorem witness_CoreInstructions_system :
    (([0x00000073, 0x30200073, 0x340021F3, 0x0FF0000F, 0x0000100F, 0x10500073, 0xC01021F3, 0x7C0111F3, 0x7CA111F3] : List Word).all fun w => fetchesB (coreAt w id) w 4) = true ∧
    ((coreAt 0 id).d.cores[(0 : CoreId)]).mach = true ∧
    (iF3 0x340021F3 % 4 ≠ 0 ∧ classOf 0x340021F3 = .other ∧ csrWrites 0x340021F3 = false ∧
      ((coreAt 0x340021F3 id).d.cores[(0 : CoreId)]).mayCsr (iCsr 0x340021F3) (csrWrites 0x340021F3) = true ∧
      (coreAt 0x340021F3 id).d.csrRead 0 (iCsr 0x340021F3) = some 0) ∧
    (classOf 0x0FF0000F = .fence ∧ classOf 0x0000100F = .fenceI) ∧
    ((coreAt 0 id).d.cores[(0 : CoreId)]).csr.mstatus.getLsbD 21 = false ∧
    (iOp 0xC01021F3 = 0x73 ∧ iF3 0xC01021F3 = 2 ∧ iCsr 0xC01021F3 = 0xC01 ∧ (iRs1 0xC01021F3).val = 0) ∧
    (iF3 0x7C0111F3 = 1 ∧ iCsr 0x7C0111F3 = 0x7C0 ∧ iF3 0x7CA111F3 = 1 ∧ iCsr 0x7CA111F3 = 0x7CA ∧ fld 5 0 9 < 64) := by decide +kernel

/-- In user mode, with a PMP entry that lets it fetch: ecall, mret and, with TW = 1, wfi. -/
def userAt (w : Word) : State := coreAt w fun c => { c with
  mach := false, csr := { c.csr with
    mstatus := c.csr.mstatus ||| 0x200000, pmpaddr := c.csr.pmpaddr.set 0 0xFFFFFFFF, pmpcfg := c.csr.pmpcfg.set 0 0x0F } }
theorem witness_CoreInstructions_user :
    (([0x00000073, 0x30200073, 0x10500073] : List Word).all fun w => fetchesB (userAt w) w 4) = true ∧
    ((userAt 0).d.cores[(0 : CoreId)]).mach = false ∧ ((userAt 0).d.cores[(0 : CoreId)]).csr.mstatus.getLsbD 21 = true ∧
    (let s := userAt 0x0000A183
     let deny := { s with d := s.d.modCore 0 fun c => { c with csr := { c.csr with pmpcfg := c.csr.pmpcfg.set 0 0x0C } } }
     fetchesB deny 0x0000A183 4 = true ∧
     ((fetched deny).d.cores[(0 : CoreId)]).csr.pmpOk ((fetched deny).d.cores[(0 : CoreId)]).dataMach 0x20000104 4 0 = false) := by
  decide +kernel

theorem test_add : ((run (.coreInstruction ⟨0, []⟩) (coreAt 0x002081B3 id)).d.cores[(0 : CoreId)]).regs[(3 : Fin 32)] = 0x20000109 := by
  decide +kernel
theorem test_ecall :
    ((run (.coreInstruction ⟨0, []⟩) (coreAt 0x00000073 id)).d.cores[(0 : CoreId)]).csr.mcause = 11 ∧
    ((run (.coreInstruction ⟨0, []⟩) (coreAt 0x00000073 id)).d.cores[(0 : CoreId)]).csr.mepc = 0x20000000 := by decide +kernel

/-- Core 0 with the timer interrupt enabled and its compare value reached. -/
def timerDue : State := coreAt 0 fun c => { c with csr := { c.csr with mtimecmp := 0, mtimecmph := 0, mie := 0x80, mstatus := c.csr.mstatus ||| 8 } }

theorem witness_CoresStartAndAreInterrupted :
    up.d.datumCounts = true ∧ up.d.datum.now.toNat ≤ (join64 (up.d.cores[(1 : CoreId)]).csr.mtimecmph (up.d.cores[(1 : CoreId)]).csr.mtimecmp).toNat ∧
    timerDue.d.coreLive 0 = true ∧ timerDue.d.irqOf 0 = some 7 ∧
    mayAll up 0 [chipPage 11 + 0x1000, chipPage 11 + 0x1008] = true ∧ up.d.machineCore 0 = true ∧
    up.d.mainCore = 0 ∧ (up.d.cores[(1 : CoreId)]).running = false ∧ (up.d.cores[(1 : CoreId)]).retired = false ∧ (2#32).getLsbD 1 = true := by
  decide +kernel

/-- RUN = 1 starts core 1, RUN = 0 puts it in reset. -/
theorem test_core_run :
    let t := run (.coreCtlWrite 0 2) up
    (t.d.cores[(1 : CoreId)]).running = true ∧ (t.d.cores[(1 : CoreId)]).held = false ∧
    ((run (.coreCtlWrite 0 0) t).d.cores[(1 : CoreId)]).running = false := by decide +kernel

/-- After fence.i a core fetches what memory holds (R325). -/
theorem test_prefetch :
    let s := run (.coreFenceI 0) (coreAt 0x0000100F id)
    ((run (.coreInstruction ⟨0, []⟩) { s with ram := memWrite 0 s.ram 0x20000004 [0x73, 0, 0, 0] }).d.cores[(0 : CoreId)]).csr.mcause = 11 := by
  decide +kernel

/-! ### Flash, queues, mailboxes, DMA -/

/-- `up` with the flash changed. -/
def upFlash (f : Flash → Flash) : State := upWith fun d => { d with flash := f d.flash }

/-- A word being programmed, an erase in progress, and a HALF block. -/
def fl : State := upFlash fun f => { f with addr := 0x08000000 }
def flProg : State := upFlash fun f => { f with op := .program 0x08000010, status := 1 }
def flErase (n : Nat) : State := upFlash fun f => { f with op := .erase 3 n 0, status := 1 }
def flSusp : State := upFlash fun f => { f with op := .suspended 3 2, status := 2 }
def flHalf : State := upFlash fun f => { f with half := [1], addr := 0x08010000, prog := [0x08000000] }

theorem witness_FlashOperationsFollowTheirRules :
    mayAll up 0 [chipPage 0, chipPage 0 + 0x18, chipPage 0 + 0x40, chipPage 0 + 0x4C] = true ∧
    ((5#32).getLsbD 2 = true ∧ fld 5 0 2 = 1 ∧ fld 6 0 2 = 2) ∧
    (flProg.d.flash.status = 1 ∧ flSusp.d.flash.status = 2) ∧
    ({ fl.d.flash with cmdOp := 1, src := false } : Flash).refusal 1 0x08000000 true = none ∧
    ({ fl.d.flash with cmdOp := 2, src := false } : Flash).refusal 2 0x08000000 true = none ∧
    ({ flHalf.d.flash with cmdOp := 1, src := false } : Flash).refusal 1 0x08010000 true = some 7 ∧
    ({ flHalf.d.flash with cmdOp := 1, src := false } : Flash).refusal 1 0x08000000 true = some 4 ∧
    ({ fl.d.flash with cmdOp := 2, src := false } : Flash).refusal 2 0x08800000 true = some 6 ∧
    (flProg.d.flash.op = .program 0x08000010 ∧ (flErase 158).d.flash.op = .erase 3 158 0 ∧ (flErase 159).d.flash.op = .erase 3 159 0 ∧
      flSusp.d.flash.op = .suspended 3 2 ∧ up.d.flash.op = .idle) ∧
    (inFlash 0x08000000 = true ∧ inFlash 0x087FFFFC = true ∧ inFlash 0x08800000 = false ∧ up.d.initMay 0 0x08000000 false = true ∧
      up.d.initMay 0 0x08010000 false = true) ∧
    flProg.d.flash.busyBank = some (flashBlk 0x08000000 / 64) ∧ up.d.flash.busyBank ≠ some (flashBlk 0x08000000 / 64) ∧
    flHalf.d.flash.poisoned 1 = true ∧ flHalf.d.flash.poisoned 0 = false ∧ flHalf.d.flash.prog.contains 0x08000000 = true ∧
    up.d.upd.job = none := by decide +kernel

/-- A code word with a bit error, of one bit or of two. -/
def flErr (double : Bool) : State := upFlash fun f => { f with prog := [0x08000000], errs := [(0x08000000, double)] }

theorem witness_Flash_reads_and_commands :
    (flErr true).d.flash.errAt 0x08000004 = some true ∧ (flErr false).d.flash.errAt 0x08000004 = some false ∧
    up.d.flash.errAt 0x08000004 = none ∧ (flErr true).d.initReady 0 = true ∧ (flErr true).d.flash.poisoned 0 = false ∧
    ((1#32).getLsbD 2 = false) ∧ ((7#32).getLsbD 2 = true ∧ fld 7 0 2 = 3) ∧
    (flProg.d.flash.status = 1) ∧ (fl.d.flash.status ≠ 1 ∧ fl.d.flash.status ≠ 2) ∧
    ((1#32).getLsbD 0 = true ∧ (1#32).getLsbD 1 = false ∧ (2#32).getLsbD 0 = false ∧ (2#32).getLsbD 1 = true) ∧
    (mayAll flSusp 0 [chipPage 0 + 0x18] = true ∧ mayAll (flErase 3) 0 [chipPage 0 + 0x18] = true ∧ mayAll flHalf 0 [chipPage 0] = true) := by
  decide +kernel

/-- The 160th pulse that fails leaves the block HALF with status FAILED; the 159th goes on (R341). -/
theorem test_erase_pulses :
    ((run (.flashErasePulseEnd false) (flErase 159)).d.flash.status = 9 ∧ (run (.flashErasePulseEnd false) (flErase 159)).d.flash.half = [3]) ∧
    ((run (.flashErasePulseEnd false) (flErase 158)).d.flash.op = .erase 3 159 100000) := by decide +kernel

/-- A read of a HALF block gives the poison word. -/
theorem test_poison : flHalf.d.flash.bytes 0x08010000 4 = [0xE5, 0xE5, 0xAD, 0xDE] := by decide +kernel

/-- Queue 5 of region 0 changed. -/
def q5 (f : Queue → Queue) : State := upWith fun d => d.modQueue 5 f

/-- Two words, the second with its mark. -/
def qTwo : List QWord := [⟨0x1122334455667788, false, none⟩, ⟨2, true, none⟩]

theorem witness_QueuesAndMailboxesKeepTheirOrder :
    pageOk up.d 0 0 = true ∧ mayAll up 0 ([0x00, 0x04, 0x20, 0x24, 0x28].map (queReg 5)) = true ∧
    up.d.initMay 0 (queReg 5 0x30) false = true ∧
    ((up.d.queue 5).en = true ∧ (up.d.queue 5).words.length < 2 ^ (up.d.queue 5).depth) ∧
    ((q5 fun q => { q with words := qTwo, depth := 1 }).d.queue 5).words.length = 2 ^ 1 ∧
    ((q5 fun q => { q with discard := true }).d.queue 5).discard = true ∧
    (2 ^ ((q5 fun q => { q with words := qTwo, depth := 1 }).d.queue 5).depth ≤
      ((q5 fun q => { q with words := qTwo, depth := 1 }).d.queue 5).words.length) ∧
    ((q5 fun q => { q with en := false }).d.queue 5).en = false ∧
    (((q5 fun q => { q with en := false }).d.regions[regionOfQueue 5]).enableRefused (localOfQueue 5) = false) ∧
    (((q5 fun q => { q with en := false, base := 1 }).d.regions[regionOfQueue 5]).enableRefused (localOfQueue 5) = true) ∧
    ((q5 fun q => { q with words := [⟨7, true, some false⟩] }).d.queue 5).words = [⟨7, true, some false⟩] ∧
    ((q5 fun q => { q with words := [⟨7, true, some true⟩] }).d.queue 5).words = [⟨7, true, some true⟩] ∧
    (up.d.queue 5).words = [] ∧ (up.d.queue 5).discard = false ∧ ((3#32).getLsbD 0 = true ∧ (3#32).getLsbD 1 = true) ∧
    (mbxParty 0 = some 0 ∧ mbxParty 8 = some 8) ∧
    mayAll up 0 [chipPage 5, chipPage 5 + 4, chipPage 5 + 12, chipPage 5 + 0xF0, chipPage 5 + 0xFC] = true ∧
    (up.d.initMay 0 (chipPage 5) false = true ∧ up.d.initMay 0 (chipPage 5 + 8) false = true) := by decide +kernel

/-- A mailbox that is full, or owned by core 1. -/
def mbxState (m : Fin 16) (f : Mbx → Mbx) : State := upWith fun d => d.modMbx m f

theorem witness_Mailboxes :
    ((mbxState 13 fun x => { x with full := true, sender := 9 }).d.mbx[(13 : Fin 16)]).sender = 9 ∧
    ((mbxState 3 fun x => { x with full := true }).d.mbx[(3 : Fin 16)]).full = true ∧ ((up.d.mbx[(3 : Fin 16)]).full = false) ∧
    ((mbxState 3 fun x => { x with owner := some 1 }).d.mbx[(3 : Fin 16)]).owner = some 1 ∧ (up.d.mbx[(3 : Fin 16)]).owner = none ∧
    ((mbxState 3 fun x => { x with owner := some 0 }).d.mbx[(3 : Fin 16)]).owner = some 0 := by decide +kernel

/-- A full queue holds the write: the initiator waits and the queue keeps its words (R352). -/
theorem test_full_queue_holds :
    let t := run (.queWrHi 0 5 7) (q5 fun q => { q with words := qTwo, depth := 1 })
    t.d.holds.length = 1 ∧ (t.d.queue 5).words = qTwo := by decide +kernel

/-- The idle word. -/
theorem test_idle_word : ((run (.queRdLo 0 5 []) up).d.latch[(0 : Initiator)]).qhi = 0x1D1E1D1E := by decide +kernel

/-- A message posted to an empty mailbox stands in it with its sender (R374). -/
theorem test_mailbox_post :
    ((run (.mbxMsgWrite 8 0 9) up).d.mbx[(0 : Fin 16)]).msg = 9 ∧ ((run (.mbxMsgWrite 8 0 9) up).d.mbx[(0 : Fin 16)]).sender = 8 := by
  decide +kernel

/-- A descriptor that moves one word of SRAM. -/
def desc0 : Desc := { src := 0x20000100, dst := 0x20000200, cnt := 1, wb := 0, cfg := 0 }

/-- Channel 0 of region 0 with the descriptor shadowed, active, and with its word buffered. -/
def dmaShadow (x : Desc) : State := upWith fun d => d.modDma 0 fun c => { c with shadow := x }
def dmaActive : State :=
  { upWith (fun d => d.modDma 0 fun c => { c with active := some desc0, shown := desc0, cnt := 1 }) with
    ram := memWrite 0 [] 0x20000100 [0x78, 0x56, 0x34, 0x12] }
def dmaFull : State := upWith fun d => d.modDma 0 fun c =>
  { c with active := some desc0, shown := desc0, cnt := 1, taken := 1, readEnd := .count, buf := [{ data := 0x12345678, eop := false }] }

/-- Channel 0 with its word written, and with an abort to come. -/
def dmaDone (f : DmaChan → DmaChan) : State := upWith fun d => d.modDma 0 fun c =>
  f { c with active := some desc0, shown := desc0, taken := 1, written := 1, readEnd := .count }

/-- The outcome of an element's read and of its write. -/
def elemOf (s : State) : Nat := match (elemRead 0 desc0 0 s).2 with | .got _ => 0 | .error _ => 1 | .held => 2
def wrOf (s : State) : Wr := (destWrite 0 desc0 0x20000200 4 0x12345678 false false s).2.1

theorem witness_DmaMovesItsDescriptor :
    pageOk up.d 0 1 = true ∧ mayAll up 0 [regionPage 0 1 + 0x10, regionPage 0 1 + 0x34] = true ∧ (0x80000000#32).getLsbD 31 = true ∧
    desc0.valid = true ∧ ({ desc0 with cnt := 0 } : Desc).valid = false ∧
    ((up.d.dma 0).active = none ∧ (up.d.dma 0).err = false ∧ (up.d.dma 0).aborted = false ∧ (up.d.dma 0).baddesc = false) ∧
    dmaActive.d.dmaOn 0 = true ∧ (dmaActive.d.dma 0).active = some desc0 ∧ desc0.wbOn = false ∧ desc0.crcStore = false ∧
    ((dmaActive.d.dma 0).buf = [] ∧ (dmaActive.d.dma 0).rdLeft = 0 ∧ desc0.srcKind = 0 ∧ desc0.elem = 4) ∧
    (up.d.dma 0).handT ≠ some up.d.now ∧
    ((upWith fun d => d.modDma 0 fun c => { c with handT := some 0 }).d.dma 0).handT = some 0 := by decide +kernel

theorem witness_Dma_bursts :
    nextChan (dmaActive.begun.d.regions[(0 : RegionId)]).dma.rdTurn (fun k => decide (0 < dmaActive.begun.d.readBurst 0 (dmaActive.begun.d.regions[(0 : RegionId)]).dma.chans[k])) =
      some 0 ∧
    nextChan (up.begun.d.regions[(0 : RegionId)]).dma.rdTurn (fun k => decide (0 < up.begun.d.readBurst 0 (up.begun.d.regions[(0 : RegionId)]).dma.chans[k])) =
      none ∧
    (dmaActive.begun.busRead (initOfDma 0) 0x20000100 4 false).2 = .data 0x12345678 ∧
    (elemOf dmaActive.begun = 0 ∧ elemOf { dmaActive.begun with d := { dmaActive.begun.d with errs := [(0x20000100, true)] } } = 1) ∧
    nextChan (dmaFull.begun.d.regions[(0 : RegionId)]).dma.wrTurn (fun k => (dmaFull.begun.d.writeBurst 0 (dmaFull.begun.d.regions[(0 : RegionId)]).dma.chans[k]).2) =
      some 0 ∧
    (dmaFull.d.writeBurst 0 (dmaFull.d.dma 0)).1 = 1 ∧
    (wrOf dmaFull.begun = .done ∧ (dmaFull.d.dma 0).buf = [{ data := 0x12345678, eop := false }]) ∧
    (let s := dmaDone id
     (s.d.dma 0).active = some desc0 ∧ (s.d.dma 0).buf = [] ∧ (s.d.dma 0).aborting = false ∧ (s.d.dma 0).commit = false ∧
     (s.d.dma 0).readEnd = .count ∧ ((dmaDone fun c => { c with readEnd := .eop }).d.dma 0).readEnd = .eop) := by decide +kernel

/-- The one word moves and the descriptor ends DONE. -/
theorem test_dma_word :
    let t := run (.dmaWriteBurst 0) (run (.dmaReadBurst ⟨0, []⟩) dmaActive)
    memRead 0 t.ram 0x20000200 4 = [0x78, 0x56, 0x34, 0x12] ∧ (t.d.dma 0).done = true := by decide +kernel

/-- SWAP modes of R366. -/
theorem test_swap : (List.range 4).map (fun k => swapWord k 0x11223344) = [0x11223344, 0x22114433, 0x33441122, 0x44332211] := by decide

/-! ### Events, timers, RTC, power -/

/-- `up` with an event channel, a LUT cell or a timer changed. -/
def upEvt (n : Fin 64) (f : EvtChan → EvtChan) : State := upWith fun d => d.modEvt n f
def upLut (f : Lut → Lut) : State := upWith fun d => d.modLut 2 f
def upTmr (t : Fin 16) (f : Timer → Timer) : State := upWith fun d => d.modTimer t f

theorem witness_EventsFireAndTimersCount :
    up.d.datumCounts = true ∧ up.d.evt.gpioOe.getLsbD 15 = false ∧ up.d.evt.gpioExt.getLsbD 15 = false ∧
    mayAll up 0 [chipPage 4 + 0x900, chipPage 4 + 0x904, chipPage 4 + 0x908, chipPage 3 + 0x08, chipPage 3 + 0x1E8, chipPage 3 + 0x400] = true ∧
    (up.d.evt.ch[(63 : Fin 64)]).cfg.getLsbD 0 = false ∧ (up.d.evt.ch[(63 : Fin 64)]).fork = [] ∧
    (∀ m : Fin 64, arrivals (up.d.evt.ch[m]).src [⟨0x80 + 63, 1⟩] = none) ∧
    ((upLut fun x => { x with heldEvt := some (5, 1, 300), cfg := 0x1FF }).d.evt.lut[(2 : Fin 16)]).heldEvt = some (5, 1, 300) ∧
    ((upLut fun x => { x with heldEvt := some (5, 1, 300), cfg := 0xFF }).d.evt.lut[(2 : Fin 16)]).cfg.getLsbD 8 = false ∧
    (let d := ((upLut fun x => { x with heldEvt := some (5, 1, 300), cfg := 0x1FF }).d.until_ 300).modLut 2 fun x => { x with heldEvt := none }
     (d.lutEval 2).2 = true ∧ (((upLut fun x => { x with heldEvt := some (5, 1, 300) }).d.until_ 300).lutEval 2).2 = false) ∧
    ((upTmr 3 fun x => { x with run := true, cnt := 0 }).d.evt.tmr[(3 : Fin 16)]).cnt = 0 ∧
    ((upTmr 3 fun x => { x with run := true, cnt := 9 }).d.evt.tmr[(3 : Fin 16)]).run = true ∧
    (up.d.evt.tmr[(3 : Fin 16)]).forced = none ∧ (up.d.evt.tmr[(3 : Fin 16)]).chainRun = false ∧
    up.d.initMay 0 (chipPage 3 + 0x70) false = true := by decide +kernel

/-- The module in NAP with ball 3 selected to wake it. -/
def napWake : State := upWith fun d =>
  { d with evt := { d.evt with gpioWake := 8 }, pwr := { d.pwr with now := .nap, wakecfg := d.pwr.wakecfg ||| 16 } }

/-- Ball 3 as an input that rises. -/
def rise (s : State) : Dev := s.begun.d.gpioChange (fun e => { e with gpioExt := e.gpioExt ||| 8 }) 0

theorem witness_Events_edges :
    (rise up).gpioLevel.getLsbD 3 ≠ up.d.gpioLevel.getLsbD 3 ∧ (rise up).wakes (.gpio 3) = none ∧
    (rise napWake).gpioLevel.getLsbD 3 ≠ napWake.d.gpioLevel.getLsbD 3 ∧ (rise napWake).wakes (.gpio 3) = some 3 ∧
    ((upTmr 3 fun x => { x with forced := some (0, 9) }).d.evt.tmr[(3 : Fin 16)]).forced = some (0, 9) ∧
    ((upTmr 3 fun x => { x with sched := [(true, 9)] }).d.evt.tmr[(3 : Fin 16)]).sched = [(true, 9)] := by decide +kernel

/-- A rising edge at ball 3 reaches channel 9, which counts it and passes it on to ATTN cause 16. -/
theorem test_gpio_edge :
    let t := run (.gpioEdge 3 true) (upEvt 9 fun c => { c with src := 0x23, taska := 0x71 })
    (t.d.evt.ch[(9 : Fin 64)]).fwd = 1 ∧ (t.d.cores[(7 : CoreId)]).csr.latch = 0x200 ∧ (t.d.evt.ch[(8 : Fin 64)]).fwd = 0 := by
  decide +kernel

/-- A channel that triggers itself is stopped by its hop count. -/
theorem test_loop : ((run (.evtFireWrite 0 false 0x200) (upEvt 9 fun c => { c with src := 0x89 })).d.evt.ch[(9 : Fin 64)]).loop = true := by
  decide +kernel

/-- `up` with the RTC changed. -/
def upRtc (f : Rtc → Rtc) : State := upWith fun d => { d with rtc := f d.rtc }

theorem witness_RtcKeepsItsTime :
    mayAll up 0 [chipPage 1 + 0x10, chipPage 1 + 8, chipPage 1 + 0xC] = true ∧
    (up.d.initMay 0 (chipPage 1) false = true ∧ up.d.initMay 0 (chipPage 1 + 0xC) false = true) ∧
    (up.d.rtc.crossing = none ∧ (upRtc fun r => { r with crossing := some 5, syncbusy := true }).d.rtc.crossing = some 5) ∧
    ((upRtc fun r => { r with alarmen := true }).d.rtc.alarmen = true ∧ up.d.rtc.powered = true) ∧
    ((upWith fun d => { d with pwr := { d.pwr with wakecfg := 4 } }).d.pwr.wakecfg.getLsbD 2 = true) ∧
    up.d.rtc.syncbusy = false ∧ up.d.rtc.halt = false ∧ (upRtc fun r => { r with halt := true }).d.rtc.halt = true ∧
    (up.d.rtc.alarmen = false ∧ up.d.rtc.armed = false ∧ up.d.rtc.powered = true ∧ up.d.rtc.onVbat = false ∧ up.d.rtc.firstswv = false) ∧
    (calendarOk 0x235959 0x240229 = true ∧ calendarOk 0x235959 0x230229 = false ∧ calendarOk 0x240000 0x240229 = false) ∧
    (upWith fun d => { d with pwr := { d.pwr with wakecfg := 0 } }).d.pwr.wakecfg.getLsbD 2 = false := by decide +kernel

/-- `up` with region 0's power changed. -/
def upPwr (f : RegPower → RegPower) : State := upWith fun d => d.modRegPwr 0 f

theorem witness_PowerIsAskedForAndMeasured :
    mayAll up 0 [chipPage 2, chipPage 2 + 0x10, chipPage 2 + 0x50, chipPage 2 + 0x60, chipPage 2 + 0x70, chipPage 2 + 0x7C] = true ∧
    up.d.pwr.phase = .up ∧ up.d.pwr.now = .on ∧ up.d.entryRefused = false ∧ flProg.d.entryRefused = true ∧
    State.reset.d.pwr.phase ≠ .up ∧
    (let p := (up.d.regions[(0 : RegionId)]).pwr
     p.vset = 30 ∧ p.vceil = 30 ∧ p.boost = 0 ∧ p.paceNow = p.pace ∧ p.busy up.d.now = false ∧ vsetCode p.pace ≤ 30) ∧
    (let p := ((upPwr fun p => { p with vset := 10, vceil := 20, pace := 0, paceNow := 0 }).d.regions[(0 : RegionId)]).pwr
     p.vset + p.boost < min p.vceil 30 ∧ p.pace ≤ p.paceNow ∧ vsetCode p.pace ≤ 11 ∧ p.vset < vsetCode 7) ∧
    (let p := ((upPwr fun p => { p with boost := 30, paceNow := 1, pace := 2 }).d.regions[(0 : RegionId)]).pwr
     min p.vceil 30 ≤ p.vset + p.boost ∧ 0 < p.paceNow ∧ p.paceNow < p.pace) ∧
    (let p := ((upPwr fun p => { p with waking := [6, 9] }).d.regions[(0 : RegionId)]).pwr
     p.waking.contains 6 = true ∧ p.waking.contains 9 = true) ∧
    (let p := ((upPwr fun p => { p with waking := [2] }).d.regions[(0 : RegionId)]).pwr
     p.waking.contains 2 = true ∧ (up.d.ports[portOf 0 (Fin.ofNat 6 2)]).rx.retired = false) ∧ up.d.otp.run = none ∧
    ((upWith fun d => { d with pwr := { d.pwr with now := .nap } }).d.pwr.now = .nap) := by decide +kernel

/-- The device in a power state. -/
def inState (n : PwrNow) : State := upWith fun d => { d with pwr := { d.pwr with now := n } }

theorem witness_SupplyStartsAndWakes :
    ((inState .off).d.pwr.now = .off ∧ (inState .off).d.pwr.overvolt = false ∧ (inState .off).d.dbg.testen = false) ∧
    (upWith fun d => { d with dbg := { d.dbg with testen := true } }).d.dbg.testen = true ∧
    (upWith fun d => { d with pwr := { d.pwr with overvolt := true } }).d.pwr.overvolt = true ∧
    (upWith fun d => { d with pwr := { d.pwr with phase := .starting 10 } }).d.pwr.phase = .starting 10 ∧
    (upWith fun d => { d with pwr := { d.pwr with restartAt := some 9 } }).d.pwr.restartAt = some 9 ∧
    ((upWith fun d => { d with pwr := { d.pwr with out33 := true } }).d.pwr.out33 = true) ∧
    ((upWith fun d => { d with pwr := { d.pwr with phase := .starting 9 } }).d.pwr.phase = .starting 9 ∧ up.d.pwr.now = .on) ∧
    (∀ x ∈ [(PwrNow.nap, 1), (.hold, 2), (.standby, 3)], (inState x.1).d.pwr.now = x.1) ∧
    ((withD (inState .hold) fun d => { d with pwr := { d.pwr with wakecfg := 0xFFFFFFFF } }).d.wakes .waken).isSome = true ∧
    up.d.wakes .reqRun = none ∧
    ((up.d.cores[(1 : CoreId)]).retired = false ∧ (upWith fun d => d.modCore 1 fun c => { c with released := true, wake := 4 }).d.cores[(1 : CoreId)].wake ≠ 0) := by
  decide +kernel

/-- `up` with a held push of core 0 at queue 5. -/
def heldPush (failed : Bool) : State := upWith fun d =>
  { d with holds := [{ init := 0, addr := BitVec.ofNat 32 (queReg 5 0x24), width := 4, value := some 7, failed }] }

theorem witness_AccessesCompleteFailOrAreHeld :
    up.d.initReady 0 = true ∧ portOk up.d 0 = true ∧ winOf (portBase 0 + 4) = .port 0 4 ∧ winOf (regionPage 0 1 + 0x40) = .region 0 1 0x40 ∧
    winOf (chipPage 0 + 4) = .chip 0 4 ∧ mayAll up 0 [portBase 0 + 4, regionPage 0 1 + 0x40, chipPage 0 + 4] = true ∧
    pageDomain 1 = some 9 ∧ (upPwr fun p => { p with domsleep := 0x200 }).d.domainAsleep 0 9 = true ∧
    (upPwr fun p => { p with domsleep := 0x200, domerr := 0x200 }).d.domainAsleep 0 9 = true ∧
    (heldPush false).d.initReady 0 = false ∧ coreOf 12 = none ∧ up.d.holds = [] ∧ up.d.heldAt 0 = none ∧
    (heldPush false).d.heldAt 0 = some (queReg 5 0x24) ∧ ((heldPush false).d.heldOn (queReg 5 0x24)).2 = [0] ∧
    up.d.datumCounts = true ∧ up.d.gone (.chipBlock 9) = false ∧ up.d.gone (.port 0) = false := by decide +kernel

theorem witness_Accesses_timeouts :
    (let x := up.begun.d.handshakeTimeout (.chipBlock 9) true
     x.initReady 0 = true ∧ x.gone (.chipBlock 9) = false ∧ x.resetDue = false) ∧
    (let x := up.begun.d.handshakeTimeout (.chipBlock 9) false
     x.initReady 0 = true) ∧
    ((upWith fun d => { d with pwr := { d.pwr with now := .off } }).d.datumCounts = false) ∧
    ((heldPush true).d.holds.find? fun x => x.init = 0).isSome = true ∧
    ((withD (heldPush true) fun d => d.modCore 0 fun c => { c with held := true }).d.cores[(0 : CoreId)]).held = true ∧
    ((heldPush true).d.cores[(0 : CoreId)]).held = false := by decide +kernel

/-- A handshake whose retry fails too ends the access it served with a bus error; one whose retry completes makes it (R15). -/
theorem test_timeout_access :
    (let t := run (.handshakeTimeout ⟨.chipBlock 9, some ⟨0, 0x20000000, some 5⟩⟩ false) up
     t.d.bus[(0 : Initiator)] = .error ∧ t.ram = []) ∧
    (let t := run (.handshakeTimeout ⟨.chipBlock 9, some ⟨0, 0x20000000, some 5⟩⟩ true) up
     t.d.bus[(0 : Initiator)] = .done ∧ memRead 0 t.ram 0x20000000 4 = [5, 0, 0, 0]) := by decide +kernel

/-! ### The whole block -/

theorem witness_StepTakesTheFrontCommand : State.reset.pending = [] := by decide

theorem witness_EveryCommandAnswersAndKeepsTheForm :
    State.reset.ram.wf = true ∧ State.reset.accepts (.rtcFracRead 0) = true ∧
    State.reset.accepts (.jtagInstruction (.testMode 0)) = false := by decide +kernel

theorem witness_FramesDemodulateToWhatWasSent : (6 ≤ 12) ∧ ([1, 2] : List Byte).length = 2 ∧
    (syncSymbols 7 0x34).length = 2 := by decide

end Sys2Proof.Tests
end

section
/-! Accesses and handshakes (chapters 1 and 15): how a register write ends at a gate, how a held access goes on, and how
a handshake that timed out and the access it served end. -/

namespace Sys2Proof.Machine

/-! ### Gates that turn an access away -/

/-- A port whose region or which itself is retired takes no write (R35, R116). -/
theorem Dev.portGate_write_retired {d : Dev} {p : PortId} {o : Nat}
    (h : (d.regions[regionOfPort p]).retired = true ∨ (d.ports[p]).rx.retired = true) :
    d.portGate p o true = (d, some .error) := by
  rw [Dev.portGate]
  by_cases hr : ((d.regions[regionOfPort p]).retired || !d.rfPowered) = true
  · exact if_pos hr
  · have hp : (d.ports[p]).rx.retired = true := h.resolve_left fun e => hr (by rw [e]; rfl)
    rw [if_neg hr, if_pos hp]
    rfl

/-- A page of a retired region takes no access (R35). -/
theorem Dev.regionGate_retired {d : Dev} {r : RegionId} {k : Fin 4} (h : (d.regions[r]).retired = true) :
    d.regionGate r k = (d, some .error) := if_pos h

/-- The gate of a region in service is that of the page's domain. -/
theorem Dev.regionGate_domain {d : Dev} {r : RegionId} {k : Fin 4} {dom : Nat} (h : (d.regions[r]).retired = false)
    (hk : pageDomain k = some dom) : d.regionGate r k = d.domainGate r dom := by
  rw [Dev.regionGate, h, hk]
  rfl

/-- A sleeping domain whose DOMERR bit is set answers with a bus error (R410). -/
theorem Dev.domainGate_domerr {d : Dev} {r : RegionId} {dom : Nat} (h : d.domainAsleep r dom = true)
    (e : (d.regions[r]).pwr.domerr.getLsbD dom = true) : d.domainGate r dom = (d, some .error) := by
  rw [Dev.domainGate, if_pos h, if_pos e]

/-- A sleeping domain whose DOMERR bit is clear holds the access and wakes (R16, R410). -/
theorem Dev.domainGate_wakes {d : Dev} {r : RegionId} {dom : Nat} (h : d.domainAsleep r dom = true)
    (e : (d.regions[r]).pwr.domerr.getLsbD dom = false) : d.domainGate r dom =
      ({ d.setDomain r dom false with pwr := { d.pwr with wakeSrc := 7 } }, some .held) := by
  rw [Dev.domainGate, if_pos h, e]
  rfl

/-! ### Register writes that a gate turns away -/

/-- The start of a command changes no domain. -/
theorem State.begun_domainAsleep {s : State} {r : RegionId} {dom : Nat} :
    s.begun.d.domainAsleep r dom = s.d.domainAsleep r dom := by
  simp only [Dev.domainAsleep, Dev.portAsleep, State.begun]

/-- The write of a word that its initiator can write is the access, recorded. -/
theorem rowWrite_of_mayWrite {i : Initiator} {a : Nat} {v : Word} {s : State} (hi : s.d.mayWrite i a) :
    rowWrite i a v s = finish (written i a v (s.begun.busWrite i a 4 v)) := by
  simp [rowWrite, hi.1, hi.2]

/-- What the gate of a port's page answers is what a write of a word there answers. -/
theorem State.busWrite_port_gated {i : Initiator} {p : PortId} {a o : Nat} {v : Word} {s : State} {d : Dev} {w : Wr}
    (hw : winOf a = .port p o) (hg : s.d.portGate p o true = (d, some w)) :
    s.busWrite i a 4 v = ({ s with d := d }, w) := by
  simp [State.busWrite, State.memStore, hw, hg]

/-- What the gate of a region's page answers is what a write of a word there answers. -/
theorem State.busWrite_region_gated {i : Initiator} {r : RegionId} {k : Fin 4} {a o : Nat} {v : Word} {s : State} {d : Dev}
    {w : Wr} (hw : winOf a = .region r k o) (hg : s.d.regionGate r k = (d, some w)) :
    s.busWrite i a 4 v = ({ s with d := d }, w) := by
  simp [State.busWrite, State.memStore, hw, hg]

/-- A port register's write ends as the gate of the port's page answers. -/
theorem rowWrite_port_gated {i : Initiator} {p : PortId} {a o : Nat} {v : Word} {s : State} {d : Dev} {w : Wr}
    (hw : winOf a = .port p o) (hi : s.d.mayWrite i a) (hg : s.begun.d.portGate p o true = (d, some w)) :
    rowWrite i a v s = finish (written i a v ({ s with d := d }, w)) := by
  rw [rowWrite_of_mayWrite hi, State.busWrite_port_gated hw hg]
  rfl

/-- A region register's write ends as the gate of the region's page answers. -/
theorem rowWrite_region_gated {i : Initiator} {r : RegionId} {k : Fin 4} {a o : Nat} {v : Word} {s : State} {d : Dev}
    {w : Wr} (hw : winOf a = .region r k o) (hi : s.d.mayWrite i a) (hg : s.begun.d.regionGate r k = (d, some w)) :
    rowWrite i a v s = finish (written i a v ({ s with d := d }, w)) := by
  rw [rowWrite_of_mayWrite hi, State.busWrite_region_gated hw hg]
  rfl

/-- A register of a retired port, or of a port of a retired region, answers a write with a bus error (R35, R116). -/
theorem rowWrite_port_retired {i : Initiator} {p : PortId} {a o : Nat} {v : Word} {s : State}
    (hw : winOf a = .port p o) (hi : s.d.mayWrite i a)
    (h : (s.d.regions[regionOfPort p]).retired = true ∨ (s.d.ports[p]).rx.retired = true) :
    rowWrite i a v s = onDevW (fun d => d.answer i .error) s :=
  rowWrite_port_gated hw hi (Dev.portGate_write_retired h)

/-- A register of a retired region answers a write with a bus error (R35). -/
theorem rowWrite_region_retired {i : Initiator} {r : RegionId} {k : Fin 4} {a o : Nat} {v : Word} {s : State}
    (hw : winOf a = .region r k o) (hi : s.d.mayWrite i a) (h : (s.d.regions[r]).retired = true) :
    rowWrite i a v s = onDevW (fun d => d.answer i .error) s :=
  rowWrite_region_gated hw hi (Dev.regionGate_retired h)

section
variable {i : Initiator} {r : RegionId} {k : Fin 4} {a o dom : Nat} {v : Word} {s : State}
  (hw : winOf a = .region r k o) (hi : s.d.mayWrite i a) (hr : (s.d.regions[r]).retired = false)
  (hk : pageDomain k = some dom) (hs : s.d.domainAsleep r dom = true)
include hw hi hr hk hs

/-- A register of a sleeping domain whose DOMERR bit is set answers a write with a bus error (R410). -/
theorem rowWrite_asleep_domerr (he : (s.d.regions[r]).pwr.domerr.getLsbD dom = true) :
    rowWrite i a v s = onDevW (fun d => d.answer i .error) s := by
  rw [← State.begun_domainAsleep] at hs
  exact rowWrite_region_gated hw hi ((Dev.regionGate_domain (d := s.begun.d) hr hk).trans (Dev.domainGate_domerr hs he))

/-- A write to a register of a sleeping domain whose DOMERR bit is clear is held while the domain wakes (R16, R410). -/
theorem rowWrite_asleep_held (he : (s.d.regions[r]).pwr.domerr.getLsbD dom = false) :
    rowWrite i a v s = onDevW (fun d =>
      ({ d.setDomain r dom false with pwr := { d.pwr with wakeSrc := 7 } }).hold i a 4 (some v)) s := by
  rw [← State.begun_domainAsleep] at hs
  exact rowWrite_region_gated hw hi ((Dev.regionGate_domain (d := s.begun.d) hr hk).trans (Dev.domainGate_wakes hs he))

end

/-- A write of FLASH_ADDR suspends no erase, so it sets the address alone. -/
theorem chipWrite_flashAddr {i : Initiator} {v : Word} {s : State} : chipWrite i 0 4 v s =
    ({ s with d := { s.d with flash := { s.d.flash with addr := v } } }, .done) := by
  have n : ¬ (s.d.flash.suspended.isSome ∧ s.d.flash.suspended.isNone) := by cases s.d.flash.suspended <;> simp
  exact Prod.ext (if_neg n) rfl

/-- A write of FLASH_ADDR, which no gate stands before, sets the address (R339). -/
theorem rowWrite_flashAddr {i : Initiator} {a : Nat} {v : Word} {s : State} (hw : winOf a = .chip 0 4)
    (hi : s.d.mayWrite i a) : rowWrite i a v s =
      onDevW (fun d => ({ d with flash := { d.flash with addr := v } }).answer i .done) s := by
  rw [rowWrite_chip hw hi, chipWrite_flashAddr]
  rfl

/-- REGISTER_WRITE is the write of the word that its address lies in (R8). -/
theorem exec_registerWrite_eq (i : Initiator) (a v : Word) (s : State) :
    exec (.registerWrite i a v) s = .next (rowWrite i (a.toNat / 4 * 4) v s) := rfl

/-! ### Held accesses (R16, R28) -/

theorem exec_heldAccessRelease_eq (i : Initiator) (s : State) :
    exec (.heldAccessRelease i) s = execHeldAccessRelease i s := rfl

theorem exec_heldAccessRelease_none {i : Initiator} {s : State} (h : s.d.heldAt i = none) :
    exec (.heldAccessRelease i) s = .next s := by
  rw [exec_heldAccessRelease_eq, execHeldAccessRelease, h]

/-- An access that alone waits on its target goes on. -/
theorem exec_heldAccessRelease_alone {i : Initiator} {s : State} {a : Nat} (h : s.d.heldAt i = some a)
    (hl : (s.d.heldOn a).2 = [i]) : exec (.heldAccessRelease i) s = done (releaseOne i s.begun) := by
  simp [exec_heldAccessRelease_eq, execHeldAccessRelease, h, hl, done]

/-- Of several accesses that wait on one target the one that the crossbars grant goes on. -/
theorem exec_heldAccessRelease_arbitrated {i : Initiator} {s : State} {a : Nat} (h : s.d.heldAt i = some a)
    (hl : (s.d.heldOn a).2 ≠ [i]) : exec (.heldAccessRelease i) s =
      (let g := s.begun.d.arbitrate a (s.d.heldOn a).1 (s.d.heldOn a).2
       done (releaseOne (g.2.headD i) { s with d := g.1 })) := by
  simp [exec_heldAccessRelease_eq, execHeldAccessRelease, h, hl, done]

/-- A held access is among those that wait on its target, unless only its class is data and control accesses wait. -/
theorem Dev.mem_heldOn_of_heldAt {d : Dev} {i : Initiator} {a : Nat} (h : d.heldAt i = some a) :
    i ∈ (d.heldOn a).2 ∨ ((d.heldOn a).1 = true ∧ ctlAccess i a = false) := by
  rw [Dev.heldOn]
  split
  · left
    simp [h]
  · cases hc : ctlAccess i a with
    | true => left; simp [h, hc]
    | false => exact .inr ⟨rfl, rfl⟩

/-! ### The access made again (R16, R354) -/

/-- The state once initiator i's access is held no longer. -/
def State.unheld (s : State) (i : Initiator) : State :=
  { s with d := { s.d with holds := s.d.holds.filter fun x => x.init ≠ i } }

/-- The release of an access in the list of holds tries that access again. -/
theorem releaseOne_of_hold {i : Initiator} {s : State} {h : HeldAcc} (hi : i ≠ dictInit)
    (hf : (s.d.holds.find? fun x => x.init = i) = some h) : releaseOne i s = heldRetry i h s := by
  simp [releaseOne, hi, hf]

/-- The retry of an access that an instruction of a core made: the instruction goes on, or fails with its push. -/
theorem heldRetry_core {i : Initiator} {h : HeldAcc} {s : State} {c : CoreId} (hc : coreOf i = some c)
    (hh : (s.d.cores[c]).held = true) (hs : (s.d.cores[c]).stopping = false) :
    heldRetry i h s =
      (let x : State := { s.unheld i with d := (s.unheld i).d.modCore c fun y => { y with held := false } }
       if h.failed then coreExcept c 7 h.addr x else coreNext c x) := by
  rw [heldRetry]
  simp only [hc, hh, coreRelease, hs]
  rfl

/-- The retry of an access that no instruction waits for: it is made again as the row it was, or ends with a bus error
where the queue it pushes to has been disabled. -/
theorem heldRetry_row {i : Initiator} {h : HeldAcc} {s : State}
    (hc : ∀ c, coreOf i = some c → (s.d.cores[c]).held = false) :
    heldRetry i h s = if h.failed then { s.unheld i with d := (s.unheld i).d.answer i .error }
      else h.value.elim (rowRead i h.addr.toNat (s.unheld i)) fun v => rowWrite i h.addr.toNat v (s.unheld i) := by
  cases e : coreOf i with
  | none => simp only [heldRetry, e]; cases h.value <;> rfl
  | some c => simp only [heldRetry, e, hc c e]; cases h.value <;> rfl

/-! ### Handshakes that time out (R15, R420) -/

theorem exec_handshakeTimeout_eq (t : Handshake) (ok : Bool) (s : State) :
    exec (.handshakeTimeout t ok) s = execHandshakeTimeout t ok s := rfl

/-- No handshake is under way while the datum stands. -/
theorem exec_handshakeTimeout_stands {t : Handshake} {ok : Bool} {s : State} (h : s.d.datumCounts = false) :
    exec (.handshakeTimeout t ok) s = .next s := by
  simp [exec_handshakeTimeout_eq, execHandshakeTimeout, h]

/-- A handshake that served no access is charged to its target. -/
theorem exec_handshakeTimeout_bare {t : FaultTarget} {ok : Bool} {s : State} (h : s.d.datumCounts = true) :
    exec (.handshakeTimeout ⟨t, none⟩ ok) s = done { s with d := s.begun.d.handshakeTimeout t ok } := by
  simp [exec_handshakeTimeout_eq, execHandshakeTimeout, h, done]

/-- A handshake that served an access is charged to its target, and the access ends. -/
theorem exec_handshakeTimeout_access {t : FaultTarget} {ok : Bool} {s : State} {a : Access} (h : s.d.datumCounts = true) :
    exec (.handshakeTimeout ⟨t, some a⟩ ok) s =
      done (accessEnd t ok a { s with d := s.begun.d.handshakeTimeout t ok }) := by
  simp [exec_handshakeTimeout_eq, execHandshakeTimeout, h, done]

theorem accessEnd_notReady {t : FaultTarget} {ok : Bool} {a : Access} {x : State} (h : x.d.initReady a.init = false) :
    accessEnd t ok a x = x := by simp [accessEnd, h]

/-- The access ends with a bus error where the retry fails, its target is gone or a reset is due. -/
theorem accessEnd_fails {t : FaultTarget} {ok : Bool} {a : Access} {x : State} (h : x.d.initReady a.init = true)
    (hf : ok = false ∨ x.d.gone t = true ∨ x.d.resetDue = true) :
    accessEnd t ok a x = { x with d := x.d.answer a.init .error } := by
  have c : (!ok || x.d.gone t || x.d.resetDue) = true := by simpa [or_assoc] using hf
  rw [accessEnd, h, c]
  rfl

/-- The retry makes the write again. -/
theorem accessEnd_write {t : FaultTarget} {ok : Bool} {a : Access} {x : State} {v : Word}
    (h : x.d.initReady a.init = true) (hf : ¬ (ok = false ∨ x.d.gone t = true ∨ x.d.resetDue = true))
    (hv : a.value = some v) : accessEnd t ok a x =
      written a.init (a.addr.toNat / 4 * 4) v (x.busWrite a.init (a.addr.toNat / 4 * 4) 4 v) := by
  have c : (!ok || x.d.gone t || x.d.resetDue) = false := by simpa [and_assoc] using hf
  rw [accessEnd, h, c, hv]
  rfl

/-- The retry makes the read again. -/
theorem accessEnd_read {t : FaultTarget} {ok : Bool} {a : Access} {x : State}
    (h : x.d.initReady a.init = true) (hf : ¬ (ok = false ∨ x.d.gone t = true ∨ x.d.resetDue = true))
    (hv : a.value = none) : accessEnd t ok a x =
      wasRead a.init (a.addr.toNat / 4 * 4) (x.busRead a.init (a.addr.toNat / 4 * 4) 4 false) := by
  have c : (!ok || x.d.gone t || x.d.resetDue) = false := by simpa [and_assoc] using hf
  rw [accessEnd, h, c, hv]
  rfl

/-- A target that is out of its pool already is charged no more. -/
theorem Dev.handshakeTimeout_gone {d : Dev} {t : FaultTarget} {ok : Bool} (h : d.gone t = true) :
    d.handshakeTimeout t ok = d := if_pos h

/-- A target other than a lane (R87) is charged once, and once more for a retry that fails. -/
theorem Dev.handshakeTimeout_unit {d : Dev} {t : FaultTarget} {ok : Bool} (h : d.gone t = false)
    (hl : ∀ p n, t ≠ .lane p n) : d.handshakeTimeout t ok =
      (let e := d.charge (.unit t) 1
       if ok || e.gone t || e.resetDue then e else e.charge (.unit t) 1) := by
  cases t with
  | lane p n => exact absurd rfl (hl p n)
  | _ => exact if_neg (Bool.eq_false_iff.mp h)

/-- Settles O56: each clause is the lemma above on that way an access or a handshake ends. -/
theorem accessesCompleteFailOrAreHeld : Obligations.AccessesCompleteFailOrAreHeld := by
  intro s i
  refine ⟨fun a v => ?writes, exec_heldAccessRelease_none, fun a h => ?release, fun h hf hi => ?retry,
    fun t ok acc => ?timeout, fun d t ok => ?charge⟩
  case writes =>
    have made {t : State} (h : rowWrite i (a.toNat / 4 * 4) v s = t) : exec (.registerWrite i a v) s = .next t :=
      (exec_registerWrite_eq i a v s).trans (congrArg _ h)
    exact ⟨fun h => made (rowWrite_notReady h), fun h m => made (rowWrite_denied h m),
      fun hi p o hw => ⟨fun h => made (rowWrite_port_retired hw hi h), fun h => made (rowWrite_port hw hi h)⟩,
      fun hi r k o hw => ⟨fun h => made (rowWrite_region_retired hw hi h), fun dom hr hk hs =>
        ⟨fun he => made (rowWrite_asleep_domerr hw hi hr hk hs he),
          fun he => made (rowWrite_asleep_held hw hi hr hk hs he)⟩⟩,
      fun hi hw => made (rowWrite_flashAddr hw hi)⟩
  case release =>
    exact ⟨exec_heldAccessRelease_alone h, exec_heldAccessRelease_arbitrated h, Dev.mem_heldOn_of_heldAt h⟩
  case retry =>
    rw [releaseOne_of_hold hi hf]
    refine ⟨fun c => heldRetry_core, fun hc => ?_⟩
    rw [heldRetry_row hc]
    exact ⟨fun hf => if_pos hf, fun v hf hv => by rw [hf, hv]; rfl, fun hf hv => by rw [hf, hv]; rfl⟩
  case timeout =>
    refine ⟨exec_handshakeTimeout_stands, fun hd => ?_⟩
    intro x
    have bare : exec (.handshakeTimeout ⟨t, none⟩ ok) s = done x := exec_handshakeTimeout_bare hd
    have served (a : Access) {y : State} (h : accessEnd t ok a x = y) :
        exec (.handshakeTimeout ⟨t, some a⟩ ok) s = done y :=
      (exec_handshakeTimeout_access hd).trans (congrArg done h)
    clear_value x
    refine ⟨fun e => e ▸ bare, ?_⟩
    rintro a rfl
    exact ⟨fun h => served a (accessEnd_notReady h), fun h hf => served a (accessEnd_fails h hf),
      fun h hf => ⟨fun v hv => served a (accessEnd_write h hf hv), fun hv => served a (accessEnd_read h hf hv)⟩⟩
  case charge =>
    refine ⟨Dev.handshakeTimeout_gone, fun h hl => ?_⟩
    rw [Dev.handshakeTimeout_unit h hl]
    exact ⟨fun c => if_pos (by simpa [or_assoc] using c), fun ho hg hr => if_neg (by simp [ho, hg, hr])⟩

end Sys2Proof.Machine
end

section
/-! Bits and symbols of the air interface (R44, R53): numbers from bits, the Gray map, and the sync value. -/

namespace Sys2Proof.Machine

/-! ### Numbers and their bits -/

@[simp] theorem bitsOf_length (n v : Nat) : (bitsOf n v).length = n := by simp [bitsOf]

theorem testBit_bitsNat (l : List Bool) (i : Nat) : (bitsNat l).testBit i = l.getD i false := by
  induction l generalizing i with
  | nil => simp [bitsNat]
  | cons b l ih =>
    have hb : bitsNat (b :: l) = Nat.bit b (bitsNat l) := by cases b <;> simp [bitsNat, b2n, Nat.bit, Nat.add_comm]
    rw [hb]
    cases i with
    | zero => simp
    | succ i => rw [Nat.testBit_bit_succ, ih, List.getD_cons_succ]

theorem bitsNat_lt {l : List Bool} {n : Nat} (hl : l.length = n) : bitsNat l < 2 ^ n :=
  Nat.lt_pow_two_of_testBit _ fun i h => by
    rw [testBit_bitsNat, List.getD_eq_default _ _ (hl.trans_le h)]

theorem bitsNat_bitsOf (n v : Nat) : bitsNat (bitsOf n v) = v % 2 ^ n := by
  refine Nat.eq_of_testBit_eq fun i => ?_
  rw [testBit_bitsNat, Nat.testBit_mod_two_pow]
  by_cases h : i < n <;> simp [bitsOf, h]

theorem bitsOf_bitsNat {l : List Bool} {n : Nat} (hl : l.length = n) : bitsOf n (bitsNat l) = l := by
  subst hl
  refine List.ext_getElem (bitsOf_length _ _) fun i h g => ?_
  simp [bitsOf, testBit_bitsNat, g]

/-! ### The Gray map (R53) -/

theorem ungray_lt (m w : Nat) (h : w < 2 ^ m) : ungray m w < 2 ^ m := by
  induction m generalizing w with
  | zero => simp [ungray]
  | succ m ih =>
    have hs : w >>> 1 < 2 ^ m := by rw [Nat.shiftRight_one]; omega
    exact Nat.xor_lt_two_pow h ((ih _ hs).trans (by omega))

theorem gray_ungray (m w : Nat) (h : w < 2 ^ m) : gray (ungray m w) = w := by
  induction m generalizing w with
  | zero => simp [ungray, gray]; omega
  | succ m ih =>
    have hs : gray (ungray m (w >>> 1)) = w >>> 1 := ih _ (by rw [Nat.shiftRight_one]; omega)
    calc gray (w ^^^ ungray m (w >>> 1))
        = w ^^^ w >>> 1 ^^^ gray (ungray m (w >>> 1)) := by
          simp only [gray, Nat.shiftRight_xor_distrib]
          ac_rfl
      _ = w := by rw [hs, Nat.xor_assoc, Nat.xor_self, Nat.xor_zero]

theorem ungray_gray_nibble : ∀ v < 16, ungray 4 (gray v) = v := by decide

/-- A symbol of either form gives back the word that it carries. -/
theorem wordOf_symbolOf (robust : Bool) (m w : Nat) (h : w < 2 ^ m) : wordOf robust m (symbolOf robust m w) = w := by
  have hu := Nat.mod_eq_of_lt (ungray_lt m w h)
  cases robust with
  | false => simp [wordOf, symbolOf, hu, gray_ungray m w h]
  | true =>
    have hd : (4 * ungray m w + 1) / 4 = ungray m w := by omega
    simp [wordOf, symbolOf, hd, hu, gray_ungray m w h]

/-! ### The sync value (R44) -/

theorem gray_lt_sixteen : ∀ v < 16, gray v < 16 := by decide

theorem syncNibble_syncSymbol (k v : Nat) (h : 6 ≤ k) : syncNibble k (syncSymbol k v) = v % 16 := by
  have hv : v % 16 < 16 := Nat.mod_lt _ (by decide)
  have ha : 0 < 2 ^ (k - 6) := Nat.two_pow_pos _
  have hk : 2 ^ k = 2 ^ (k - 6) * 64 := by rw [show (64 : Nat) = 2 ^ 6 from rfl, ← Nat.pow_add, Nat.sub_add_cancel h]
  have h32 : 2 ^ k / 32 = 2 * 2 ^ (k - 6) := by omega
  have h16 : 2 ^ k / 16 = 4 * 2 ^ (k - 6) := by omega
  have hpos : (2 * 2 ^ (k - 6) + gray (v % 16) * (4 * 2 ^ (k - 6))) / (4 * 2 ^ (k - 6)) = gray (v % 16) := by
    rw [Nat.add_mul_div_right _ _ (by omega), Nat.div_eq_of_lt (by omega), Nat.zero_add]
  rw [syncNibble, syncSymbol, h32, h16, hpos, Nat.mod_eq_of_lt (gray_lt_sixteen _ hv), ungray_gray_nibble _ hv]

theorem syncValue_syncSymbols (k : Nat) (v : Byte) (h : 6 ≤ k) :
    syncValue k (syncSymbol k v.toNat) (syncSymbol k (v.toNat / 16)) = v := by
  rw [syncValue, syncNibble_syncSymbol k _ h, syncNibble_syncSymbol k _ h]
  refine BitVec.eq_of_toNat_eq ?_
  have := v.isLt
  rw [BitVec.toNat_ofNat]
  omega

end Sys2Proof.Machine
end

section
/-! The header code (R48 to R51): the header's check holds, and a code word of the tail-biting code has one origin. -/

namespace Sys2Proof.Machine

/-! ### The header bits and their check (R48, R49) -/

theorem hcrcBit_lt {r : Nat} (b : Bool) : hcrcBit r b < 256 := by
  have hs : r * 2 % 256 < 2 ^ 8 := Nat.mod_lt _ (by decide)
  unfold hcrcBit
  dsimp only
  split
  · exact Nat.xor_lt_two_pow hs (by decide)
  · exact hs

theorem hcrc_lt (l : List Bool) : hcrc l < 256 := by
  induction l using List.reverseRecOn with
  | nil => decide
  | append_singleton l b _ => rw [hcrc, List.foldl_append]; exact hcrcBit_lt b

@[simp] theorem Header.data_length (h : Header) : h.data.length = 12 := by simp [Header.data]

@[simp] theorem Header.bits_length (h : Header) : h.bits.length = 20 := by simp [Header.bits]

/-- The bits of a header whose fields fit give the header back. -/
theorem Header.ofBits_bits (h : Header) (hl : h.len < 256) (hr : h.rate < 4) : Header.ofBits h.bits = some h := by
  have hc : bitsNat (h.bits.drop 12) = hcrc (h.bits.take 12) := by
    rw [Header.bits, List.drop_left' h.data_length, List.take_left' h.data_length, bitsNat_bitsOf]
    exact Nat.mod_eq_of_lt (hcrc_lt _)
  have hlen : bitsNat (h.bits.take 8) = h.len := by
    rw [Header.bits, Header.data, List.append_assoc, List.append_assoc, List.take_left' (bitsOf_length _ _), bitsNat_bitsOf]
    exact Nat.mod_eq_of_lt hl
  have hrate : bitsNat ((h.bits.drop 8).take 2) = h.rate := by
    rw [Header.bits, Header.data, List.append_assoc, List.append_assoc, List.drop_left' (bitsOf_length _ _),
      List.take_left' (bitsOf_length _ _), bitsNat_bitsOf]
    exact Nat.mod_eq_of_lt hr
  rw [Header.ofBits, if_pos hc, hlen, hrate]
  rfl

/-! ### The convolutional encoder (R57) -/

@[simp] theorem convEncode_length (hs u : List Bool) : (convEncode hs u).length = u.length := by
  induction u generalizing hs with
  | nil => rfl
  | cons b u ih => simp [convEncode, ih]

theorem flatPairs_length (l : List (Bool × Bool)) : (flatPairs l).length = 2 * l.length := by
  simp [flatPairs, Nat.mul_comm]

theorem flatPairs_injective : Function.Injective flatPairs := by
  intro l
  induction l with
  | nil => rintro (_ | ⟨y, m⟩) h; exacts [rfl, nomatch h]
  | cons x l ih =>
    rintro (_ | ⟨y, m⟩) h
    · nomatch h
    · obtain ⟨h1, h2, ht⟩ : x.1 = y.1 ∧ x.2 = y.2 ∧ flatPairs l = flatPairs m := by simpa [flatPairs] using h
      rw [Prod.ext h1 h2, ih ht]

/-- Both generators take the input bit itself. -/
theorem convPair_eq (u : Bool) (hs : List Bool) :
    convPair u hs = (xor u (convPair false hs).1, xor u (convPair false hs).2) := by simp [convPair]

theorem convInvert_cons (hs : List Bool) (c : Bool × Bool) (l : List (Bool × Bool)) :
    convInvert hs (flatPairs (c :: l)) = (c.1 ^^ (convPair false hs).1) ::
      convInvert (((c.1 ^^ (convPair false hs).1) :: hs).take 6) (flatPairs l) := rfl

/-- With the encoder's history known, the coded bits give its input. -/
theorem convInvert_convEncode (hs u : List Bool) : convInvert hs (flatPairs (convEncode hs u)) = u := by
  induction u generalizing hs with
  | nil => rfl
  | cons b u ih =>
    have hA : (xor (convPair b hs).1 (convPair false hs).1) = b := by
      rw [convPair_eq b]; simp
    rw [convEncode, convInvert_cons, hA, ih]

/-- The encoder's history, read from six pairs of its output: the generators have no common factor, so these twelve
bits determine the six delay cells and the six inputs. -/
def historySeen : List (Bool × Bool) → List Bool
  | (a0, b0) :: (a1, b1) :: (a2, b2) :: (a3, b3) :: (a4, b4) :: (a5, b5) :: _ =>
    [a1 ^^ b1 ^^ a2 ^^ a3 ^^ b4 ^^ a5 ^^ b5, a0 ^^ b0 ^^ a1 ^^ a2 ^^ b3 ^^ a4 ^^ b4, a0 ^^ b0 ^^ a1 ^^ a2 ^^ a4 ^^ a5 ^^ b5,
     a0 ^^ b0 ^^ a1 ^^ a2 ^^ b2 ^^ b3 ^^ b4 ^^ a5 ^^ b5, a0 ^^ b0 ^^ a1 ^^ b1 ^^ a2 ^^ a3 ^^ b4 ^^ a5 ^^ b5,
     a0 ^^ a1 ^^ b2 ^^ a3 ^^ b4 ^^ a5 ^^ b5]
  | _ => []

theorem historySeen_convEncode {hs u : List Bool} (hh : hs.length = 6) (hu : 6 ≤ u.length) :
    historySeen (convEncode hs u) = hs := by
  match hs, hh, u, hu with
  | [x1, x2, x3, x4, x5, x6], _, u0 :: u1 :: u2 :: u3 :: u4 :: u5 :: u, _ =>
    simp only [convEncode, convPair, historySeen, List.getD_cons_zero, List.getD_cons_succ, List.take_succ_cons, List.take_zero,
      Nat.add_one_sub_one, List.cons.injEq, and_true]
    simp [Bool.xor_left_comm, Bool.xor_comm]

/-- A code word of six pairs or more has one history and one input. -/
theorem convEncode_injective {hs hs' u u' : List Bool} (hh : hs.length = 6) (hh' : hs'.length = 6) (hu : 6 ≤ u.length)
    (h : convEncode hs u = convEncode hs' u') : u = u' := by
  have hl : u.length = u'.length := by simpa using congrArg List.length h
  have hhs : hs = hs' := by
    rw [← historySeen_convEncode hh hu, h, historySeen_convEncode hh' (hl ▸ hu)]
  rw [← convInvert_convEncode hs u, h, hhs, convInvert_convEncode]

/-! ### The tail-biting code (R50) -/

theorem headerCode_length (l : List Bool) : (headerCode l).length = 2 * l.length := by
  rw [headerCode, flatPairs_length, convEncode_length]

theorem headerCode_injective {l u : List Bool} (hl : 6 ≤ l.length) (h : headerCode u = headerCode l) : u = l := by
  have hlen : u.length = l.length := by
    have := congrArg List.length h
    rw [headerCode_length, headerCode_length] at this
    omega
  exact convEncode_injective (by simp; omega) (by simp; omega) (hlen ▸ hl) (flatPairs_injective h)

/-- The preloads that the decoder tries include the one that was sent, and no other gives a code word. -/
theorem headerDecode_headerCode {l : List Bool} (hl : 6 ≤ l.length) : headerDecode (headerCode l) = some l := by
  have hp : (l.reverse.take 6).length = 6 := by simp; omega
  have hsent : convInvert (bitsOf 6 (bitsNat (l.reverse.take 6))) (headerCode l) = l := by
    rw [bitsOf_bitsNat hp, headerCode, convInvert_convEncode]
  cases hf : headerDecode (headerCode l) with
  | none =>
    have := List.findSome?_eq_none_iff.mp hf _ (List.mem_range.mpr (bitsNat_lt hp))
    simp [hsent] at this
  | some u =>
    obtain ⟨s, -, h⟩ := List.exists_of_findSome?_eq_some hf
    obtain ⟨hc, hu⟩ := Option.ite_none_right_eq_some.mp h
    rw [← hu, headerCode_injective hl hc]

/-! ### The header symbols (R51) -/

/-- The header symbols of an order hold the 40 coded bits. -/
theorem header_fits {k : Nat} (h6 : 6 ≤ k) (h12 : k ≤ 12) : 0 < headerLen k ∧ 40 ≤ headerLen k * (k - 2) := by
  interval_cases k <;> decide

theorem headerReceived_headerSymbols {k : Nat} (h : Header) (h6 : 6 ≤ k) (h12 : k ≤ 12) :
    headerReceived k (headerSymbols k h) = headerCode h.bits := by
  obtain ⟨hn, hfit⟩ := header_fits h6 h12
  have hlen : (headerCode h.bits).length = 40 := by rw [headerCode_length, h.bits_length]
  refine List.ext_getElem (by simp [headerReceived, hlen]) fun j hj hj' => ?_
  have hi : j / headerLen k < k - 2 := Nat.div_lt_of_lt_mul (by omega)
  have ht : j % headerLen k < headerLen k := Nat.mod_lt _ hn
  have hw (l : List Bool) (e : l.length = k - 2) : wordOf true (k - 2) (symbolOf true (k - 2) (bitsNat l)) = bitsNat l :=
    wordOf_symbolOf _ _ _ (bitsNat_lt e)
  simp [headerReceived, headerSymbols, ht, hw, testBit_bitsNat, hi, Nat.div_add_mod, hj']

/-- The header symbols give the header back. -/
theorem headerOf_headerSymbols {k : Nat} {h : Header} (h6 : 6 ≤ k) (h12 : k ≤ 12) (hl : h.len < 256) (hr : h.rate < 4) :
    headerOf k (headerSymbols k h) = some h := by
  rw [headerOf, headerReceived_headerSymbols h h6 h12, headerDecode_headerCode (by simp), Option.getD_some,
    Header.ofBits_bits h hl hr]

end Sys2Proof.Machine
end

section
/-! The payload's way through the stages of R54 to R60 and back: each stage is undone by its inverse, and together they
give back what was sent. -/

namespace Sys2Proof.Machine

/-! ### Lists in pieces of one length -/

/-- The pieces of a list that was put together from pieces of one length. -/
theorem take_drop_flatMap {α β : Type} (f : α → List β) {n : Nat} (hf : ∀ x, (f x).length = n) (l : List α) (rest : List β)
    {i : Nat} (h : i < l.length) : ((l.flatMap f ++ rest).drop (n * i)).take n = f l[i] := by
  induction l generalizing i with
  | nil => nomatch h
  | cons x l ih =>
    rw [List.flatMap_cons, List.append_assoc]
    cases i with
    | zero => exact List.take_left' (hf x)
    | succ i =>
      rw [Nat.mul_succ, Nat.add_comm, ← List.drop_drop, List.drop_left' (hf x)]
      exact ih (Nat.lt_of_succ_lt_succ h)

/-- A range in pieces of one length. -/
theorem flatMap_range_mul {β : Type} (g : Nat → β) (n b : Nat) :
    ((List.range b).flatMap fun i => (List.range n).map fun j => g (n * i + j)) = (List.range (n * b)).map g := by
  induction b with
  | zero => simp
  | succ b ih => simp [List.range_succ, List.flatMap_append, ih, Nat.mul_succ, List.range_add]

theorem map_range_getD {α : Type} (l : List α) (x : α) : ((List.range l.length).map fun i => l.getD i x) = l :=
  List.ext_getElem (by simp) fun i _ h => by simp [h]

/-! ### The CRC and its bytes (R54) -/

@[simp] theorem natBytes_length (n v : Nat) : (natBytes n v).length = n := by
  induction n generalizing v with
  | zero => rfl
  | succ n ih => simp [natBytes, ih]

theorem bytesNat_natBytes (n v : Nat) : bytesNat (natBytes n v) = v % 256 ^ n := by
  induction n generalizing v with
  | zero => simp [natBytes, bytesNat, Nat.mod_one]
  | succ n ih =>
    simp only [natBytes, bytesNat, ih, BitVec.toNat_ofNat, Nat.pow_succ, Nat.mul_comm _ 256, Nat.mod_mul]
    omega

theorem crc16Byte_lt (c : Nat) (b : Byte) : crc16Byte c b < 65536 := by
  unfold crc16Byte
  rw [List.range_succ, List.foldl_append]
  dsimp only [List.foldl_cons, List.foldl_nil]
  split <;> exact Nat.mod_lt _ (by decide)

theorem crc16_lt (l : List Byte) : crc16 l < 65536 := by
  induction l using List.reverseRecOn with
  | nil => decide
  | append_singleton l b _ => rw [crc16, List.foldl_concat]; exact crc16Byte_lt _ b

/-- A payload of the header's length with its own CRC behind it passes the check. -/
theorem crcHolds_crc16 {h : Header} {bytes : List Byte} (hc : h.crcp = true) (hl : bytes.length = h.len) :
    crcHolds h (bytes ++ natBytes 2 (crc16 bytes)) = true := by
  rw [crcHolds, List.drop_left' hl, List.take_left' hl, hc, bytesNat_natBytes,
    show crc16 bytes % 256 ^ 2 = _ from Nat.mod_eq_of_lt (crc16_lt bytes)]
  simp

/-! ### Whitening (R55) -/

@[simp] theorem whiteBytes_length (n : Nat) : (whiteBytes n).length = n := by simp [whiteBytes]

@[simp] theorem whiten_length (l : List Byte) : (whiten l).length = l.length := by simp [whiten]

theorem whiten_whiten (l : List Byte) : whiten (whiten l) = l :=
  List.ext_getElem (by simp) fun i _ _ => by simp [whiten]

/-! ### Coding and puncturing (R57, R58) -/

/-- Every position of a puncturing pattern keeps a bit. -/
theorem puncture_keeps (rate i : Nat) :
    ((puncture rate).getD i (true, true)).1 = true ∨ ((puncture rate).getD i (true, true)).2 = true := by
  have hall : ∀ q ∈ puncture rate, q.1 = true ∨ q.2 = true := by
    unfold puncture
    split <;> decide
  by_cases hi : i < (puncture rate).length
  · rw [List.getD_eq_getElem _ _ hi]; exact hall _ (List.getElem_mem hi)
  · rw [List.getD_eq_default _ _ (by omega)]; exact .inl rfl

/-- With the history known, the kept bits of punctured coded bits give the encoder's input. -/
theorem depuncture_punctureAll (rate n : Nat) (hs u : List Bool) :
    depuncture rate u.length n hs (punctureAll rate n (convEncode hs u)) = u := by
  induction u generalizing n hs with
  | nil => rfl
  | cons b u ih =>
    have hk := puncture_keeps rate (n % (puncture rate).length)
    have ih := ih (n + 1) ((b :: hs).take 6)
    simp only [List.length_cons, depuncture, convEncode, punctureAll, kept]
    rw [convPair_eq b]
    generalize (puncture rate).getD (n % (puncture rate).length) (true, true) = q at hk
    obtain ⟨_ | _, _ | _⟩ := q
    · simp at hk
    all_goals simpa [b2n] using ih

/-- How many bits puncturing keeps depends on the number of pairs alone. -/
theorem punctureAll_length_congr (rate n : Nat) {l m : List (Bool × Bool)} (h : l.length = m.length) :
    (punctureAll rate n l).length = (punctureAll rate n m).length := by
  induction l generalizing n m with
  | nil => rw [List.length_eq_zero_iff.mp h.symm]
  | cons x l ih =>
    obtain ⟨y, m, rfl⟩ := List.exists_cons_of_length_eq_add_one h.symm
    have hx : (kept rate n x).length = (kept rate n y).length := by simp only [kept]; split <;> split <;> rfl
    simp [punctureAll, hx, ih (n + 1) (Nat.succ.inj h)]

theorem punctureAll_length (rate : Nat) (l : List (Bool × Bool)) : (punctureAll rate 0 l).length = keptCount rate l.length :=
  punctureAll_length_congr rate 0 (by simp)

/-! ### Interleaving (R60) -/

@[simp] theorem blockWords_length (m : Nat) (c : List Bool) : (blockWords m c).length = 8 := by simp [blockWords]

theorem lt_of_mem_blockWords {m w : Nat} {c : List Bool} (h : w ∈ blockWords m c) : w < 2 ^ m := by
  obtain ⟨t, -, rfl⟩ := List.mem_map.mp h
  exact bitsNat_lt (by simp)

/-- The rotation of a row by its symbol's number is undone. -/
theorem unrotate {m q t : Nat} (hq : q < m) (ht : t < 8) : ((q + t) % m + 8 * m - t) % m = q := by
  have h : (q + t) % m + 8 * m - t + t ≡ q + t [MOD m] := by
    rw [Nat.sub_add_cancel (by omega)]
    simp [Nat.ModEq]
  exact Nat.mod_eq_of_modEq (Nat.ModEq.add_right_cancel' t h) hq

theorem blockBits_blockWords (m : Nat) (c : List Bool) :
    blockBits m (blockWords m c) = (List.range (8 * m)).map fun j => some (c.getD j false) := by
  refine List.map_congr_left fun j hj => ?_
  have hq : j / 8 < m := Nat.div_lt_of_lt_mul (List.mem_range.mp hj)
  have ht : j % 8 < 8 := Nat.mod_lt _ (by decide)
  have hr : (j / 8 + j % 8) % m < m := Nat.mod_lt _ (by omega)
  simp [blockWords, ht, testBit_bitsNat, hr, unrotate hq ht, Nat.div_add_mod]

/-! ### The payload symbols and back -/

/-- The encoder's input is as long as R56 says. -/
theorem payloadBits_length {h : Header} {bytes : List Byte} (hl : bytes.length = h.len) :
    (payloadBits h bytes).length = inBits h.len h.crcp := by
  cases hc : h.crcp <;> simp [payloadBits, hc, inBits, hl, b2n] <;> omega

/-- The blocks of a payload hold all its coded bits (R59). -/
theorem payload_fits (k : Nat) (h : Header) (hm : 0 < symBits k h.robust) :
    keptCount h.rate (inBits h.len h.crcp) ≤ 8 * symBits k h.robust * payloadBlocks k h := by
  have hd := Nat.div_add_mod (keptCount h.rate (inBits h.len h.crcp) + 8 * symBits k h.robust - 1) (8 * symBits k h.robust)
  have hr := Nat.mod_lt (keptCount h.rate (inBits h.len h.crcp) + 8 * symBits k h.robust - 1)
    (show 0 < 8 * symBits k h.robust by omega)
  rw [payloadBlocks]
  omega

/-- The coded bits of a payload, punctured (R57, R58). -/
def payloadCode (h : Header) (bytes : List Byte) : List Bool :=
  punctureAll h.rate 0 (convEncode [] (payloadBits h bytes))

theorem payloadCode_length {h : Header} {bytes : List Byte} (hl : bytes.length = h.len) :
    (payloadCode h bytes).length = keptCount h.rate (inBits h.len h.crcp) := by
  rw [payloadCode, punctureAll_length, convEncode_length, payloadBits_length hl]

/-- The symbols of block b. -/
def payloadBlock (k : Nat) (h : Header) (bytes : List Byte) (b : Nat) : List Nat :=
  (blockWords (symBits k h.robust) ((payloadCode h bytes).drop (8 * symBits k h.robust * b))).map
    (symbolOf h.robust (symBits k h.robust))

theorem payloadSymbols_eq (k : Nat) (h : Header) (bytes : List Byte) :
    payloadSymbols k h bytes = (List.range (payloadBlocks k h)).flatMap (payloadBlock k h bytes) := rfl

/-- A block's symbols give back the coded bits that it took, and its padding. -/
theorem blockBits_payloadBlock (k : Nat) (h : Header) (bytes : List Byte) (b : Nat) :
    blockBits (symBits k h.robust) ((payloadBlock k h bytes b).map (wordOf h.robust (symBits k h.robust))) =
      (List.range (8 * symBits k h.robust)).map fun j =>
        some ((payloadCode h bytes).getD (8 * symBits k h.robust * b + j) false) := by
  have hw : (payloadBlock k h bytes b).map (wordOf h.robust (symBits k h.robust)) =
      blockWords (symBits k h.robust) ((payloadCode h bytes).drop (8 * symBits k h.robust * b)) := by
    rw [payloadBlock, List.map_map]
    exact (List.map_congr_left fun w hw => wordOf_symbolOf _ _ w (lt_of_mem_blockWords hw)).trans (List.map_id' _)
  rw [hw, blockBits_blockWords]
  simp [List.getD_eq_getElem?_getD]

/-- The received symbols give the punctured bits, none of them erased. -/
theorem payloadReceived_payloadSymbols {k : Nat} {h : Header} {bytes : List Byte} (hm : 0 < symBits k h.robust)
    (hl : bytes.length = h.len) :
    payloadReceived k h (payloadSymbols k h bytes) = (payloadCode h bytes).map some := by
  have hblock : ∀ b ∈ List.range (payloadBlocks k h),
      ((payloadSymbols k h bytes).drop (8 * b)).take 8 = payloadBlock k h bytes b := by
    intro b hb
    have := take_drop_flatMap (payloadBlock k h bytes) (n := 8) (by simp [payloadBlock]) (List.range (payloadBlocks k h)) []
      (i := b) (by simpa using hb)
    simpa [payloadSymbols_eq] using this
  have hfit := payload_fits k h hm
  rw [← payloadCode_length hl] at hfit
  simp only [payloadReceived]
  rw [List.flatMap_congr (fun b hb => by rw [hblock b hb, blockBits_payloadBlock]), 
    flatMap_range_mul fun i => some ((payloadCode h bytes).getD i false), ← payloadCode_length hl, ← List.map_take,
    List.take_range, Nat.min_eq_left hfit]
  exact List.map_map.symm.trans (congrArg (List.map some) (map_range_getD _ false))

/-- The punctured bits decode to the encoder's input. -/
theorem payloadDecode_payloadCode {h : Header} {bytes : List Byte} (hl : bytes.length = h.len) :
    payloadDecode h.rate (inBits h.len h.crcp) (payloadCode h bytes) = some (payloadBits h bytes) := by
  have hu : depuncture h.rate (inBits h.len h.crcp) 0 [] (payloadCode h bytes) = payloadBits h bytes := by
    rw [← payloadBits_length hl]
    exact depuncture_punctureAll h.rate 0 [] (payloadBits h bytes)
  have hflush : (payloadBits h bytes).drop (inBits h.len h.crcp - 6) = List.replicate 6 false := by
    rw [← payloadBits_length hl, payloadBits]
    exact List.drop_left' (by simp)
  simp only [payloadDecode, hu, hflush]
  exact if_pos ⟨rfl, trivial⟩

/-- The bytes that are whitened: the payload and its CRC, if there is one (R54). -/
def sentBytes (h : Header) (bytes : List Byte) : List Byte :=
  bytes ++ if h.crcp then natBytes 2 (crc16 bytes) else []

theorem sentBytes_length {h : Header} {bytes : List Byte} (hl : bytes.length = h.len) :
    (sentBytes h bytes).length = h.len + 2 * b2n h.crcp := by
  cases hc : h.crcp <;> simp [sentBytes, hc, hl, b2n]

theorem payloadBits_eq (h : Header) (bytes : List Byte) : payloadBits h bytes =
    (whiten (sentBytes h bytes)).flatMap (fun x => bitsOf 8 x.toNat) ++ List.replicate 6 false := by
  cases hc : h.crcp <;> simp [payloadBits, sentBytes, hc]

theorem byte_bitsNat_bitsOf (x : Byte) : BitVec.ofNat 8 (bitsNat (bitsOf 8 x.toNat)) = x := by
  rw [bitsNat_bitsOf, Nat.mod_eq_of_lt x.isLt, BitVec.ofNat_toNat, BitVec.setWidth_eq]

/-- The bits give the whitened bytes back, eight bits each. -/
theorem bytes_of_payloadBits {h : Header} {bytes : List Byte} (hl : bytes.length = h.len) :
    ((List.range (h.len + 2 * b2n h.crcp)).map fun j =>
      BitVec.ofNat 8 (bitsNat (((payloadBits h bytes).drop (8 * j)).take 8))) = whiten (sentBytes h bytes) := by
  have hlen : (whiten (sentBytes h bytes)).length = h.len + 2 * b2n h.crcp := by rw [whiten_length, sentBytes_length hl]
  refine List.ext_getElem (by simp [hlen]) fun j _ hj => ?_
  have hbits := take_drop_flatMap (fun x : Byte => bitsOf 8 x.toNat) (fun x => bitsOf_length 8 x.toNat)
    (whiten (sentBytes h bytes)) (List.replicate 6 false) hj
  rw [← payloadBits_eq] at hbits
  rw [List.getElem_map, List.getElem_range, hbits, byte_bitsNat_bitsOf]

/-- The payload symbols give back the bytes that were sent. -/
theorem payloadOf_payloadSymbols {k : Nat} {h : Header} {bytes : List Byte} (hm : 0 < symBits k h.robust)
    (hl : bytes.length = h.len) : payloadOf k h (payloadSymbols k h bytes) = sentBytes h bytes := by
  have hall : ((payloadCode h bytes).map some).all Option.isSome = true := by simp
  have hbits : ((payloadCode h bytes).map some).filterMap id = payloadCode h bytes := by simp
  simp only [payloadOf, payloadReceived_payloadSymbols hm hl, hall, hbits, payloadDecode_payloadCode hl, if_true,
    bytes_of_payloadBits hl, whiten_whiten]

/-- Settles O60: the sync value, the header and the payload each come back through their own stages. -/
theorem framesDemodulateToWhatWasSent : Obligations.FramesDemodulateToWhatWasSent := by
  intro k h bytes v h6 h12 hlen hrate hl
  have hm : 0 < symBits k h.robust := by unfold symBits; split <;> omega
  have hp : payloadOf k h (payloadSymbols k h bytes) = sentBytes h bytes := payloadOf_payloadSymbols hm hl
  refine ⟨headerOf_headerSymbols h6 h12 hlen hrate, hp, fun hc => ?_, fun s0 s1 hs => ?_⟩
  · rw [hp, sentBytes, if_pos hc]
    exact crcHolds_crc16 hc hl
  · obtain ⟨rfl, rfl⟩ : syncSymbol k v.toNat = s0 ∧ syncSymbol k (v.toNat / 16) = s1 := by simpa [syncSymbols] using hs
    exact syncValue_syncSymbols k v h6

end Sys2Proof.Machine
end

section
/-! Lane outcomes (R45, R86, R89, R91): what freeing the lane, counting its frame and the second-look bookkeeping leave. -/

namespace Sys2Proof.Machine

/-! ### A change of one receive side -/

/-- A part of the receive side that a change leaves is left on every port. -/
theorem Dev.modRx_keeps {α : Type} (g : Rx → α) {f : Rx → Rx} (hf : ∀ x, g (f x) = g x) (d : Dev) (p o : PortId) :
    g ((d.modRx p f).ports[o]).rx = g (d.ports[o]).rx := by
  rw [Dev.modRx_eq]
  by_cases h : o = p
  · subst h; rw [Dev.modPort_ports_self]; exact hf _
  · rw [Dev.modPort_ports_ne _ _ _ _ h]

theorem Dev.countRx_self (d : Dev) (p : PortId) (c : RxCnt) :
    ((d.countRx p c).ports[p]).rx.cnt[c.ix] = (d.ports[p]).rx.cnt[c.ix] + 1 := by
  rw [Dev.countRx, Dev.modRx_eq, Dev.modPort_ports_self]
  exact vset_self _ _ _

theorem Dev.countRx_ne (d : Dev) (p o : PortId) {c : RxCnt} {n : Fin 20} (h : n ≠ c.ix) :
    ((d.countRx p c).ports[o]).rx.cnt[n] = (d.ports[o]).rx.cnt[n] :=
  Dev.modRx_keeps (fun x => x.cnt[n]) (fun _ => vset_ne _ _ _ _ h) d p o

theorem Dev.countRx_lanes (d : Dev) (p o : PortId) (c : RxCnt) :
    ((d.countRx p c).ports[o]).rx.lanes = (d.ports[o]).rx.lanes :=
  Dev.modRx_keeps Rx.lanes (fun _ => by rfl) d p o

theorem Dev.countRx_reqs (d : Dev) (p o : PortId) (c : RxCnt) :
    ((d.countRx p c).ports[o]).rx.reqs = (d.ports[o]).rx.reqs :=
  Dev.modRx_keeps Rx.reqs (fun _ => by rfl) d p o

theorem Dev.countRx_rxctl (d : Dev) (p o : PortId) (c : RxCnt) :
    ((d.countRx p c).ports[o]).rx.rxctl = (d.ports[o]).rx.rxctl :=
  Dev.modRx_keeps Rx.rxctl (fun _ => by rfl) d p o

/-! ### Second-look bookkeeping (R99 to R101) -/

/-- The counters that a second-look request can count in (R99, R101). -/
def lookCounters : List RxCnt := [.slnobuf, .slexpired]

/-- What second-look bookkeeping alone can change: the second-look part of each region, and its two counters. -/
structure LookOnly (d e : Dev) : Prop where
  rxOnly : RxOnly d e
  rx : ∀ o : PortId, (e.ports[o]).rx = { (d.ports[o]).rx with cnt := (e.ports[o]).rx.cnt }
  cnt : ∀ (o : PortId) (n : Fin 20), (∀ c ∈ lookCounters, n ≠ c.ix) → (e.ports[o]).rx.cnt[n] = (d.ports[o]).rx.cnt[n]

theorem LookOnly.refl (d : Dev) : LookOnly d d := ⟨RxOnly.refl d, fun _ => rfl, fun _ _ _ => rfl⟩

theorem LookOnly.trans {a b c : Dev} (h : LookOnly a b) (g : LookOnly b c) : LookOnly a c :=
  ⟨h.rxOnly.trans g.rxOnly, fun o => by rw [g.rx o, h.rx o], fun o n hn => (g.cnt o n hn).trans (h.cnt o n hn)⟩

theorem LookOnly.modSecond (d : Dev) (r : RegionId) (f : Second → Second) : LookOnly d (d.modSecond r f) :=
  ⟨RxOnly.modSecond d r f, fun _ => rfl, fun _ _ _ => rfl⟩

theorem LookOnly.countRx (d : Dev) (p : PortId) {c : RxCnt} (h : c ∈ lookCounters) : LookOnly d (d.countRx p c) where
  rxOnly := RxOnly.countRx d p c
  rx o := by
    rw [Dev.countRx, Dev.modRx_eq]
    by_cases e : o = p
    · subst e; rw [Dev.modPort_ports_self]
    · rw [Dev.modPort_ports_ne _ _ _ _ e]
  cnt o n hn := Dev.countRx_ne d p o (hn c h)

theorem LookOnly.ite {d a b : Dev} {c : Prop} [Decidable c] (ha : LookOnly d a) (hb : LookOnly d b) :
    LookOnly d (if c then a else b) := by
  split
  · exact ha
  · exact hb

theorem LookOnly.requestLook (d : Dev) (q : SlReq) (noSlice : Bool) : LookOnly d (d.requestLook q noSlice) := by
  unfold Dev.requestLook
  dsimp only
  split
  · split
    · exact LookOnly.countRx d _ (by simp [lookCounters])
    · exact LookOnly.refl d
  · split
    · exact LookOnly.countRx d _ (by simp [lookCounters])
    · exact LookOnly.modSecond d _ _

theorem LookOnly.foldl {α : Type} (f : Dev → α → Dev) (h : ∀ d a, LookOnly d (f d a)) (l : List α) (d : Dev) :
    LookOnly d (l.foldl f d) := by
  induction l generalizing d with
  | nil => exact LookOnly.refl d
  | cons a l ih => exact (h d a).trans (ih _)

theorem LookOnly.slEnded (d : Dev) (f : SlFrame) : LookOnly d (d.slEnded f) := by
  unfold Dev.slEnded
  dsimp only
  split
  · exact LookOnly.refl d
  · have mates (l : List SlFrame) (q : Dev → SlFrame → SlReq) (b : SlFrame → Bool) :
        LookOnly d (l.foldl (fun e g => e.requestLook (q e g) (b g)) d) :=
      LookOnly.foldl _ (fun _ _ => LookOnly.requestLook _ _ _) l d
    refine LookOnly.trans ?_ (LookOnly.modSecond _ _ _)
    cases f.peak with
    | none => exact mates _ _ _
    | some t => exact LookOnly.ite ((mates _ _ _).trans (LookOnly.requestLook _ _ _)) (mates _ _ _)

theorem LookOnly.gcSlices (d : Dev) (r : RegionId) : LookOnly d (d.gcSlices r) := by
  unfold Dev.gcSlices
  exact LookOnly.modSecond d r _

/-! ### Serving the requests that wait -/

theorem Dev.pendingReqs_congr {d e : Dev} (h : ∀ o : PortId, (e.ports[o]).rx.reqs = (d.ports[o]).rx.reqs) (r : RegionId) :
    e.pendingReqs r = d.pendingReqs r := by
  simp only [Dev.pendingReqs, h]

theorem Dev.untilDatum_pendingReqs (d : Dev) (x : Int) (r : RegionId) : (d.untilDatum x).pendingReqs r = d.pendingReqs r :=
  Dev.pendingReqs_congr (fun _ => rfl) r

/-- With no request waiting, a free lane stays free. -/
theorem Dev.serveLanes_none {d : Dev} {r : RegionId} (h : d.pendingReqs r = []) : d.serveLanes r = d := by
  rw [Dev.serveLanes, h]
  rfl

/-- The end of a frame where no request waits: second-look bookkeeping alone. -/
theorem LookOnly.frameEnd {d : Dev} {r : RegionId} (h : d.pendingReqs r = []) (f : SlFrame) :
    LookOnly d (((d.slEnded f).serveLanes r).gcSlices r) := by
  have hs : LookOnly d (d.slEnded f) := LookOnly.slEnded d f
  have hp : (d.slEnded f).pendingReqs r = [] := (Dev.pendingReqs_congr (fun o => by rw [hs.rx o]) r).trans h
  rw [Dev.serveLanes_none hp]
  exact hs.trans (LookOnly.gcSlices _ r)

/-! ### The lane (R86) -/

section
variable (d : Dev) (p : PortId) (i : LaneId) (j : LaneJob)

theorem Dev.laneDone_keeps {α : Type} (g : Rx → α) (hl : ∀ x l, g { x with lanes := l } = g x)
    (ha : ∀ x a, g { x with activity := a } = g x) (o : PortId) : g ((d.laneDone p i j).ports[o]).rx = g (d.ports[o]).rx :=
  (Dev.modRx_keeps g (fun x => ha x _) (d.freeLane p i) j.rxPort o).trans (Dev.modRx_keeps g (fun x => hl x _) d p o)

theorem Dev.laneDone_lane : (((d.laneDone p i j).ports[p]).rx.lanes[i]).work = .idle := by
  have h : (((d.freeLane p i).ports[p]).rx.lanes[i]).work = .idle := by
    rw [Dev.freeLane, Dev.modLane, Dev.modRx_eq, Dev.modPort_ports_self]
    exact congrArg Lane.work (vset_self _ _ _)
  have ha : (((d.laneDone p i j).ports[p]).rx.lanes) = (((d.freeLane p i).ports[p]).rx.lanes) :=
    Dev.modRx_keeps Rx.lanes (fun _ => by rfl) (d.freeLane p i) j.rxPort p
  rw [ha, h]

end

section
variable {d : Dev} {p : PortId} {i : LaneId} {j : LaneJob}

theorem Dev.laneDone_pendingReqs (h : d.pendingReqs (regionOfPort j.rxPort) = []) :
    (d.laneDone p i j).pendingReqs (regionOfPort j.rxPort) = [] :=
  (Dev.pendingReqs_congr (Dev.laneDone_keeps d p i j Rx.reqs (fun _ _ => rfl) fun _ _ => rfl) _).trans h

theorem Dev.laneDone_countRx_pendingReqs (c : RxCnt) (h : d.pendingReqs (regionOfPort j.rxPort) = []) :
    ((d.laneDone p i j).countRx j.rxPort c).pendingReqs (regionOfPort j.rxPort) = [] :=
  (Dev.pendingReqs_congr (fun o => Dev.countRx_reqs _ _ o c) _).trans (Dev.laneDone_pendingReqs h)

/-- A frame that is counted: its lane is free, the link engine gets nothing. -/
theorem Dev.laneCounted {e : Dev} {c : RxCnt} (hc : ∀ b ∈ lookCounters, c.ix ≠ b.ix)
    (h : LookOnly ((d.laneDone p i j).countRx j.rxPort c) e) :
    ((e.ports[p]).rx.lanes[i]).work = .idle ∧
    (e.regions[regionOfPort j.rxPort]).link.work = (d.regions[regionOfPort j.rxPort]).link.work ∧
    (e.ports[j.rxPort]).rx.cnt[c.ix] = (d.ports[j.rxPort]).rx.cnt[c.ix] + 1 := by
  refine ⟨?_, ?_, ?_⟩
  · rw [h.rx p, Dev.countRx_lanes]
    exact Dev.laneDone_lane d p i j
  · rw [h.rxOnly.region]
    rfl
  · rw [h.cnt _ _ hc, Dev.countRx_self,
      Dev.laneDone_keeps d p i j (fun x => x.cnt[c.ix]) (fun _ _ => rfl) fun _ _ => rfl]

/-- While the link engine is on it takes a frame that is passed on. -/
theorem Dev.passFrame_link {f : AirFrame} (hf : f.port = j.rxPort)
    (hen : (d.regions[regionOfPort j.rxPort]).link.cfg.getLsbD 0 = true) :
    d.passFrame f = d.modLink (regionOfPort j.rxPort) fun l => { l with work := l.work ++ [{ frame := f }] } := by
  simp only [Dev.passFrame, hf]
  exact if_pos hen

/-- A frame that is passed on: its lane is free, and the link engine has it to do. -/
theorem Dev.lanePassed {e : Dev} {f : AirFrame}
    (h : LookOnly ((d.laneDone p i j).modLink (regionOfPort j.rxPort) fun l =>
      { l with work := l.work ++ [{ frame := f }] }) e) :
    ((e.ports[p]).rx.lanes[i]).work = .idle ∧
    (e.regions[regionOfPort j.rxPort]).link.work =
      (d.regions[regionOfPort j.rxPort]).link.work ++ [{ frame := f }] := by
  refine ⟨?_, ?_⟩
  · rw [h.rx p]
    exact Dev.laneDone_lane d p i j
  · rw [h.rxOnly.region, Dev.modLink_eq, Dev.modRegion_regions_self]
    rfl

end

/-! ### The outcomes (R45, R86) -/

theorem exec_laneOutcome_eq (p : PortId) (i : LaneId) (rep : LaneReport) (s : State) :
    exec (.laneOutcome p i rep) s = .next (onDev (fun d => d.laneOutcome p i rep) s) := rfl

/-- What a lane outcome leaves in the ports, the regions and the SRAM. -/
theorem answers_laneOutcome {p : PortId} {i : LaneId} {rep : LaneReport} {s : State} {e : Dev} {post : State → Prop}
    (he : s.d.laneOutcome p i rep = e)
    (h : ∀ t : State, t.ram = s.ram → t.d.ports = e.ports → t.d.regions = e.regions → post t) :
    answers (exec (.laneOutcome p i rep) s) post :=
  ⟨_, exec_laneOutcome_eq p i rep s, h _ rfl (by rw [onDev_d, Dev.settle_ports, he]) (by rw [onDev_d, Dev.settle_regions, he])⟩

section
variable {d : Dev} {p : PortId} {i : LaneId} {j : LaneJob} (hj : ((d.ports[p]).rx.lanes[i]).job = some j)
  (hp : d.pendingReqs (regionOfPort j.rxPort) = [])
include hj hp

/-- A lane that fell behind counts its frame in LANELATE. -/
theorem Dev.laneOutcome_behind :
    LookOnly ((d.laneDone p i j).countRx j.rxPort .lanelate) (d.laneOutcome p i .behind) := by
  rw [Dev.laneOutcome, hj]
  exact LookOnly.frameEnd (Dev.laneDone_countRx_pendingReqs _ hp) _

variable {p0 p1 : Nat} {hd pl : List Nat} {pw : List (Nat × Nat)} {foff : Int} {second : Option Nat}

/-- A header that is not found is counted in HDRBAD, once its last symbol has passed. -/
theorem Dev.laneOutcome_noHeader (h : fsyncHolds j.req.mode.k p0 p1 = false ∨ headerOf j.req.mode.k hd = none) :
    ∃ x : Int, LookOnly (((d.untilDatum x).laneDone p i j).countRx j.rxPort .hdrbad)
      (d.laneOutcome p i (.symbols p0 p1 hd pl pw foff second)) := by
  have hn : (if fsyncHolds j.req.mode.k p0 p1 then headerOf j.req.mode.k hd else none) = none := by
    rcases h with h | h <;> simp [h]
  simp only [Dev.laneOutcome, hj, hn]
  refine ⟨_, LookOnly.frameEnd ?_ _⟩
  exact Dev.laneDone_countRx_pendingReqs _ ((Dev.untilDatum_pendingReqs d _ _).trans hp)

/-- The frame that a lane passes on (R86, R89, R91). -/
def Dev.laneFrame (d : Dev) (p : PortId) (i : LaneId) (j : LaneJob) (h : Header) (pl : List Nat) (pw : List (Nat × Nat))
    (foff : Int) : AirFrame :=
  mkFrame j.rxPort (globalLane p i) false j.req.mode h (crcHolds h (payloadOf j.req.mode.k h pl)) j.req.sync
    j.req.info.npre j.req.info.syncT
    (nodeTicks (channelCentre (d.ports[j.rxPort]).syn.freq j.req.mode.chan j.req.mode.bw) foff
      (symbolsAfterSync j.req.mode.k h * symTicks j.req.mode.k j.req.mode.bw))
    (rssiOf j.rxPort j.req.info.heard).rssi (snrTenths j.req.mode.k pw) foff j.req.rxgain
    (weights j.rxPort (rssiOf j.rxPort j.req.info.heard) j.contrib) ((payloadOf j.req.mode.k h pl).take h.len)

variable {h : Header} (hs : fsyncHolds j.req.mode.k p0 p1 = true) (hh : headerOf j.req.mode.k hd = some h)
include hs hh

/-- A payload whose CRC fails is counted in CRCBAD and, without BADDELIV, goes no further. -/
theorem Dev.laneOutcome_crcBad (hc : h.crcp = true) (hb : crcHolds h (payloadOf j.req.mode.k h pl) = false)
    (hd3 : (d.ports[j.rxPort]).rx.rxctl.getLsbD 3 = false) :
    ∃ x : Int, LookOnly (((d.untilDatum x).laneDone p i j).countRx j.rxPort .crcbad)
      (d.laneOutcome p i (.symbols p0 p1 hd pl pw foff second)) := by
  have hdel (x : Int) (f : SlFrame) :
      bit (((((d.untilDatum x).laneDone p i j).countRx j.rxPort .crcbad).slEnded f).ports[j.rxPort]).rx.rxctl 3 = false := by
    rw [(LookOnly.slEnded _ f).rx, Dev.countRx_rxctl, Dev.laneDone_keeps _ p i j Rx.rxctl (fun _ _ => rfl) fun _ _ => rfl]
    exact hd3
  simp only [Dev.laneOutcome, hj, hs, hh, hc, hb, if_true, Bool.not_false, and_self, hdel, Bool.false_eq_true, if_false]
  refine ⟨_, LookOnly.frameEnd ?_ _⟩
  exact Dev.laneDone_countRx_pendingReqs _ ((Dev.untilDatum_pendingReqs d _ _).trans hp)

/-- A frame without error goes to the link engine. -/
theorem Dev.laneOutcome_passed (hok : h.crcp = true → crcHolds h (payloadOf j.req.mode.k h pl) = true)
    (hen : (d.regions[regionOfPort j.rxPort]).link.cfg.getLsbD 0 = true) :
    ∃ x : Int, LookOnly (((d.untilDatum x).laneDone p i j).modLink (regionOfPort j.rxPort) fun l =>
        { l with work := l.work ++ [{ frame := d.laneFrame p i j h pl pw foff }] })
      (d.laneOutcome p i (.symbols p0 p1 hd pl pw foff second)) := by
  have hgood : ¬ (h.crcp = true ∧ (!crcHolds h (payloadOf j.req.mode.k h pl)) = true) := by
    rintro ⟨hc, hn⟩
    simp [hok hc] at hn
  simp only [Dev.laneOutcome, hj, hs, hh, if_true, hgood, if_false]
  rw [Dev.passFrame_link (d := (d.untilDatum _).laneDone p i j) rfl hen]
  refine ⟨_, LookOnly.frameEnd ?_ _⟩
  exact Dev.laneDone_pendingReqs ((Dev.untilDatum_pendingReqs d _ _).trans hp)

end

/-- Settles O5: each way a lane's frame can end leaves a free lane, and a count or a frame for the link engine. -/
theorem laneOutcomeCountsOrPassesTheFrame : Obligations.LaneOutcomeCountsOrPassesTheFrame := by
  intro s p i j hj hp
  refine ⟨?behind, fun p0 p1 hd pl pw foff second => ⟨fun hn => ?noHeader, fun h hs hh =>
    ⟨fun hc hb hr => ?crcBad, fun hok hen => ?passed⟩⟩⟩
  case behind =>
    refine answers_laneOutcome rfl fun t hram hports _ => ?_
    obtain ⟨hlane, -, hcnt⟩ := Dev.laneCounted (by decide) (Dev.laneOutcome_behind hj hp)
    rw [hports]
    exact ⟨hlane, hram, hcnt⟩
  case noHeader =>
    refine answers_laneOutcome rfl fun t hram hports hregions => ?_
    obtain ⟨x, hx⟩ := Dev.laneOutcome_noHeader hj hp hn
    obtain ⟨hlane, hlink, hcnt⟩ := Dev.laneCounted (by decide) hx
    rw [hports, hregions]
    exact ⟨hlane, hram, hlink, hcnt⟩
  case crcBad =>
    refine answers_laneOutcome rfl fun t hram hports hregions => ?_
    obtain ⟨x, hx⟩ := Dev.laneOutcome_crcBad hj hp hs hh hc hb hr
    obtain ⟨hlane, hlink, hcnt⟩ := Dev.laneCounted (by decide) hx
    rw [hports, hregions]
    exact ⟨hlane, hram, hlink, hcnt⟩
  case passed =>
    refine answers_laneOutcome rfl fun t hram hports hregions => ?_
    obtain ⟨x, hx⟩ := Dev.laneOutcome_passed hj hp hs hh hok hen
    obtain ⟨hlane, hlink⟩ := Dev.lanePassed hx
    rw [hports, hregions]
    exact ⟨hlane, hram, _, hlink, rfl, rfl, rfl, rfl, rfl, rfl, rfl, rfl⟩

end Sys2Proof.Machine
end

section
/-! The gain loop (R74, R75), preamble candidates (R78, R93) and detections (R79). -/

namespace Sys2Proof.Machine

/-! ### Commands that change the device alone -/

/-- What a command that changes the device by f answers: the parts that statements speak of. -/
theorem answers_onDev {o : Host.Outcome State Fault Refusal} {f : Dev → Dev} {s : State} {post : State → Prop}
    (ho : o = .next (onDev f s))
    (h : ∀ t : State, t.ram = s.ram → t.d.now = (f s.d).now → t.d.datum = (f s.d).datum → t.d.ports = (f s.d).ports →
      t.d.regions = (f s.d).regions → post t) : answers o post :=
  ⟨_, ho, h _ rfl (Dev.settle_now _) (Dev.settle_datum _) (Dev.settle_ports _) (Dev.settle_regions _)⟩

/-! ### The gain loop (R74, R75) -/

theorem exec_agcClip_eq (p : PortId) (s : State) : exec (.agcClip p) s = .next (onDev (fun d =>
    if d.portUp p then d.modRx p fun x => { x.agcMove d.now (x.gain - 3) with clip := true } else d) s) := rfl

theorem exec_agcGainDown_eq (p : PortId) (s : State) : exec (.agcGainDown p) s = .next (onDev (fun d =>
    if d.portUp p then d.modRx p fun x => x.agcMove d.now (x.gain - 1) else d) s) := rfl

theorem exec_agcGainUp_eq (p : PortId) (s : State) : exec (.agcGainUp p) s = .next (onDev (fun d =>
    if d.portUp p then d.modRx p fun x => x.agcMove d.now (min 31 (x.gain + 1)) else d) s) := rfl

/-- A command of the gain loop on a port in service: what it makes of the receive side that stands there. -/
theorem onDev_portUp_next {s : State} {p : PortId} {f g : Dev → Rx → Rx} (hu : s.d.portUp p = true)
    (h : f s.d (s.d.ports[p]).rx = g s.d (s.d.ports[p]).rx) :
    (Host.Outcome.next (onDev (fun d => if d.portUp p then d.modRx p (f d) else d) s) :
      Host.Outcome State Fault Refusal) = .next (onDev (fun d => d.modRx p (g d)) s) :=
  onDev_next ((if_pos hu).trans (Dev.modRx_congr h))

/-! What a step of the loop does: nothing where the gain would stay, HELD while FROZEN, else the move. -/

theorem Rx.agcMove_stay {x : Rx} {now g : Nat} (h : g = x.gain) : x.agcMove now g = x := if_pos h

theorem Rx.agcMove_frozen {x : Rx} {now g : Nat} (h : g ≠ x.gain) (hf : x.frozen = true) :
    x.agcMove now g = { x with held := true } := (if_neg h).trans (if_pos hf)

theorem Rx.agcMove_move {x : Rx} {now g : Nat} (h : g ≠ x.gain) (hf : x.frozen = false) :
    x.agcMove now g = { x.setGain now g with changes := x.changes + 1 } :=
  (if_neg h).trans (if_neg (by simp [hf]))

/-- Full scale: CLIP sets in every case, and the loop would move by 3 steps where the gain is not 0. -/
theorem Rx.agcMove_clip (x : Rx) (now : Nat) : { x.agcMove now (x.gain - 3) with clip := true } =
    if x.frozen then { x with clip := true, held := x.held || decide (x.gain ≠ 0) }
    else if x.gain = 0 then { x with clip := true }
    else { x.setGain now (x.gain - 3) with clip := true, changes := x.changes + 1 } := by
  by_cases hg : x.gain = 0
  · rw [Rx.agcMove_stay (by omega)]
    cases hf : x.frozen <;> simp [hg, hf]
  · have hm : x.gain - 3 ≠ x.gain := by omega
    cases hf : x.frozen with
    | true => simp [Rx.agcMove_frozen hm hf, hf, hg]
    | false => simp [Rx.agcMove_move hm hf, hg]

/-- One step of the loop towards g, which is where the gain stands only at the end e of its range. -/
theorem Rx.agcMove_step {x : Rx} {now g e : Nat} (h : g = x.gain ↔ x.gain = e) : x.agcMove now g =
    if x.gain = e then x
    else if x.frozen then { x with held := true }
    else { x.setGain now g with changes := x.changes + 1 } := by
  by_cases he : x.gain = e
  · rw [Rx.agcMove_stay (h.mpr he), if_pos he]
  · have hm : g ≠ x.gain := fun hg => he (h.mp hg)
    cases hf : x.frozen with
    | true => simp [Rx.agcMove_frozen hm hf, hf, he]
    | false => simp [Rx.agcMove_move hm hf, he]

/-- Settles O1: each of the three commands is one step of the loop on the receive side of the port. -/
theorem gainLoopMovesOrNotesHeld : Obligations.GainLoopMovesOrNotesHeld := by
  intro s p hu
  refine ⟨?clip, ?down, fun hg => ?up, fun _ _ _ => ⟨rfl, rfl, rfl, rfl⟩⟩
  case clip =>
    rw [exec_agcClip_eq]
    exact onDev_portUp_next hu (Rx.agcMove_clip _ _)
  case down =>
    rw [exec_agcGainDown_eq]
    exact onDev_portUp_next hu (Rx.agcMove_step (by omega))
  case up =>
    rw [exec_agcGainUp_eq]
    refine onDev_portUp_next hu ((Rx.agcMove_step (e := 31) (by omega)).trans ?_)
    by_cases h31 : (s.d.ports[p]).rx.gain = 31
    · rw [if_pos h31, if_pos h31]
    · rw [if_neg h31, if_neg h31, Nat.min_eq_right (by omega)]

/-! ### Preamble candidates (R78, R93) -/

theorem exec_preambleCandidate_eq (p : PortId) (w : WatcherId) (k : Nat) (c : CandInfo) (s : State) :
    exec (.preambleCandidate p w k c) s = .next (onDev (fun d => d.candidate p w k c) s) := rfl

theorem bestHeard_mem {l : List Heard} {x : Heard} (h : bestHeard l = some x) : x ∈ l := by
  induction l with
  | nil => nomatch h
  | cons a l ih =>
    simp only [bestHeard] at h
    cases ht : bestHeard l with
    | none => simp_all
    | some y =>
      rw [ht] at h
      simp only at h
      split at h
      · simp_all
      · exact List.mem_cons_of_mem _ (ih (ht.trans h))

/-- The one that is stronger than every other, or as strong with the lower number, is the one that receives. -/
theorem bestHeard_eq {l : List Heard} {b : Heard} (hb : b ∈ l)
    (h : ∀ x ∈ l, x ≠ b → x.rssi < b.rssi ∨ (x.rssi = b.rssi ∧ b.port < x.port)) : bestHeard l = some b := by
  induction l with
  | nil => nomatch hb
  | cons a l ih =>
    have hl : ∀ x ∈ l, x ≠ b → x.rssi < b.rssi ∨ (x.rssi = b.rssi ∧ b.port < x.port) :=
      fun x hx => h x (List.mem_cons_of_mem _ hx)
    by_cases hm : b ∈ l
    · have hn : ¬ (b.rssi < a.rssi ∨ (b.rssi = a.rssi ∧ a.port < b.port)) := by
        by_cases e : a = b
        · simp [e]
        · rintro (hl | ⟨he, hlt⟩)
          · rcases h a List.mem_cons_self e with ha | ⟨ha, -⟩ <;> omega
          · rcases h a List.mem_cons_self e with ha | ⟨-, ha⟩
            · omega
            · exact lt_asymm hlt ha
      simp only [bestHeard, ih hm hl]
      exact if_neg hn
    · obtain rfl : b = a := (List.mem_cons.mp hb).resolve_right hm
      cases ht : bestHeard l with
      | none => simp only [bestHeard, ht]
      | some y =>
        have hy : y ∈ l := bestHeard_mem ht
        have hw := hl y hy fun e => hm (e ▸ hy)
        simp only [bestHeard, ht]
        exact if_pos hw

theorem Dev.markActive_watchers (d : Dev) (p o : PortId) (c bw : Nat) :
    ((d.markActive p c bw).ports[o]).rx.watchers = (d.ports[o]).rx.watchers :=
  Dev.modRx_keeps Rx.watchers (fun _ => by rfl) d p o

/-- A candidate that all its ports receive and search, and that port p is among, goes to the strongest of them. -/
theorem Dev.candidate_eq {d : Dev} {p : PortId} {w : WatcherId} {k : Nat} {c : CandInfo} {b : Heard}
    (hok : ∀ h ∈ c.heard, (d.combineGroup p).contains h.port = true ∧ d.rxOn h.port = true ∧
      ((d.ports[h.port]).rx.watchers[w]).searches (fld ((d.ports[p]).rx.watchers[w]).cfg 1 2) k = true)
    (hp : ∃ h ∈ c.heard, h.port = p) (h4 : 4 ≤ c.npre) (h32 : c.npre ≤ 32) (hb : bestHeard c.heard = some b) :
    d.candidate p w k c =
      (let e := d.markActive b.port w.val (fld ((d.ports[p]).rx.watchers[w]).cfg 1 2)
       if ((d.ports[b.port]).rx.watchers[w]).cands.length < 4 then
         e.modWatcher b.port w fun x => { x with cands := x.cands ++ [⟨k, c⟩] }
       else e.countRx b.port .watchfull) := by
  have hf : (c.heard.filter fun h => (d.combineGroup p).contains h.port && d.rxOn h.port &&
      ((d.ports[h.port]).rx.watchers[w]).searches (fld ((d.ports[p]).rx.watchers[w]).cfg 1 2) k) = c.heard :=
    List.filter_eq_self.mpr fun h hh => by
      obtain ⟨hg, hr, hs⟩ := hok h hh
      rw [hg, hr, hs]
      rfl
  have ha : ¬ ((!c.heard.any fun h => decide (h.port = p)) = true ∨ c.npre < 4) := by
    obtain ⟨h, hh, he⟩ := hp
    have : (c.heard.any fun h => decide (h.port = p)) = true := List.any_eq_true.mpr ⟨h, hh, by simp [he]⟩
    simp [this, h4]
  simp only [Dev.candidate, hf, if_neg ha, hb, Dev.markActive_watchers, Nat.min_eq_right h32]
  by_cases hlen : ((d.ports[b.port]).rx.watchers[w]).cands.length < 4
  · rw [if_pos hlen, if_neg (by omega)]
  · rw [if_neg hlen, if_pos (by omega)]

/-- Settles O2: the strongest port is the one that bestHeard finds, and it holds the candidate if it has room. -/
theorem candidateIsHeldByTheStrongestPort : Obligations.CandidateIsHeldByTheStrongestPort := by
  intro s p w k c b hok hp h4 h32 hb hbest
  rw [exec_preambleCandidate_eq]
  exact onDev_next (Dev.candidate_eq hok hp h4 h32 (bestHeard_eq hb hbest))

/-! ### Detections (R79) -/

theorem exec_syncCheck_eq (p : PortId) (w : WatcherId) (n s0 s1 : Nat) (s : State) :
    exec (.syncCheck p w n s0 s1) s = .next (onDev (fun d => d.syncCheck p w n s0 s1) s) := rfl

/-- A field of a word is the value of the bits that stand there. -/
theorem fld_eq_toNat (v : Word) (lo len : Nat) : fld v lo len = ((v >>> lo).setWidth len).toNat := by
  rw [fld, BitVec.toNat_setWidth, BitVec.toNat_ushiftRight]

/-- The sync values that a port accepts: SYNC0, and SYNC1 while SYNC1EN = 1. -/
theorem Rx.accepts_iff (x : Rx) (v : Byte) : x.accepts v = true ↔
    v = x.sync.setWidth 8 ∨ (x.sync.getLsbD 16 = true ∧ v = (x.sync >>> 8).setWidth 8) := by
  simp only [Rx.accepts, bit, fld_eq_toNat, BitVec.toNat_inj, BitVec.ushiftRight_zero, Bool.or_eq_true, Bool.and_eq_true,
    decide_eq_true_eq]

theorem Dev.modWatcher_sync (d : Dev) (p o : PortId) (w : WatcherId) (f : Watcher → Watcher) :
    ((d.modWatcher p w f).ports[o]).rx.sync = (d.ports[o]).rx.sync :=
  Dev.modRx_keeps Rx.sync (fun _ => by rfl) d p o

/-- Settles O3: the two outcomes of the check are those of the test on the sync value. -/
theorem syncValueMakesTheDetection : Obligations.SyncValueMakesTheDetection := by
  intro s p w n s0 s1 c hc
  rw [exec_syncCheck_eq]
  refine onDev_next ?_
  simp only [Dev.syncCheck, hc, Rx.accepts_iff, Dev.modWatcher_sync, Dev.untilDatum_ports]

end Sys2Proof.Machine
end

section
/-! Lane requests (R82, R85): the one request that waits is served, by the lowest-numbered free lane of its port. -/

namespace Sys2Proof.Machine

theorem exec_laneRequest_eq (p : PortId) (n : Nat) (s : State) :
    exec (.laneRequest p n) s = .next (onDev (fun d => d.laneRequest p n) s) := rfl

theorem exec_laneRequestWithdrawn_eq (p : PortId) (n : Nat) (s : State) :
    exec (.laneRequestWithdrawn p n) s = .next (onDev (fun d => d.laneWithdrawn p n) s) := rfl

/-! ### The lowest number -/

/-- The lowest number that a test picks. -/
theorem find?_finRange_eq_some {n : Nat} {f : Fin n → Bool} {i : Fin n} (hi : f i = true) (h : ∀ j < i, f j = false) :
    (List.finRange n).find? f = some i := by
  rw [← Fin.find?_eq_find?_finRange]
  exact Fin.find?_eq_some_iff.mpr ⟨hi, h⟩

theorem Port.freeLanes_head {q : Port} {i : LaneId} (hi : (q.rx.lanes[i]).free = true)
    (h : ∀ j < i, (q.rx.lanes[j]).free = false) : q.freeLanes.head? = some i := by
  rw [Port.freeLanes, List.head?_filter]
  exact find?_finRange_eq_some hi h

theorem Dev.laneFor_own {d : Dev} {p : PortId} {i : LaneId} (hi : ((d.ports[p]).rx.lanes[i]).free = true)
    (h : ∀ j < i, ((d.ports[p]).rx.lanes[j]).free = false) : d.laneFor p = some (p, i) := by
  rw [Dev.laneFor, Port.freeLanes_head hi h]

/-! ### The requests that wait -/

theorem insertBy_ne_nil {α : Type} (le : α → α → Bool) (a : α) (l : List α) : insertBy le a l ≠ [] := by
  cases l with
  | nil => exact List.cons_ne_nil _ _
  | cons b l => rw [insertBy]; split <;> exact List.cons_ne_nil _ _

theorem sortBy_eq_nil {α : Type} {le : α → α → Bool} {l : List α} (h : sortBy le l = []) : l = [] := by
  cases l with
  | nil => rfl
  | cons a l => exact absurd h (insertBy_ne_nil le a _)

theorem mem_portsOf_self (p : PortId) : p ∈ portsOf (regionOfPort p) :=
  List.mem_map.mpr ⟨localOfPort p, List.mem_finRange _, Fin.ext (Nat.div_add_mod p.val 6)⟩

theorem portsOf_nodup (r : RegionId) : (portsOf r).Nodup := by revert r; decide

/-- No request waits in a region: none of its ports has asked. -/
theorem Dev.pendingReqs_eq_nil {d : Dev} {r : RegionId} (h : d.pendingReqs r = []) {o : PortId} (ho : o ∈ portsOf r) :
    (d.ports[o]).rx.reqs.filter (·.asked) = [] :=
  List.map_eq_nil_iff.mp (List.flatMap_eq_nil_iff.mp (sortBy_eq_nil h) o ho)

/-- A list with one member that gives something. -/
theorem flatMap_eq_singleton {α β : Type} {f : α → List β} {a : α} {b : β} {l : List α} (hn : l.Nodup) (ha : a ∈ l)
    (hf : f a = [b]) (h : ∀ x ∈ l, x ≠ a → f x = []) : l.flatMap f = [b] := by
  obtain ⟨l₁, l₂, rfl⟩ := List.append_of_mem ha
  have hne : ∀ x ∈ l₁ ++ l₂, x ≠ a := fun x hx e => (List.nodup_middle.mp hn).notMem (e ▸ hx)
  have h₁ : l₁.flatMap f = [] := List.flatMap_eq_nil_iff.mpr fun x hx => h x (by simp [hx]) (hne x (by simp [hx]))
  have h₂ : l₂.flatMap f = [] := List.flatMap_eq_nil_iff.mpr fun x hx => h x (by simp [hx]) (hne x (by simp [hx]))
  rw [List.flatMap_append, List.flatMap_cons, h₁, h₂, hf]
  rfl

/-- Where a port's one request is the only one that waits. -/
theorem Dev.pendingReqs_eq_singleton {d : Dev} {p : PortId} {q : LaneReq}
    (hp : (d.ports[p]).rx.reqs.filter (·.asked) = [q])
    (h : ∀ o ∈ portsOf (regionOfPort p), o ≠ p → (d.ports[o]).rx.reqs.filter (·.asked) = []) :
    d.pendingReqs (regionOfPort p) = [(p, q)] := by
  rw [Dev.pendingReqs, flatMap_eq_singleton (portsOf_nodup _) (mem_portsOf_self p) (b := (p, q))]
  · rfl
  · rw [hp]; rfl
  · intro o ho hne
    rw [h o ho hne]; rfl

/-- Of requests that have not been made, one is made. -/
theorem filter_set_eq_singleton {α : Type} {f : α → Bool} {l : List α} {n : Nat} {a b : α} (hn : l[n]? = some a)
    (hl : l.filter f = []) (hb : f b = true) : (l.set n b).filter f = [b] := by
  have hlen : n < l.length := (List.getElem?_eq_some_iff.mp hn).1
  have hall : ∀ x ∈ l, ¬ f x = true := List.filter_eq_nil_iff.mp hl
  have h₁ : (l.take n).filter f = [] := List.filter_eq_nil_iff.mpr fun x hx => hall x (List.mem_of_mem_take hx)
  have h₂ : (l.drop (n + 1)).filter f = [] := List.filter_eq_nil_iff.mpr fun x hx => hall x (List.mem_of_mem_drop hx)
  rw [List.set_eq_take_append_cons_drop, if_pos hlen, List.filter_append, List.filter_cons_of_pos hb, h₁, h₂]
  rfl

/-! ### What a request changes -/

theorem Dev.regionJobs_congr {d e : Dev} (h : ∀ o : PortId, (e.ports[o]).rx.lanes = (d.ports[o]).rx.lanes) (r : RegionId) :
    e.regionJobs r = d.regionJobs r := by
  simp only [Dev.regionJobs, h]

theorem Dev.allocSlice_ports (d : Dev) (p : PortId) (m : Mode) : (d.allocSlice p m).ports = d.ports := by
  unfold Dev.allocSlice
  split <;> rfl

/-- From d to e port p's own lane i takes the frame of request q: at the ports, the receive side of that port alone
changes, and there no counter counts and no other lane changes. -/
def Dev.LaneTaken (d e : Dev) (p : PortId) (i : LaneId) (q : LaneReq) : Prop :=
  ∃ (j : LaneJob) (f : Rx → Rx), e.ports = (d.modRx p f).ports ∧ j.rxPort = p ∧ j.req = q ∧
    (∀ x, (f x).cnt = x.cnt) ∧ ∀ x, (f x).lanes = x.lanes.set i { x.lanes[i] with work := .frame j }

/-- A change of the receive side before, of neither counters nor lanes, makes no difference. -/
theorem Dev.LaneTaken.of_modRx {d e : Dev} {p : PortId} {i : LaneId} {q : LaneReq} {g : Rx → Rx}
    (h : (d.modRx p g).LaneTaken e p i q) (hc : ∀ x, (g x).cnt = x.cnt) (hl : ∀ x, (g x).lanes = x.lanes) :
    d.LaneTaken e p i q := by
  obtain ⟨j, f, hports, hp, hq, hcnt, hlanes⟩ := h
  rw [Dev.modRx_modRx] at hports
  exact ⟨j, _, hports, hp, hq, fun x => (hcnt _).trans (hc x), fun x => by rw [hlanes, hl]⟩

theorem Dev.grant_own (d : Dev) (p : PortId) (i : LaneId) (q : LaneReq) : d.LaneTaken (d.grant p p i q) p i q := by
  simp only [Dev.LaneTaken, Dev.grant, if_true, Dev.allocSlice_ports, Dev.markActive, Dev.modLane, Dev.modRx_modRx]
  exact ⟨_, _, rfl, rfl, rfl, fun _ => rfl, fun _ => rfl⟩

/-- One request that waits, a lane of its port and room below the cap: the lane takes the frame. -/
theorem Dev.serveLanes_own {d : Dev} {p : PortId} {i : LaneId} {q : LaneReq}
    (hq : d.pendingReqs (regionOfPort p) = [(p, q)]) (hl : d.laneFor p = some (p, i))
    (hc : (d.regionJobs (regionOfPort p)).length < d.laneCap (regionOfPort p)) :
    d.LaneTaken (d.serveLanes (regionOfPort p)) p i q := by
  have he : d.serveLanes (regionOfPort p) = (d.modRx p fun x => { x with reqs := x.reqs.erase q }).grant p p i q := by
    simp only [Dev.serveLanes, hq, Dev.serveList, hl]
    exact if_neg (by omega)
  rw [he]
  exact Dev.LaneTaken.of_modRx (Dev.grant_own _ p i q) (fun _ => rfl) fun _ => rfl

/-- The state once request n of a port has been made. -/
def Dev.madeReq (d : Dev) (p : PortId) (n : Nat) (q : LaneReq) : Dev :=
  (d.untilDatum ((q.info.syncT.toNat : Int) + 2 * symTicks q.mode.k q.mode.bw)).modRx p fun x =>
    { x with reqs := setAt x.reqs n { q with asked := true } }

theorem Dev.madeReq_lanes (d : Dev) (p o : PortId) (n : Nat) (q : LaneReq) :
    ((d.madeReq p n q).ports[o]).rx.lanes = (d.ports[o]).rx.lanes :=
  Dev.modRx_keeps Rx.lanes (fun _ => by rfl) (d.untilDatum _) p o

/-- Where no request waits, the one that is made is the only one. -/
theorem Dev.madeReq_pendingReqs {d : Dev} {p : PortId} {n : Nat} {q : LaneReq}
    (hn : (d.ports[p]).rx.reqs[n]? = some q) (hw : d.pendingReqs (regionOfPort p) = []) :
    (d.madeReq p n q).pendingReqs (regionOfPort p) = [(p, { q with asked := true })] := by
  refine Dev.pendingReqs_eq_singleton ?_ fun o ho hne => ?_
  · rw [Dev.madeReq, Dev.modRx_eq, Dev.modPort_ports_self]
    exact filter_set_eq_singleton hn (Dev.pendingReqs_eq_nil hw (mem_portsOf_self p)) rfl
  · rw [Dev.madeReq, Dev.modRx_eq, Dev.modPort_ports_ne _ _ _ _ hne]
    exact Dev.pendingReqs_eq_nil hw ho

theorem Dev.laneRequest_eq {d : Dev} {p : PortId} {n : Nat} {q : LaneReq} (hn : (d.ports[p]).rx.reqs[n]? = some q)
    (ha : q.asked = false) : d.laneRequest p n = (d.madeReq p n q).serveLanes (regionOfPort p) := by
  simp only [Dev.laneRequest, hn, ha, Bool.false_eq_true, if_false, Dev.madeReq]

/-- A request that is made while no other waits is granted the lowest free lane of its port. -/
theorem Dev.laneRequest_own {d : Dev} {p : PortId} {n : Nat} {q : LaneReq} {i : LaneId}
    (hn : (d.ports[p]).rx.reqs[n]? = some q) (ha : q.asked = false) (hw : d.pendingReqs (regionOfPort p) = [])
    (hi : ((d.ports[p]).rx.lanes[i]).free = true) (hlow : ∀ j < i, ((d.ports[p]).rx.lanes[j]).free = false)
    (hcap : (d.regionJobs (regionOfPort p)).length < d.laneCap (regionOfPort p)) :
    d.LaneTaken (d.laneRequest p n) p i { q with asked := true } := by
  have hl : (d.madeReq p n q).laneFor p = some (p, i) :=
    Dev.laneFor_own (by rw [Dev.madeReq_lanes]; exact hi) fun j hj => by rw [Dev.madeReq_lanes]; exact hlow j hj
  have hc : ((d.madeReq p n q).regionJobs (regionOfPort p)).length < (d.madeReq p n q).laneCap (regionOfPort p) := by
    rw [Dev.regionJobs_congr fun o => Dev.madeReq_lanes d p o n q]
    exact hcap
  rw [Dev.laneRequest_eq hn ha]
  exact Dev.LaneTaken.of_modRx (d := d.untilDatum _) (Dev.serveLanes_own (Dev.madeReq_pendingReqs hn hw) hl hc)
    (fun _ => rfl) fun _ => rfl

/-- A withdrawn request is counted; beside that only second-look bookkeeping and time go on. -/
theorem Dev.laneWithdrawn_ports {d : Dev} {p : PortId} {n : Nat} {q : LaneReq}
    (hn : (d.ports[p]).rx.reqs[n]? = some q) (ha : q.asked = true) :
    (d.laneWithdrawn p n).ports =
      (let e := (d.modRx p fun x => { x with reqs := x.reqs.eraseIdx n }).countRx p .dropnolane
       if q.capOnly then e.countRx p .dropcap else e).ports := by
  simp only [Dev.laneWithdrawn, hn, ha, Bool.not_true, Bool.false_eq_true, if_false]
  cases q.capOnly <;> rfl

/-- Settles O4: a request changes the receive side of its port alone, and there the lane it takes. -/
theorem lowestFreeLaneTakesTheRequest : Obligations.LowestFreeLaneTakesTheRequest := by
  intro s p n q hn
  refine ⟨fun i ha hw hi hlow hcap => ?taken, fun ha => ?withdrawn⟩
  case taken =>
    obtain ⟨j, f, hports, hp, hq, hcnt, hlanes⟩ := Dev.laneRequest_own hn ha hw hi hlow hcap
    refine answers_onDev (exec_laneRequest_eq p n s) fun t hram _ _ ht _ => ?_
    rw [ht, hports, Dev.modRx_eq, Dev.modPort_ports_self]
    refine ⟨⟨j, ?_, hp, hq⟩, fun k hk => ?_, hcnt _, rfl, fun o ho => Dev.modPort_ports_ne _ _ _ _ ho, hram⟩
    · rw [hlanes, vset_self]
    · rw [hlanes, vset_ne _ _ _ _ hk]
  case withdrawn =>
    refine answers_onDev (exec_laneRequestWithdrawn_eq p n s) fun t hram _ _ ht _ => ?_
    exact ⟨ht.trans (Dev.laneWithdrawn_ports hn ha), hram⟩

end Sys2Proof.Machine
end

section
/-! Second look (R101, R102): which request a unit takes, what expires, and what a look that ends leaves. -/

namespace Sys2Proof.Machine

theorem exec_secondLookStart_eq (r : RegionId) (s : State) :
    exec (.secondLookStart r) s = .next (onDev (fun d => d.lookStart r) s) := rfl

theorem exec_slExpired_eq (r : RegionId) (n : Nat) (s : State) :
    exec (.slExpired r n) s = .next (onDev (fun d => d.slExpire r n) s) := rfl

theorem exec_secondLookDone_eq (r : RegionId) (u : Fin 4) (rep : LookReport) (s : State) :
    exec (.secondLookDone r u rep) s = .next (onDev (fun d => d.lookDone r u rep) s) := rfl

/-! ### The request that a unit takes (R101, R102) -/

/-- A change that leaves the second-look part as it stands is none. -/
theorem Dev.modSecond_self {d : Dev} {r : RegionId} {f : Second → Second} (h : f (d.regions[r]).second = (d.regions[r]).second) :
    d.modSecond r f = d := by
  rw [Dev.modSecond_eq, Dev.modRegion, h]
  exact congrArg (fun v => { d with regions := v }) (Vector.set_getElem_self _)

theorem Dev.dropExpired_none {d : Dev} {r : RegionId} (h : ∀ x ∈ (d.regions[r]).second.reqs, d.now < x.need + sliceSpan) :
    d.dropExpired r = d := by
  have hgone : (d.regions[r]).second.reqs.filter (fun q => q.need + sliceSpan ≤ d.now) = [] :=
    List.filter_eq_nil_iff.mpr fun x hx => by have := h x hx; simpa using this
  have hkept : (d.regions[r]).second.reqs.filter (fun q => !decide (q.need + sliceSpan ≤ d.now)) = (d.regions[r]).second.reqs :=
    List.filter_eq_self.mpr fun x hx => by have := h x hx; simpa using this
  simp only [Dev.dropExpired, hgone, List.foldl_nil]
  exact Dev.modSecond_self (by simp only [hkept])

theorem oldestReq_mem {l : List SlReq} {x : SlReq} (h : oldestReq l = some x) : x ∈ l := by
  induction l with
  | nil => nomatch h
  | cons a l ih =>
    simp only [oldestReq] at h
    cases ht : oldestReq l with
    | none => simp_all
    | some y =>
      rw [ht] at h
      simp only at h
      split at h
      · exact List.mem_cons_of_mem _ (ih (ht.trans h))
      · simp_all

/-- The request whose weak frame began before every other's is the oldest. -/
theorem oldestReq_eq {l : List SlReq} {q : SlReq} (hq : q ∈ l) (h : ∀ x ∈ l, x ≠ q → q.wStart < x.wStart) :
    oldestReq l = some q := by
  induction l with
  | nil => nomatch hq
  | cons a l ih =>
    have hl : ∀ x ∈ l, x ≠ q → q.wStart < x.wStart := fun x hx => h x (List.mem_cons_of_mem _ hx)
    by_cases e : a = q
    · subst e
      cases ht : oldestReq l with
      | none => simp only [oldestReq, ht]
      | some y =>
        have hy : ¬ y.wStart < a.wStart := by
          by_cases e : y = a
          · simp [e]
          · have := hl y (oldestReq_mem ht) e
            omega
        simp only [oldestReq, ht]
        exact if_neg hy
    · have hm : q ∈ l := (List.mem_cons.mp hq).resolve_left fun e' => e e'.symm
      simp only [oldestReq, ih hm hl]
      exact if_pos (h a List.mem_cons_self e)

/-- With no request expired, the lowest free unit takes the oldest request. -/
theorem Dev.lookStart_eq {d : Dev} {r : RegionId} {u : Fin 4} {q : SlReq}
    (hlive : ∀ x ∈ (d.regions[r]).second.reqs, d.now < x.need + sliceSpan)
    (hu : (List.finRange 4).find? (fun v => ((d.regions[r]).second.units[v]).job.isNone &&
      !((d.regions[r]).second.units[v]).fenced) = some u)
    (hq : oldestReq (d.regions[r]).second.reqs = some q) :
    d.lookStart r = (d.countRx q.port .sltried).modSecond r fun x =>
      { x with reqs := x.reqs.erase q, units := x.units.set u { x.units[u] with job := some q } } := by
  simp only [Dev.lookStart, Dev.dropExpired_none hlive, hu, hq]

theorem Dev.slExpire_eq {d : Dev} {r : RegionId} {n : Nat} {q : SlReq} (hn : (d.regions[r]).second.reqs[n]? = some q) :
    d.slExpire r n = (((d.until_ (q.need + sliceSpan)).modSecond r fun x => { x with reqs := x.reqs.eraseIdx n }).countRx
      q.port .slexpired).gcSlices r := by
  simp only [Dev.slExpire, hn]

/-! ### What a look leaves (R102) -/

theorem Dev.gcSlices_ports (d : Dev) (r : RegionId) : (d.gcSlices r).ports = d.ports := rfl

theorem Dev.gcSlices_units (d : Dev) (r : RegionId) :
    ((d.gcSlices r).regions[r]).second.units = (d.regions[r]).second.units := by
  unfold Dev.gcSlices
  rw [Dev.modSecond_eq, Dev.modRegion_regions_self]

theorem Dev.gcSlices_link (d : Dev) (r o : RegionId) : ((d.gcSlices r).regions[o]).link = (d.regions[o]).link := by
  rw [(RxOnly.gcSlices d r).region o]

theorem Dev.modLink_second (d : Dev) (r o : RegionId) (f : Link → Link) :
    ((d.modLink r f).regions[o]).second = (d.regions[o]).second := by
  rw [Dev.modLink_eq]
  by_cases h : o = r
  · subst h; rw [Dev.modRegion_regions_self]
  · rw [Dev.modRegion_regions_ne _ _ _ _ h]

/-- The unit is free again. -/
def Dev.freeUnit (d : Dev) (r : RegionId) (u : Fin 4) : Dev :=
  d.modSecond r fun x => { x with units := x.units.set u { x.units[u] with job := none } }

theorem Dev.freeUnit_job (d : Dev) (r : RegionId) (u : Fin 4) :
    (((d.freeUnit r u).regions[r]).second.units[u]).job = none := by
  rw [Dev.freeUnit, Dev.modSecond_eq, Dev.modRegion_regions_self]
  exact congrArg SlUnit.job (vset_self _ _ _)

theorem Dev.freeUnit_link (d : Dev) (r o : RegionId) (u : Fin 4) :
    ((d.freeUnit r u).regions[o]).link = (d.regions[o]).link := by
  rw [Dev.freeUnit, (RxOnly.modSecond d r _).region o]

/-- While the link engine is on it has every frame to do that is passed on. -/
theorem Dev.passFrame_enabled {d : Dev} {f : AirFrame} {p : PortId} (hf : f.port = p)
    (h : (d.regions[regionOfPort p]).link.cfg.getLsbD 0 = true) :
    d.passFrame f = d.modLink (regionOfPort p) fun l => { l with work := l.work ++ [{ frame := f }] } := by
  subst hf
  exact if_pos h

section
variable {d : Dev} {r : RegionId} {u : Fin 4} {q : SlReq} (hu : ((d.regions[r]).second.units[u]).job = some q)
include hu

theorem Dev.lookDone_nothing : d.lookDone r u .nothing = (d.freeUnit r u).gcSlices r := by
  simp only [Dev.lookDone, hu, Dev.freeUnit]

variable {hd pl : List Nat} {sync : Byte} {rssi foff : Int} {pw : List (Nat × Nat)} {syncT : Word64} {npre : Nat}

/-- A weak frame that nobody detected, with a sync value that the port does not take, is no frame. -/
theorem Dev.lookDone_unwanted (hs : q.seen = none) (ha : (d.ports[q.port]).rx.accepts sync = false) :
    d.lookDone r u (.found hd pl sync rssi pw foff syncT npre) = d.lookDone r u .nothing := by
  have ha' : ((d.freeUnit r u).ports[q.port]).rx.accepts sync = false := ha
  rw [Dev.lookDone_nothing hu]
  simp only [Dev.freeUnit] at ha' ⊢
  simp only [Dev.lookDone, hu, hs, ha']
  cases headerOf q.mode.k hd <;> simp

/-- A weak frame with a good header and CRC, detected or with a sync value that the port takes, is recovered. -/
theorem Dev.lookDone_recovered {h : Header} (hh : headerOf q.mode.k hd = some h)
    (hc : crcHolds h (payloadOf q.mode.k h pl) = true)
    (hs : q.seen.isSome = true ∨ (d.ports[q.port]).rx.accepts sync = true)
    (hen : (d.regions[regionOfPort q.port]).link.cfg.getLsbD 0 = true) :
    ∃ f : AirFrame, d.lookDone r u (.found hd pl sync rssi pw foff syncT npre) =
        (((d.freeUnit r u).countRx q.port .slrecovered).modLink (regionOfPort q.port) fun l =>
          { l with work := l.work ++ [{ frame := f }] }).gcSlices r ∧
      f.port = q.port ∧ f.sl = true ∧ f.syncT = syncT ∧ f.bytes = (payloadOf q.mode.k h pl).take h.len := by
  have hok : (crcHolds h (payloadOf q.mode.k h pl) &&
      (q.seen.isSome || ((d.freeUnit r u).ports[q.port]).rx.accepts sync)) = true := by
    have ha : ((d.freeUnit r u).ports[q.port]).rx.accepts sync = (d.ports[q.port]).rx.accepts sync := rfl
    rw [hc, ha, Bool.true_and, Bool.or_eq_true]
    exact hs
  have hen : (((d.freeUnit r u).countRx q.port .slrecovered).regions[regionOfPort q.port]).link.cfg.getLsbD 0 = true := by
    rw [(RxOnly.countRx _ _ _).region, Dev.freeUnit_link]
    exact hen
  simp only [Dev.freeUnit] at hok hen ⊢
  simp only [Dev.lookDone, hu, hh, hok, if_true]
  rw [Dev.passFrame_enabled (p := q.port) ?_ hen]
  · exact ⟨_, rfl, rfl, rfl, rfl, rfl⟩
  · rfl

end

/-- Settles O6: what starts a look, what drops a request and how a look ends, each by its own lemma. -/
theorem secondLookTakesExpiresAndRecovers : Obligations.SecondLookTakesExpiresAndRecovers := by
  intro s r u q
  refine ⟨fun hlive hq hold hjob hfen hlow => ?start, fun n hn => ?expired, fun hu => ⟨?nothing, ?found⟩⟩
  case start =>
    rw [exec_secondLookStart_eq]
    refine onDev_next (Dev.lookStart_eq hlive (find?_finRange_eq_some ?_ fun v hv => ?_) (oldestReq_eq hq hold))
    · simp only [hjob, hfen, Option.isNone_none, Bool.not_false, Bool.and_self]
    · rcases hlow v hv with h | h
      · simp only [h, Bool.not_true, Bool.and_false]
      · simp only [← Option.not_isSome, h, Bool.not_true, Bool.false_and]
  case expired =>
    rw [exec_slExpired_eq]
    exact onDev_next (Dev.slExpire_eq hn)
  case nothing =>
    rw [exec_secondLookDone_eq]
    exact onDev_next (Dev.lookDone_nothing hu)
  case found =>
    intro hd pl sync rssi foff pw syncT npre h
    refine ⟨fun hh hc hs hen => ?recovered, fun hs ha => ?unwanted⟩
    case recovered =>
      obtain ⟨f, he, hf⟩ := Dev.lookDone_recovered hu hh hc hs hen
      refine answers_onDev (exec_secondLookDone_eq _ _ _ s) fun t hram _ _ hports hregions => ?_
      rw [hports, hregions, he]
      refine ⟨?_, hram, rfl, f, ?_, hf⟩
      · rw [Dev.gcSlices_units, Dev.modLink_second]
        exact Dev.freeUnit_job s.d r u
      · rw [Dev.gcSlices_link, Dev.modLink_eq, Dev.modRegion_regions_self, ← Dev.freeUnit_link s.d r _ u]
        rfl
    case unwanted =>
      rw [exec_secondLookDone_eq, exec_secondLookDone_eq]
      exact onDev_next (Dev.lookDone_unwanted hu hs ha)

end Sys2Proof.Machine
end

section
/-! Plumb checks (R104 to R106) and the limit gauge (R107 to R110). -/

namespace Sys2Proof.Machine

theorem exec_plumbDue_eq (p : PortId) (i : LaneId) (s : State) :
    exec (.plumbDue p i) s = .next (onDev (fun d => d.plumbDue p i) s) := rfl

theorem exec_plumbCheckStart_eq (p : PortId) (s : State) :
    exec (.plumbCheckStart p) s = .next (onDev (fun d => d.plumbStart p) s) := rfl

theorem exec_plumbCheckVerdict_eq (p : PortId) (dec : Bool) (e : Int) (s : State) :
    exec (.plumbCheckVerdict p dec e) s = .next (onDevW (fun d => d.plumbVerdict p dec e) s) := rfl

theorem exec_gaugeStart_eq (p : PortId) (s : State) :
    exec (.gaugeStart p) s = .next (onDev (fun d => d.gaugeStart p) s) := rfl

theorem exec_gaugeDone_eq (p : PortId) (floor : Int) (s : State) :
    exec (.gaugeDone p floor) s = .next (onDev (fun d => d.gaugeDone p floor) s) := rfl

/-! ### Plumb checks (R104 to R106) -/

theorem Dev.plumbDue_eq {d : Dev} {p : PortId} {i : LaneId} (hi : (d.ports[p]).rx.interval ≠ 0)
    (hd : ((d.ports[p]).rx.lanes[i]).due = none) (hr : ((d.ports[p]).rx.lanes[i]).retired = false) :
    d.plumbDue p i =
      (let e := d.until_ (((d.ports[p]).rx.lanes[i]).lastVerdict + (d.ports[p]).rx.interval * secTicks)
       e.modLane p i fun l => { l with due := some e.now }) := by
  refine if_neg ?_
  rw [hd, hr]
  rintro (h | h | h)
  exacts [hi h, Bool.false_ne_true h, Bool.false_ne_true h]

theorem Dev.plumbStart_eq {d : Dev} {p : PortId} {i : LaneId} (hg : (d.ports[p]).rx.plumbLane = none)
    (hu : d.portUp p = true) (hn : (d.ports[p]).rx.plumbNext = some i) :
    d.plumbStart p = d.modRx p fun x =>
      { x with lanes := x.lanes.set i { x.lanes[i] with work := .plumb }, plumbLane := some i } := by
  simp only [Dev.plumbStart, hg, hu, hn, Option.isSome_none, Bool.not_true, Bool.false_eq_true, or_self, if_false,
    Dev.modLane, Dev.modRx_modRx]

section
variable {d : Dev} {p : PortId} {i : LaneId} {dec : Bool} {e : Int} (hg : (d.ports[p]).rx.plumbLane = some i)
include hg

/-- A check that decodes with its SNR within 0.3 dB gives the lane back. -/
theorem Dev.plumbVerdict_pass (hv : dec = true ∧ -3 ≤ e ∧ e ≤ 3) : d.plumbVerdict p dec e =
    ((d.modRx p fun x =>
      { x with plumbLane := none, plumbOrder := if 12 ≤ x.plumbOrder then 6 else x.plumbOrder + 1
               lanes := x.lanes.set i { x.lanes[i] with
                 work := .idle, withheld := false, due := none, lastVerdict := d.now, repeatNow := false }
               cnt := x.cnt.set RxCnt.plumbpass.ix (x.cnt[RxCnt.plumbpass.ix] + 1) }).serveLanes
      (regionOfPort p)).gcSlices (regionOfPort p) := by
  simp only [Dev.plumbVerdict, hg, if_pos hv, Dev.modLane, Dev.countRx, Dev.modRx_modRx]
  rfl

/-- Any other withholds it for a check at once, and is charged to the lane. -/
theorem Dev.plumbVerdict_fail (hv : ¬ (dec = true ∧ -3 ≤ e ∧ e ≤ 3)) : d.plumbVerdict p dec e =
    (d.modRx p fun x =>
      { x with plumbLane := none, plumbOrder := if 12 ≤ x.plumbOrder then 6 else x.plumbOrder + 1
               lanes := x.lanes.set i { x.lanes[i] with
                 work := .idle, withheld := true, due := none, lastVerdict := d.now, repeatNow := true }
               cnt := x.cnt.set RxCnt.plumbfail.ix (x.cnt[RxCnt.plumbfail.ix] + 1)
               plumbFail := x.plumbFail ||| (1#48 <<< i.val) }).charge (.unit (.lane p i)) 4 := by
  simp only [Dev.plumbVerdict, hg, if_neg hv, Dev.modLane, Dev.countRx, Dev.modRx_modRx]
  rfl

end

/-- Settles O7: a lane falls due, its check starts, and the verdict is the test of R105. -/
theorem plumbChecksPassOrWithholdTheLane : Obligations.PlumbChecksPassOrWithholdTheLane := by
  intro s p i
  refine ⟨fun hi hd hr => ?due, fun hg hu hn => ?start, fun e hg => ⟨fun hlo hhi => ?pass, fun dec hv => ?fail⟩⟩
  case due =>
    rw [exec_plumbDue_eq]
    exact onDev_next (Dev.plumbDue_eq hi hd hr)
  case start =>
    rw [exec_plumbCheckStart_eq]
    exact onDev_next (Dev.plumbStart_eq hg hu hn)
  case pass =>
    rw [exec_plumbCheckVerdict_eq]
    exact onDevW_next (Dev.plumbVerdict_pass (d := s.begun.d) hg ⟨rfl, hlo, hhi⟩)
  case fail =>
    have hn : ¬ (dec = true ∧ -3 ≤ e ∧ e ≤ 3) := by
      rintro ⟨rfl, hlo, hhi⟩
      rcases hv with h | h
      · nomatch h
      · omega
    rw [exec_plumbCheckVerdict_eq]
    exact onDevW_next (Dev.plumbVerdict_fail (d := s.begun.d) hg hn)

/-! ### The limit gauge (R107 to R110) -/

section
variable {d : Dev} {p : PortId} (hc : (d.ports[p]).rx.gauge.ctl.getLsbD 0 = true)
  (hr : (d.ports[p]).rx.gauge.run = none) (hu : d.portUp p = true)
include hc hr hu

/-- A gauge that is on, on a port in service, and measures nothing may begin. -/
theorem Dev.gauge_ready : ¬ ((!bit (d.ports[p]).rx.gauge.ctl 0) = true ∨ (d.ports[p]).rx.gauge.run.isSome = true ∨
    (!d.portUp p) = true) := by
  simp only [bit, hc, hr, hu, Option.isSome_none, Bool.not_true, Bool.false_eq_true, or_self, not_false_eq_true]

theorem Dev.gaugeStart_eq : d.gaugeStart p = (d.until_ (d.ports[p]).rx.gauge.dueAt).gaugeRun p :=
  if_neg (Dev.gauge_ready hc hr hu)

/-- A transmission or calibration puts the gauge off. -/
theorem Dev.gaugeRun_blocked (hb : (d.ports[p]).txBlock = true) :
    d.gaugeRun p = d.modGauge p fun g => { g with dueAt := d.now + secTicks } :=
  (if_neg (Dev.gauge_ready hc hr hu)).trans (if_pos hb)

theorem Dev.gaugeRun_noquiet (hb : (d.ports[p]).txBlock = false) (hq : d.quietChannel p = none) :
    d.gaugeRun p = d.modGauge p fun g => { g with noquiet := true, dueAt := d.now + 60 * secTicks } := by
  refine (if_neg (Dev.gauge_ready hc hr hu)).trans ?_
  simp only [hb, hq, Bool.false_eq_true, if_false]

theorem Dev.gaugeRun_measures {c : Nat} (hb : (d.ports[p]).txBlock = false) (hq : d.quietChannel p = some c) :
    d.gaugeRun p = d.modGauge p fun g =>
      { g with dueAt := d.now + 60 * secTicks
               run := some ⟨c, (d.ports[p]).rx.gain, d.datum.now, d.now + 10 * msTicks⟩ } := by
  refine (if_neg (Dev.gauge_ready hc hr hu)).trans ?_
  simp only [hb, hq, Bool.false_eq_true, if_false]

end

theorem Dev.gaugeDone_eq {d : Dev} {p : PortId} {floor : Int} {u : GaugeRun} (hr : (d.ports[p]).rx.gauge.run = some u) :
    d.gaugeDone p floor = (d.until_ u.endAt).modGauge p fun g =>
      { g with run := none, last := some u.chan, chan := u.chan, gain := u.gain, t := u.startT
               floor := BitVec.ofInt 16 floor, excess := BitVec.ofInt 16 (floor + 1210)
               isOver := g.isOver || decide ((fld g.ctl 8 8 : Int) < floor + 1210) } := by
  simp only [Dev.gaugeDone, hr]

/-- A change of the gauge once time has passed: what it leaves at the ports. -/
theorem Dev.until_modGauge_ports {d : Dev} {p : PortId} {t : Nat} {f g : Gauge → Gauge}
    (h : f (d.ports[p]).rx.gauge = g (d.ports[p]).rx.gauge) :
    ((d.until_ t).modGauge p f).ports = (d.modGauge p g).ports := by
  rw [Dev.modGauge_congr (d := d.until_ t) h]
  rfl

/-- Settles O8: when its time has come the gauge is put off, finds no quiet channel, or measures; and what it writes. -/
theorem gaugeMeasuresFloorAndExcess : Obligations.GaugeMeasuresFloorAndExcess := by
  intro s p
  refine ⟨fun hc hr hu hdue => ?starts, fun floor u hr hend => ?ends⟩
  case starts =>
    have hnow : (s.d.until_ (s.d.ports[p]).rx.gauge.dueAt).now = (s.d.ports[p]).rx.gauge.dueAt := Dev.until_due _ _ hdue
    have answer {e : Dev} {post : State → Prop} (he : (s.d.until_ (s.d.ports[p]).rx.gauge.dueAt).gaugeRun p = e)
        (h : ∀ t : State, t.ram = s.ram → t.d.now = e.now → t.d.datum = e.datum → t.d.ports = e.ports → post t) :
        answers (exec (.gaugeStart p) s) post :=
      answers_onDev (exec_gaugeStart_eq p s) fun t => by
        rw [Dev.gaugeStart_eq hc hr hu, he]
        exact fun hram htime hdatum hports _ => h t hram htime hdatum hports
    refine ⟨fun hb => ?blocked, fun hb => ⟨fun c hq => ?measures, fun hq => ?noquiet⟩⟩
    case blocked =>
      refine answer (Dev.gaugeRun_blocked (d := s.d.until_ _) hc hr hu hb) fun t hram htime _ hports => ?_
      refine ⟨htime.trans hnow, hram, hports.trans (Dev.until_modGauge_ports ?_)⟩
      rw [hnow]
      rfl
    case measures =>
      refine answer (Dev.gaugeRun_measures (d := s.d.until_ _) hc hr hu hb hq) fun t hram htime hdatum hports => ?_
      refine ⟨htime.trans hnow, hram, hports.trans (Dev.until_modGauge_ports ?_)⟩
      rw [hnow, hdatum]
      rfl
    case noquiet =>
      refine answer (Dev.gaugeRun_noquiet (d := s.d.until_ _) hc hr hu hb hq) fun t hram htime _ hports => ?_
      refine ⟨htime.trans hnow, hram, hports.trans (Dev.until_modGauge_ports ?_)⟩
      rw [hnow]
      rfl
  case ends =>
    have hx : floor + 1210 = floor - (-1230 + 20) := by omega
    refine answers_onDev (exec_gaugeDone_eq p floor s) fun t hram htime _ hports _ => ?_
    rw [Dev.gaugeDone_eq hr] at htime hports
    refine ⟨htime.trans (Dev.until_due _ _ hend), hram, hports.trans (Dev.until_modGauge_ports ?_)⟩
    simp only [hx, fld_eq_toNat]

end Sys2Proof.Machine
end

section
/-! Writes of a port's receive registers (R72, R73, R75, R87, R104, R107, R114): each register's own effect, reached
through the one access of a port's page. -/

namespace Sys2Proof.Machine

/-! ### The page (R116) -/

/-- Below offset 0x8000 a port's page holds the receive registers. -/
theorem Dev.portWrite_rx {d : Dev} {p : PortId} {o : Nat} {v : Word} (h : o < 0x8000) :
    d.portWrite p o v = d.rxWrite p o v := if_pos h

/-- The write of a receive register of a port that answers, by an initiator that may write it. -/
theorem rowWrite_rxReg {i : Initiator} {p : PortId} {o : Nat} {v : Word} {s : State} {g : Dev → Dev} (ho : o < 0x8000)
    (hp : s.d.portAnswers p) (hi : s.d.mayWrite i (portBase p + o)) (h : s.begun.d.rxWrite p o v = g s.begun.d) :
    (Host.Outcome.next (rowWrite i (portBase p + o) v s) : Host.Outcome State Fault Refusal) =
      .next (onDevW (fun d => (g d).answer i .done) s) :=
  rowWrite_portReg rfl (by omega) hp hi ((Dev.portWrite_rx ho).trans h)

/-! ### The rows are writes of their registers -/

theorem exec_portRxctlWrite_eq (i : Initiator) (p : PortId) (v : Word) (s : State) :
    exec (.portRxctlWrite i p v) s = .next (rowWrite i (portBase p + 0x00) v s) := rfl

theorem exec_portRxfreqWrite_eq (i : Initiator) (p : PortId) (v : Word) (s : State) :
    exec (.portRxfreqWrite i p v) s = .next (rowWrite i (portBase p + 0x04) v s) := rfl

theorem exec_portRxgainWrite_eq (i : Initiator) (p : PortId) (v : Word) (s : State) :
    exec (.portRxgainWrite i p v) s = .next (rowWrite i (portBase p + 0x0C) v s) := rfl

theorem exec_portAgcResume_eq (i : Initiator) (p : PortId) (v : Word) (s : State) :
    exec (.portAgcResume i p v) s = .next (rowWrite i (portBase p + 0x10) v s) := rfl

theorem exec_portCntclr_eq (i : Initiator) (p : PortId) (v : Word) (s : State) :
    exec (.portCntclr i p v) s = .next (rowWrite i (portBase p + 0x1C) v s) := rfl

theorem exec_portWcfgWrite_eq (i : Initiator) (p : PortId) (w : WatcherId) (v : Word) (s : State) :
    exec (.portWcfgWrite i p w v) s = .next (rowWrite i (portBase p + 0x1000 + 4 * w.val) v s) := rfl

theorem exec_portPlumbRunnow_eq (i : Initiator) (p : PortId) (v : Word) (s : State) :
    exec (.portPlumbRunnow i p v) s = .next (rowWrite i (portBase p + 0x200) v s) := rfl

theorem exec_gaugeRunnow_eq (i : Initiator) (p : PortId) (v : Word) (s : State) :
    exec (.gaugeRunnow i p v) s = .next (rowWrite i (portBase p + 0x3000) v s) := rfl

/-! ### What each register's write does -/

section
variable {d : Dev} {p : PortId} {v : Word}

/-- PORT_RXCTL (R87, R131). -/
theorem Dev.writeRxctl_eq : d.writeRxctl p v =
    (let d := d.modRx p fun x => { x with rxctl := v &&& 0x033F1F0F }
     let d := if (d.ports[p]).txBlock then d else d.femTo p (if v.getLsbD 0 then .rx else .off)
     let d := if v.getLsbD 0 then d else (d.stopFrames p).leaveCombines p
     (d.serveLanes (regionOfPort p)).gcSlices (regionOfPort p)) := by
  have hen : ((d.modRx p fun x => { x with rxctl := v &&& 0x033F1F0F }).ports[p]).rx.rxctl.getLsbD 0 = v.getLsbD 0 := by
    rw [Dev.modRx_eq, Dev.modPort_ports_self]
    simp
  simp only [Dev.writeRxctl, Dev.femIdle, bit, hen]

/-- A frequency that R72 does not allow. -/
theorem Dev.writeRxfreq_bad (h : fld v 0 30 < 400000000 ∨ 960000000 < fld v 0 30) :
    d.writeRxfreq p v = d.modRx p fun x => { x with freqBad := true } := by
  refine if_pos ?_
  simp only [freqOk, Bool.not_eq_true', Bool.and_eq_false_iff, decide_eq_false_iff_not]
  omega

/-- A frequency that R72 allows: the port retunes, in a transmission interval only once it ends (R123). -/
theorem Dev.writeRxfreq_ok (h : 400000000 ≤ fld v 0 30 ∧ fld v 0 30 ≤ 960000000) :
    d.writeRxfreq p v =
      (let e := d.modRx p fun x => { x with rxfreq := fld v 0 30 }
       if (d.ports[p]).tx.interval.isSome then e.modSyn p fun x => { x with heldHop := true }
       else ((e.retuneRx p).hop p (fld v 0 30)).serveCal (regionOfPort p)) := by
  have hok : freqOk (fld v 0 30) = true := by simp [freqOk, h]
  have ht : ((d.modRx p fun x => { x with rxfreq := fld v 0 30 }).ports[p]).tx = (d.ports[p]).tx := by
    rw [Dev.modRx_eq, Dev.modPort_ports_self]
  simp only [Dev.writeRxfreq, hok, ht, Bool.not_true, Bool.false_eq_true, if_false]

/-- PORT_AGC: a flag is cleared by writing 1 to it (R75). -/
theorem Dev.rxWrite_agc : d.rxWrite p 0x10 v = d.modRx p fun x =>
    { x with frozen := if v.getLsbD 1 then false else x.frozen, held := if v.getLsbD 2 then false else x.held
             clip := if v.getLsbD 3 then false else x.clip, target := fld v 8 4 } := by
  have cleared (b a : Bool) : (if b then false else a) = (a && !b) := by cases b <;> simp
  simp only [cleared]
  rfl

/-- A channel that R70 does not allow at the bandwidth written. -/
theorem chanOk_eq_false_iff {c bw : Nat} : chanOk c bw = false ↔ (bw = 2 ∧ c % 2 ≠ 0) ∨ (bw = 3 ∧ c % 4 ≠ 0) := by
  by_cases h2 : bw = 2
  · simp [chanOk, h2]
  · by_cases h3 : bw = 3
    · simp [chanOk, h3]
    · simp [chanOk, h2, h3, Nat.mod_one]

theorem Dev.writeWcfg_bad {w : WatcherId} (h : chanOk w.val (fld v 1 2) = false) : d.writeWcfg p w v =
    (d.modWatcher p w fun x => { x with cfg := v &&& 0x7F6 }).modRx p fun x => { x with wcfgBad := true } := by
  have hv : clrBit v 0 &&& 0x7F7 = v &&& 0x7F6 := by rw [clrBit, BitVec.and_assoc]; rfl
  simp only [Dev.writeWcfg, h, Bool.not_false, if_true, hv]

theorem Dev.writeWcfg_ok {w : WatcherId} (h : chanOk w.val (fld v 1 2) = true) : d.writeWcfg p w v =
    d.modWatcher p w fun x => { x with cfg := v &&& 0x7F7 } := by
  simp only [Dev.writeWcfg, h, Bool.not_true, Bool.false_eq_true, if_false]

/-- A watcher's register. -/
theorem Dev.rxWrite_wcfg (w : WatcherId) : d.rxWrite p (0x1000 + 4 * w.val) v = d.writeWcfg p w v := by
  have hw : Fin.ofNat 64 ((0x1000 + 4 * w.val - 0x1000) / 4) = w := Fin.ext (by simp)
  refine (if_pos (show 0x1000 ≤ 0x1000 + 4 * w.val ∧ 0x1000 + 4 * w.val < 0x1100 by omega)).trans ?_
  rw [hw]

end

/-- Settles O9: each row is one access, and what it leaves is what its register's write does. -/
theorem portReceiveRegisterWrites : Obligations.PortReceiveRegisterWrites := by
  intro s i p v hp
  refine ⟨fun hi => ?rxctl, fun hi => ?rxfreq, fun hi => ?rxgain, fun hi => ?agc, fun hi hv => ?cntclr,
    fun w hi => ?wcfg, fun hi hv => ?plumb, fun hi hv => ?gauge⟩
  case rxctl =>
    rw [exec_portRxctlWrite_eq]
    exact rowWrite_rxReg (by decide) hp hi Dev.writeRxctl_eq
  case rxfreq =>
    have hf : fld v 0 30 = (v.setWidth 30).toNat := by rw [fld_eq_toNat, BitVec.ushiftRight_zero]
    have write {g : Dev → Dev} (h : s.begun.d.writeRxfreq p v = g s.begun.d) := rowWrite_rxReg (by decide) hp hi h
    dsimp only
    rw [← hf, exec_portRxfreqWrite_eq]
    refine ⟨fun hb => write (Dev.writeRxfreq_bad hb), fun hlo hhi ht => write ?_, fun hlo hhi ht => write ?_⟩
    · rw [Dev.writeRxfreq_ok ⟨hlo, hhi⟩]
      exact if_pos ht
    · rw [Dev.writeRxfreq_ok ⟨hlo, hhi⟩]
      exact if_neg (Option.not_isSome_iff_eq_none.mpr ht)
  case rxgain =>
    rw [exec_portRxgainWrite_eq]
    exact rowWrite_rxReg (by decide) hp hi rfl
  case agc =>
    rw [exec_portAgcResume_eq]
    exact rowWrite_rxReg (by decide) hp hi Dev.rxWrite_agc
  case cntclr =>
    rw [exec_portCntclr_eq]
    exact rowWrite_rxReg (by decide) hp hi (if_pos hv)
  case wcfg =>
    rw [Nat.add_assoc] at hi
    rw [exec_portWcfgWrite_eq, Nat.add_assoc, ← chanOk_eq_false_iff]
    refine ⟨fun hb => ?_, fun hb => ?_⟩
    · exact rowWrite_rxReg (by omega) hp hi ((Dev.rxWrite_wcfg w).trans (Dev.writeWcfg_bad hb))
    · exact rowWrite_rxReg (by omega) hp hi ((Dev.rxWrite_wcfg w).trans (Dev.writeWcfg_ok (by simpa using hb)))
  case plumb =>
    rw [exec_portPlumbRunnow_eq]
    refine rowWrite_rxReg (by decide) hp hi ((if_pos hv).trans ?_)
    rw [Dev.plumbRunNow, Dev.modRx_modRx]
    exact Dev.modRx_congr rfl
  case gauge =>
    rw [exec_gaugeRunnow_eq]
    exact rowWrite_rxReg (by decide) hp hi (if_pos hv)

end Sys2Proof.Machine
end

section
/-! Calibration (R135 to R137): the end of each of its steps, the front-end lines after it, and what a temperature clears. -/

namespace Sys2Proof.Machine

/-! ### One part of a port -/

/-- What a change of one port does not touch stands at every port. -/
theorem Dev.modPort_keeps {α : Type} (g : Port → α) {f : Port → Port} (hf : ∀ q, g (f q) = g q) (d : Dev) (p o : PortId) :
    g ((d.modPort p f).ports[o]) = g (d.ports[o]) := by
  by_cases h : o = p
  · subst h; rw [Dev.modPort_ports_self]; exact hf _
  · rw [Dev.modPort_ports_ne _ _ _ _ h]

/-- A change that leaves a port as it stands is none. -/
theorem Dev.modPort_self {d : Dev} {p : PortId} {f : Port → Port} (h : f (d.ports[p]) = d.ports[p]) : d.modPort p f = d := by
  rw [Dev.modPort, h]
  exact congrArg (fun v => { d with ports := v }) (Vector.set_getElem_self _)

/-- The lines after a transmission or calibration follow the receive side that stands there (R131). -/
theorem Dev.femIdle_eq {d : Dev} {p : PortId} {x : Rx} (h : (d.ports[p]).rx = x) :
    d.femIdle p = d.femTo p (if x.rxctl.getLsbD 0 then .rx else .off) := by
  subst h
  rfl

/-! ### The steps (R136) -/

theorem exec_calNoiseColdEnd_eq (p : PortId) (power : Int) (s : State) : exec (.calNoiseColdEnd p power) s =
    .next (onDev (fun d => d.calStep p .cold 2020 (some .hot) id) s) := rfl

theorem exec_calNoiseHotEnd_eq (p : PortId) (nf : Nat) (s : State) : exec (.calNoiseHotEnd p nf) s =
    .next (onDev (fun d => d.calStep p .hot 4020 (some .loop) fun d => d.modGauge p fun g =>
      { g with nf := BitVec.ofNat 16 nf, nfOver := g.nfOver || decide (fld g.ctl 16 8 < nf) }) s) := rfl

theorem exec_calToneStart_eq (p : PortId) (s : State) : exec (.calToneStart p) s =
    .next (onDev (fun d => d.calStep p .loop 4040 (some .tone) id) s) := rfl

theorem exec_calToneEnd_eq (p : PortId) (ph gain : BitVec 8) (s : State) : exec (.calToneEnd p ph gain) s =
    .next (onDev (fun d => d.calStep p .tone 5040 (some .ending) fun d =>
      (d.modCal p fun c => { c with calph := ph, calgain := gain }).femIdle p) s) := rfl

theorem exec_calComplete_eq (p : PortId) (s : State) : exec (.calComplete p) s =
    .next (onDev (fun d => d.calStep p .ending 5060 none fun d => d.modCal p fun c =>
      { c with calvalid := true, tcal := c.tnow, wanted := false, blocked := false }) s) := rfl

theorem exec_calTempDrift_eq (p : PortId) (temp : Int) (s : State) :
    exec (.calTempDrift p temp) s = .next (onDev (fun d => d.tempDrift p temp) s) := rfl

/-- The step in progress ends at its time, with what f makes of it. -/
theorem Dev.calStep_eq {d : Dev} {p : PortId} {a : CalStep} {t : Nat} {next : Option CalStep} {f : Dev → Dev}
    (h : (d.ports[p]).cal.step = some a) : d.calStep p a t next f =
      f ((d.until_ ((d.ports[p]).cal.startAt + t * 200)).modCal p fun c => { c with step := next }) := if_pos h

/-! ### Drift (R137) -/

/-- A temperature within 8 degrees of TCAL is taken, and no more. -/
theorem Dev.tempDrift_within {d : Dev} {p : PortId} {t : Int} (h : t - (d.ports[p]).cal.tcal ≤ 8)
    (g : (d.ports[p]).cal.tcal - t ≤ 8) : d.tempDrift p t = d.modCal p fun c => { c with tnow := t } := by
  simp only [Dev.tempDrift, Dev.modCal_eq, Dev.modPort_ports_self]
  exact if_neg (by omega)

/-- CALVALID clears, where it is set: under AUTO a calibration is asked for. -/
theorem Dev.clearCal_eq (d : Dev) (p : PortId) : d.clearCal p = d.modCal p fun c =>
    if c.calvalid then { c with calvalid := false, blocked := false, wanted := c.wanted || c.auto } else c := by
  unfold Dev.clearCal
  split
  next h => exact Dev.modCal_congr (if_pos h).symm
  next h => exact (Dev.modPort_self (by dsimp only; rw [if_neg h])).symm

/-- A temperature further off clears CALVALID, and a calibration may be asked for. -/
theorem Dev.tempDrift_beyond {d : Dev} {p : PortId} {t : Int}
    (h : 8 < t - (d.ports[p]).cal.tcal ∨ 8 < (d.ports[p]).cal.tcal - t) :
    d.tempDrift p t = (d.modCal p fun x =>
      if x.calvalid then { x with tnow := t, calvalid := false, blocked := false, wanted := x.wanted || x.auto }
      else { x with tnow := t }).serveCal (regionOfPort p) := by
  simp only [Dev.tempDrift, Dev.clearCal_eq, Dev.modCal_modCal]
  simp only [Dev.modCal_eq, Dev.modPort_ports_self]
  exact if_pos h

/-- Settles O13: each step is the end of the one in progress, and a temperature is one of the two drifts. -/
theorem calibrationStepsEndOnTime : Obligations.CalibrationStepsEndOnTime := by
  intro s p
  refine ⟨fun power h => ?cold, fun nf h => ?hot, fun h => ?loop, fun ph gain h => ?tone, fun h => ?ending,
    fun t => ⟨fun hlo hhi => ?within, fun h => ?beyond⟩⟩
  case cold =>
    rw [exec_calNoiseColdEnd_eq]
    exact onDev_next (Dev.calStep_eq h)
  case hot =>
    rw [exec_calNoiseHotEnd_eq]
    simp only [fld_eq_toNat]
    exact onDev_next (Dev.calStep_eq h)
  case loop =>
    rw [exec_calToneStart_eq]
    exact onDev_next (Dev.calStep_eq h)
  case tone =>
    rw [exec_calToneEnd_eq]
    refine onDev_next ((Dev.calStep_eq h).trans ?_)
    rw [Dev.modCal_modCal]
    exact Dev.femIdle_eq ((Dev.modPort_keeps Port.rx (fun _ => by rfl) _ p p).trans (by rw [Dev.until_ports]))
  case ending =>
    rw [exec_calComplete_eq]
    refine onDev_next ((Dev.calStep_eq h).trans ?_)
    rw [Dev.modCal_modCal]
  case within =>
    rw [exec_calTempDrift_eq]
    exact onDev_next (Dev.tempDrift_within hlo hhi)
  case beyond =>
    rw [exec_calTempDrift_eq]
    exact onDev_next (Dev.tempDrift_beyond h)

end Sys2Proof.Machine
end

section
/-! A transmission's timed sequence (R126, R199): each event acts on the transmission that goes on, at its distance from
the release. -/

namespace Sys2Proof.Machine

/-! ### The events -/

theorem exec_txFemLevels_eq (p : PortId) (n : SlotId) (s : State) :
    exec (.txFemLevels p n) s = .next (onDev (fun d => d.femLevels p n) s) := rfl

theorem exec_txSwitchToTx_eq (p : PortId) (n : SlotId) (s : State) :
    exec (.txSwitchToTx p n) s = .next (onDev (fun d => d.switchToTx p n) s) := rfl

theorem exec_txRampUp_eq (p : PortId) (n : SlotId) (s : State) :
    exec (.txRampUp p n) s = .next (onDev (fun d => d.rampUp p n) s) := rfl

theorem exec_txFrameEnd_eq (p : PortId) (n : SlotId) (s : State) :
    exec (.txFrameEnd p n) s = .next (onDev (fun d => d.txFrameEnd p n) s) := rfl

theorem exec_txOff_eq (p : PortId) (n : SlotId) (s : State) :
    exec (.txOff p n) s = .next (onDev (fun d => d.txOff p n) s) := rfl

theorem exec_txIntervalEnd_eq (p : PortId) (n : SlotId) (s : State) :
    exec (.txIntervalEnd p n) s = .next (onDev (fun d => d.txIntervalEnd p n) s) := rfl

theorem exec_stakeIntervalEnd_eq (p : PortId) (n : SlotId) (s : State) :
    exec (.stakeIntervalEnd p n) s = .next (onDev (fun d => d.intervalEnd p n) s) := rfl

/-! ### Before the release (R126) -/

theorem us_eq (n : Nat) : us n = n * 200 := rfl

theorem Tx.alive_of {t : Tx} {n : SlotId} (hi : t.interval = some n) (he : t.endAt = none) (hr : t.rampDown = none) :
    t.alive n = true := by
  simp only [Tx.alive, hi, he, hr, decide_true, Option.isNone_none, Bool.and_self]

/-- The armed and checked TX stake of the entry that holds the interval goes on. -/
theorem Dev.goingOn_eq {d : Dev} {p : PortId} {n : SlotId} {k : Stake} (hk : (d.ports[p]).sb.stakes[n] = some k)
    (ha : k.action = 1) (hs : k.state = .armed) (hc : k.checked = true) (hl : (d.ports[p]).tx.alive n = true) :
    d.goingOn p n = some k := by
  have hk' : d.stake p n = some k := hk
  simp only [Dev.goingOn, hk', ha, hs, hc, hl, and_self, if_true]

theorem Dev.femTo_tun (d : Dev) (p o : PortId) (x : FemState) : ((d.femTo p x).ports[o]).tun = (d.ports[o]).tun :=
  Dev.modPort_keeps Port.tun (fun _ => by rfl) d p o

/-- A state other than the one in effect is taken, and the phase epoch advances (R133). -/
theorem Dev.applyTune_ne {d : Dev} {p : PortId} {w : Word} (h : (d.ports[p]).tun.tune ≠ w) : d.applyTune p w =
    (d.modTun p fun t => { t with tune := w }).modSyn p fun x => { x with epoch := x.epoch + 1, epochT := d.datum.now } :=
  if_neg h

section
variable {d : Dev} {p : PortId} {n : SlotId} {k : Stake} (h : d.goingOn p n = some k)
include h

theorem Dev.femLevels_plain (hn : (d.ports[p]).tun.next = none) :
    d.femLevels p n = (d.untilDatum (k.release - ((k.ramp + 2 + k.femlead) * 200 : Nat))).femTo p .tx := by
  simp only [Dev.femLevels, h, Dev.femTo_tun, Dev.untilDatum_ports, hn, us_eq]

/-- A tuner state that waited for the transmission is taken with the levels. -/
theorem Dev.femLevels_tuned {w : Word} (hn : (d.ports[p]).tun.next = some w) (hw : (d.ports[p]).tun.tune ≠ w) :
    d.femLevels p n = (let u := d.untilDatum (k.release - ((k.ramp + 2 + k.femlead) * 200 : Nat))
      ((u.femTo p .tx).modTun p fun t => { t with next := none, tune := w }).modSyn p fun x =>
        { x with epoch := x.epoch + 1, epochT := u.datum.now }) := by
  simp only [Dev.femLevels, h, Dev.femTo_tun, Dev.untilDatum_ports, hn, us_eq]
  rw [Dev.applyTune_ne, Dev.modTun_modTun]
  · rfl
  · rw [Dev.modTun_eq, Dev.modPort_ports_self]
    dsimp only
    rw [Dev.femTo_tun, Dev.untilDatum_ports]
    exact hw

theorem Dev.switchToTx_eq : d.switchToTx p n =
    (d.untilDatum (k.release - ((k.ramp + 2) * 200 : Nat))).modTx p fun x => { x with toTx := true } := by
  simp only [Dev.switchToTx, h, us_eq]

/-- The transmitter starts: TXTIME counts from here, and the port's frame of a group is on air (R141). -/
theorem Dev.rampUp_eq (ho : (d.ports[p]).tx.onSince = none) : d.rampUp p n =
    (let u := d.untilDatum (k.release - (k.ramp * 200 : Nat))
     u.modTx p fun x => { x with onSince := some u.now, mari := x.mari || k.param.getLsbD 8 }) := by
  simp only [Dev.rampUp, h, us_eq]
  refine Dev.modTx_congr ?_
  rw [Dev.untilDatum_ports, ho]
  rfl

end

/-! ### The end (R126) -/

section
variable {d : Dev} {p : PortId} {n : SlotId} {k : Stake} (hk : (d.ports[p]).sb.stakes[n] = some k)
include hk

theorem Dev.txFrameEnd_eq (ha : k.action = 1) (hs : k.state = .active) (hl : (d.ports[p]).tx.alive n = true) :
    d.txFrameEnd p n = (let u := d.until_ (k.firedAt + k.onAir)
      u.modTx p fun x => { x with rampDown := some u.now, cnt := x.cnt.set TxCnt.txdone.ix (x.cnt[TxCnt.txdone.ix] + 1) }) := by
  have hk' : d.stake p n = some k := hk
  simp only [Dev.txFrameEnd, hk', ha, hs, hl, and_self, if_true, Dev.countTx, Dev.modTx_modTx]

/-- The frame of an entry whose stake is on air leaves the buffer. -/
theorem Dev.releaseBuffer_active (hs : k.state = .active) : d.releaseBuffer p n = d.dropPrepared p n := by
  have hk' : d.stake p n = some k := hk
  simp only [Dev.releaseBuffer, hk', hs, reduceCtorEq, or_self, if_false]

theorem Dev.txOff_eq {x : Nat} (hs : k.state = .active) (hi : (d.ports[p]).tx.interval = some n)
    (he : (d.ports[p]).tx.endAt = none) (hr : (d.ports[p]).tx.rampDown = some x) :
    d.txOff p n = (let u := d.until_ (x + (d.ports[p]).tx.rampUs * 200)
      ((u.modTx p fun y =>
        { y with onSince := none, rampDown := none, toTx := false, mari := false
                 txtime := y.txtime + BitVec.ofNat 64 (u.now - y.onSince.getD u.now)
                 buffer := y.buffer.filter fun b => b.slot ≠ n }).femTo p
        (if (d.ports[p]).rx.rxctl.getLsbD 0 then .rx else .off)).returnHop p) := by
  have hn : ¬ (n ≠ n ∨ (none : Option Nat).isSome = true) := by simp
  simp only [Dev.txOff, hi, he, hr, if_neg hn, us_eq]
  rw [Dev.releaseBuffer_active (d := d.until_ _) hk hs, Dev.dropPrepared, Dev.modTx_modTx]
  congr 1
  exact Dev.femIdle_eq ((Dev.modPort_keeps Port.rx (fun _ => by rfl) _ p p).trans (by rw [Dev.until_ports]))

/-- The stake's own interval ends: its entry is FREE, and a port that is to sleep sleeps (R204). -/
theorem Dev.intervalEnd_eq (ha : k.action = 1) (hs : k.state = .active) (hi : (d.ports[p]).tx.interval ≠ some n) :
    d.intervalEnd p n =
      (let u := (d.until_ (k.firedAt + k.span)).modSb p fun x => { x with stakes := x.stakes.set n none }
       (if u.portAsleep p then u.portSleep p else u).serveCal (regionOfPort p)) := by
  have hk' : d.stake p n = some k := hk
  have hov : d.actionOver p n k = true := by simp only [Dev.actionOver, ha, hi, ne_eq, not_false_eq_true, decide_true]
  have h5 : ¬ (k.action = 5 ∧ bit k.param 0 = true) := by simp [ha]
  simp only [Dev.intervalEnd, hk', hs, hov, and_self, if_true, if_neg h5]
  rfl

end

/-- With no return hop due the interval ends 2 µs after the transmitter is off. -/
theorem Dev.returnHop_none {d : Dev} {p : PortId} (h : (d.ports[p]).tx.retHop = false) :
    d.returnHop p = d.modTx p fun x => { x with retHop := false, endAt := some (d.now + 400) } := by
  simp only [Dev.returnHop, h, Bool.false_eq_true, if_false, Bool.false_and, us_eq]

/-- The interval of the transmission ends, at the end of the return hop if there is one. -/
theorem Dev.txIntervalEnd_eq {d : Dev} {p : PortId} {n : SlotId} {e : Nat} (hi : (d.ports[p]).tx.interval = some n)
    (he : (d.ports[p]).tx.endAt = some e) (hr : (d.ports[p]).tx.retHop = false ∨ (d.ports[p]).syn.hop = none) :
    d.txIntervalEnd p n = ((d.until_ e).endTxInterval p).serveCal (regionOfPort p) := by
  have hc : (d.ports[p]).tx.interval = some n ∧ ((!(d.ports[p]).tx.retHop) = true ∨ (d.ports[p]).syn.hop.isNone = true) :=
    ⟨hi, hr.imp (by simp) (by simp)⟩
  simp only [Dev.txIntervalEnd, he, if_pos hc]

/-- What the end of the interval leaves, but for a retune that waited. -/
def Dev.txEnded (d : Dev) (p : PortId) : Dev :=
  (d.modTx p fun x => { x with interval := none, endAt := none, rampDown := none, retHop := false }).modSyn p fun x =>
    { x with heldHop := false }

theorem Dev.txEnded_rx (d : Dev) (p o : PortId) : ((d.txEnded p).ports[o]).rx = (d.ports[o]).rx :=
  (Dev.modPort_keeps Port.rx (fun _ => by rfl) _ p o).trans (Dev.modPort_keeps Port.rx (fun _ => by rfl) d p o)

theorem Dev.endTxInterval_plain {d : Dev} {p : PortId} (h : (d.ports[p]).syn.heldHop = false) :
    d.endTxInterval p = d.txEnded p := if_neg (Bool.eq_false_iff.mp h)

/-- A retune that waited for the end begins (R123). -/
theorem Dev.endTxInterval_held {d : Dev} {p : PortId} (h : (d.ports[p]).syn.heldHop = true) :
    d.endTxInterval p = ((d.txEnded p).retuneRx p).hop p (d.ports[p]).rx.rxfreq := by
  refine (if_pos h).trans ?_
  rw [← Dev.txEnded_rx d p p]
  rfl

/-- Settles O14: each event of the sequence is its own lemma, at its distance from the release. -/
theorem transmissionRunsItsTimedSequence : Obligations.TransmissionRunsItsTimedSequence := by
  intro s p n k hk ha
  refine ⟨fun hs hc hi he hr => ⟨fun hn => ?levels, fun w hn hw => ?tuned, ?switch, fun ho => ?rampUp⟩,
    fun hs hi he => ⟨fun hr => ?frameEnd, fun x hr => ?off⟩, fun d hr => Dev.returnHop_none hr,
    fun e hi he hr => ⟨fun hh => ?interval, fun hh => ?retune⟩, fun hs hi => ?free⟩
  case levels =>
    rw [exec_txFemLevels_eq]
    exact onDev_next (Dev.femLevels_plain (Dev.goingOn_eq hk ha hs hc (Tx.alive_of hi he hr)) hn)
  case tuned =>
    refine answers_onDev (exec_txFemLevels_eq p n s) fun t hram _ hdatum hports _ => ?_
    rw [Dev.femLevels_tuned (Dev.goingOn_eq hk ha hs hc (Tx.alive_of hi he hr)) hn hw] at hdatum hports
    rw [hports, hdatum]
    simp only [Dev.femTo, Dev.modSyn_eq, Dev.modTun_eq, Dev.modTx_eq, Dev.modPort_ports_self, Dev.modPort_datum,
      Dev.untilDatum_ports, hram, and_self]
  case switch =>
    rw [exec_txSwitchToTx_eq]
    exact onDev_next (Dev.switchToTx_eq (Dev.goingOn_eq hk ha hs hc (Tx.alive_of hi he hr)))
  case rampUp =>
    rw [exec_txRampUp_eq]
    exact onDev_next (Dev.rampUp_eq (Dev.goingOn_eq hk ha hs hc (Tx.alive_of hi he hr)) ho)
  case frameEnd =>
    rw [exec_txFrameEnd_eq]
    exact onDev_next (Dev.txFrameEnd_eq hk ha hs (Tx.alive_of hi he hr))
  case off =>
    rw [exec_txOff_eq]
    exact onDev_next (Dev.txOff_eq hk hs hi he hr)
  case interval =>
    rw [exec_txIntervalEnd_eq]
    refine onDev_next ((Dev.txIntervalEnd_eq hi he hr).trans ?_)
    rw [Dev.endTxInterval_plain (d := s.d.until_ e) hh]
    rfl
  case retune =>
    rw [exec_txIntervalEnd_eq]
    refine onDev_next ((Dev.txIntervalEnd_eq hi he hr).trans ?_)
    rw [Dev.endTxInterval_held (d := s.d.until_ e) hh]
    rfl
  case free =>
    rw [exec_stakeIntervalEnd_eq]
    exact onDev_next (Dev.intervalEnd_eq hk ha hs hi)

end Sys2Proof.Machine
end

section
/-! Hops (R118, R122, R123, R127, R468): what a port without a valid calibration does, in a region where none waits, when
a hop locks, a hop fails and lock is lost. -/

namespace Sys2Proof.Machine

theorem exec_hopLock_eq (p : PortId) (s : State) : exec (.hopLock p) s = .next (onDev (fun d => d.hopLock p) s) := rfl

theorem exec_hopFail_eq (p : PortId) (s : State) : exec (.hopFail p) s = .next (onDevW (fun d => d.hopFail p) s) := rfl

theorem exec_lockLost_eq (p : PortId) (s : State) : exec (.lockLost p) s = .next (onDev (fun d => d.lockLost p) s) := rfl

/-! ### Calibrations that are neither valid nor wanted -/

/-- A change that leaves the calibrations of a region where none is wanted asks for none. -/
theorem Dev.serveCal_keeps {d e : Dev} {r : RegionId} (hw : ∀ q ∈ portsOf r, (d.ports[q]).cal.wanted = false)
    (hc : ∀ o : PortId, (e.ports[o]).cal = (d.ports[o]).cal) : e.serveCal r = e :=
  Dev.serveCal_none fun q hq => by rw [hc]; exact hw q hq

theorem Dev.modSyn_cal (d : Dev) (p o : PortId) (f : Synth → Synth) : ((d.modSyn p f).ports[o]).cal = (d.ports[o]).cal :=
  Dev.modPort_keeps Port.cal (fun _ => by rfl) d p o

theorem Dev.modSyn_sb (d : Dev) (p o : PortId) (f : Synth → Synth) : ((d.modSyn p f).ports[o]).sb = (d.ports[o]).sb :=
  Dev.modPort_keeps Port.sb (fun _ => by rfl) d p o

theorem Dev.modSyn_syn (d : Dev) (p : PortId) (f : Synth → Synth) : ((d.modSyn p f).ports[p]).syn = f (d.ports[p]).syn := by
  rw [Dev.modSyn_eq, Dev.modPort_ports_self]

theorem Dev.modSyn_tx (d : Dev) (p o : PortId) (f : Synth → Synth) : ((d.modSyn p f).ports[o]).tx = (d.ports[o]).tx :=
  Dev.modPort_keeps Port.tx (fun _ => by rfl) d p o

theorem Dev.modSyn_rx (d : Dev) (p o : PortId) (f : Synth → Synth) : ((d.modSyn p f).ports[o]).rx = (d.ports[o]).rx :=
  Dev.modPort_keeps Port.rx (fun _ => by rfl) d p o

theorem RxOnly.cal {d e : Dev} (h : RxOnly d e) (o : PortId) : (e.ports[o]).cal = (d.ports[o]).cal := by
  rw [h.port o]

/-- A change that leaves the synthesizer as it stands is none. -/
theorem Dev.modSyn_self {d : Dev} {p : PortId} {f : Synth → Synth} (h : f (d.ports[p]).syn = (d.ports[p]).syn) :
    d.modSyn p f = d :=
  Dev.modPort_self (by rw [h])

/-- The phase epoch advances (R122). -/
def Synth.advanced (x : Synth) (t : Word64) : Synth := { x with epoch := x.epoch + 1, epochT := t }

section
variable {d : Dev} {p : PortId} (hv : (d.ports[p]).cal.calvalid = false)
include hv

theorem Dev.clearCal_invalid : d.clearCal p = d := if_neg (Bool.eq_false_iff.mp hv)

theorem Dev.advanceEpoch_invalid : d.advanceEpoch p false = d.modSyn p fun x => x.advanced d.datum.now :=
  Dev.clearCal_invalid (d := d.modSyn p fun x => x.advanced d.datum.now)
    ((congrArg Cal.calvalid (Dev.modSyn_cal d p p _)).trans hv)

theorem Dev.beginHop_invalid (f : Nat) (k : HopKind × Option (Fin 64)) (wake : Bool) : d.beginHop p f k wake =
    (d.modSyn p fun x => { x with
      lock := false, freq := f
      hop := some { target := f, kind := k.1, entry := k.2, wake, startAt := d.now, endAt := d.now + us k.1.settle } }).hopRx p := by
  have hm : d.calMoved p f = d := by
    rw [Dev.calMoved, Dev.clearCal_invalid hv, ite_self]
  rw [Dev.beginHop, hm]

end

/-! ### LOCK (R118, R123) -/

/-- The synthesizer once the result of a full calibration at f and temperature t is stored (R119). -/
def Synth.store (x : Synth) (t : Int) (f : Nat) (entry : Option (Fin 64)) : Synth :=
  match (match entry with | some e => if (x.bm[e]).freq = f then some e else x.storeAt f | none => x.storeAt f) with
  | some e => { x with bm := x.bm.set e { freq := f, valid := true, pin := (x.bm[e]).pin, temp := t, used := x.useCtr + 1 }
                       useCtr := x.useCtr + 1 }
  | none => { x with bmfull := true }

theorem Dev.storeCalibration_eq (d : Dev) (p : PortId) (f : Nat) (entry : Option (Fin 64)) : d.storeCalibration p f entry =
    d.modSyn p fun x => if freqOk f then x.store (d.ports[p]).cal.tnow f entry else x := by
  unfold Dev.storeCalibration
  cases hf : freqOk f with
  | false => exact (Dev.modPort_self rfl).symm
  | true => rfl

/-- Storing changes the table, the order of its use and BMFULL. -/
theorem Synth.store_keeps (x : Synth) (t : Int) (f : Nat) (entry : Option (Fin 64)) : x.store t f entry =
    { x with bm := (x.store t f entry).bm, useCtr := (x.store t f entry).useCtr, bmfull := (x.store t f entry).bmfull } := by
  unfold Synth.store
  split <;> rfl

/-- Either an entry holds the calibration, or the table is full. -/
theorem Synth.store_holds (x : Synth) (t : Int) (f : Nat) (entry : Option (Fin 64)) :
    (x.store t f entry).bmfull = true ∨ ∃ e : Fin 64, ((x.store t f entry).bm[e]).freq = f ∧
      ((x.store t f entry).bm[e]).valid = true ∧ ((x.store t f entry).bm[e]).temp = t := by
  unfold Synth.store
  split
  next e _ => exact .inr ⟨e, by simp only [vset_self, and_self]⟩
  next => exact .inl rfl

theorem Synth.touch_keeps (x : Synth) (entry : Option (Fin 64)) :
    x.touch entry = { x with bm := (x.touch entry).bm, useCtr := (x.touch entry).useCtr } := by
  cases entry <;> rfl

/-- The synthesizer at LOCK, before a phase change and a calibration's result are noted. -/
def Synth.locked (x : Synth) (h : Hop) : Synth :=
  { x.touch h.entry with lock := true, hop := none, lasthop := h.last, queued := none }

/-- The synthesizer that a hop with nothing queued behind it leaves, at datum value t and temperature c. -/
def Synth.hopped (x : Synth) (h : Hop) (t : Word64) (c : Int) : Synth :=
  match h.kind with
  | .table => if h.wake then (x.locked h).advanced t else x.locked h
  | .full =>
    let y := (x.locked h).advanced t
    if freqOk h.target then y.store c h.target h.entry else y

section
variable {d : Dev} {p : PortId} (hv : (d.ports[p]).cal.calvalid = false)
include hv

/-- A hop locks with nothing queued behind it. -/
theorem Dev.lockNow_eq (h : Hop) (hq : (d.ports[p]).syn.queued = none) :
    d.lockNow p h = d.modSyn p fun x => x.hopped h d.datum.now (d.ports[p]).cal.tnow := by
  have hl : ((d.modSyn p (·.locked h)).ports[p]).cal.calvalid = false := by rw [Dev.modSyn_cal]; exact hv
  have he : (d.modSyn p (·.locked h)).advanceEpoch p false = d.modSyn p fun x => (x.locked h).advanced d.datum.now :=
    (Dev.advanceEpoch_invalid hl).trans (Dev.modSyn_modSyn d p _ _)
  simp only [Synth.locked] at he
  cases hk : h.kind with
  | table => cases hw : h.wake <;> simp only [Dev.lockNow, Synth.hopped, Synth.locked, hq, hk, hw, he, if_true, Bool.false_eq_true, if_false]
  | full =>
    simp only [Dev.lockNow, Synth.hopped, Synth.locked, hq, hk, he, Dev.storeCalibration_eq, Dev.modSyn_modSyn, Dev.modSyn_cal]

/-- A hop locks that is no step of a FILL, and no calibration is asked for. -/
theorem Dev.hopLock_eq {h : Hop} (hh : (d.ports[p]).syn.hop = some h) (hq : (d.ports[p]).syn.queued = none)
    (hf : (d.ports[p]).sb.filling = none) (hw : ∀ q ∈ portsOf (regionOfPort p), (d.ports[q]).cal.wanted = false) :
    d.hopLock p = (d.until_ h.endAt).modSyn p fun x => x.hopped h (d.until_ h.endAt).datum.now (d.ports[p]).cal.tnow := by
  have hs (f : Synth → Synth) : (((d.until_ h.endAt).modSyn p f).ports[p]).sb.filling = none := by
    rw [Dev.modSyn_sb, Dev.until_ports, hf]
  simp only [Dev.hopLock, hh]
  rw [Dev.lockNow_eq (d := d.until_ h.endAt) hv h hq]
  simp only [hs]
  exact Dev.serveCal_keeps (d := d.until_ h.endAt) hw fun o => Dev.modSyn_cal _ p o _

end

/-! What a hop that locks leaves. -/

theorem Synth.hopped_table {x : Synth} {h : Hop} {t : Word64} {c : Int} (hk : h.kind = .table) (hw : h.wake = false) :
    x.hopped h t c = x.locked h := by
  simp only [Synth.hopped, hk, hw, Bool.false_eq_true, if_false]

theorem Synth.hopped_lock (x : Synth) (h : Hop) (t : Word64) (c : Int) : (x.hopped h t c).lock = true ∧
    (x.hopped h t c).hop = none ∧ (x.hopped h t c).lasthop = h.last ∧ (x.hopped h t c).freq = x.freq := by
  have hf : (x.locked h).freq = x.freq := by rw [Synth.locked, Synth.touch_keeps]
  unfold Synth.hopped
  split
  · split
    · exact ⟨rfl, rfl, rfl, hf⟩
    · exact ⟨rfl, rfl, rfl, hf⟩
  · dsimp only
    split
    · rw [Synth.store_keeps]
      exact ⟨rfl, rfl, rfl, hf⟩
    · exact ⟨rfl, rfl, rfl, hf⟩

/-- A relock on wake and a full calibration advance the phase epoch (R122). -/
theorem Synth.hopped_epoch (x : Synth) {h : Hop} (t : Word64) (c : Int) (hk : h.wake = true ∨ h.kind = .full) :
    (x.hopped h t c).epoch = x.epoch + 1 ∧ (x.hopped h t c).epochT = t := by
  have he : (x.locked h).epoch = x.epoch := by rw [Synth.locked, Synth.touch_keeps]
  have ha : ((x.locked h).advanced t).epoch = x.epoch + 1 := congrArg (· + 1) he
  unfold Synth.hopped
  split
  next hk' =>
    have hw : h.wake = true := hk.resolve_right (by rw [hk']; exact HopKind.noConfusion)
    rw [if_pos hw]
    exact ⟨ha, rfl⟩
  next =>
    dsimp only
    split
    · rw [Synth.store_keeps]
      exact ⟨ha, rfl⟩
    · exact ⟨ha, rfl⟩

/-- A full calibration at an F of R72 is stored, or the table is full. -/
theorem Synth.hopped_stored (x : Synth) {h : Hop} (t : Word64) (c : Int) (hk : h.kind = .full)
    (hf : freqOk h.target = true) : (x.hopped h t c).bmfull = true ∨ ∃ e : Fin 64,
      ((x.hopped h t c).bm[e]).freq = h.target ∧ ((x.hopped h t c).bm[e]).valid = true ∧ ((x.hopped h t c).bm[e]).temp = c := by
  have hs : x.hopped h t c = ((x.locked h).advanced t).store c h.target h.entry := by
    simp only [Synth.hopped, hk, hf, if_true]
  rw [hs]
  exact Synth.store_holds _ c h.target h.entry

/-! ### Failure (R468) -/

/-- The hop that has failed: UNLOCK sets, a table entry that failed is valid no more. -/
def Synth.failed (x : Synth) (h : Hop) : Synth :=
  { x with unlock := true
           bm := match h.kind, h.entry with
             | .table, some e => x.bm.set e { x.bm[e] with valid := false }
             | _, _ => x.bm }

theorem State.begun_until_datum (s : State) (t : Nat) : (s.begun.d.until_ t).datum = (s.d.until_ t).datum := rfl

/-- A failure has been charged: a port that goes on in service makes a full calibration at the same target. -/
def Dev.retryHop (d : Dev) (p : PortId) (h : Hop) : Dev :=
  if (d.ports[p]).rx.retired then d
  else (((d.beginHop p h.target (.full, match h.kind with | .full => h.entry | .table => none) false)).modSyn p fun x =>
    { x with queued := (d.ports[p]).syn.queued }).serveCal (regionOfPort p)

theorem Dev.hopFail_eq {d u : Dev} {p : PortId} (hv : (d.ports[p]).cal.calvalid = false) {h : Hop}
    (hh : (d.ports[p]).syn.hop = some h) (hu : d.until_ (h.startAt + 2 * (h.kind.settle * 200)) = u) : d.hopFail p =
      ((u.modSyn p fun x => (x.failed h).advanced u.datum.now).charge (.unit (.port p)) 10).retryHop p h := by
  have ha : (u.modSyn p (·.failed h)).advanceEpoch p false = u.modSyn p fun x => (x.failed h).advanced u.datum.now :=
    (Dev.advanceEpoch_invalid (by rw [Dev.modSyn_cal, ← hu]; exact hv)).trans (Dev.modSyn_modSyn u p _ _)
  rw [← ha]
  generalize hc : ((u.modSyn p (·.failed h)).advanceEpoch p false).charge (.unit (.port p)) 10 = c
  obtain ⟨target, kind, entry, wake, startAt, endAt⟩ := h
  cases kind <;> cases entry <;> simp only [Synth.failed] at hc <;> simp only [Dev.hopFail, hh, us_eq, hu, hc, Dev.retryHop]

/-! ### Loss of lock (R127) -/

/-- The synthesizer that has lost its lock. -/
def Synth.lost (x : Synth) (t : Word64) : Synth :=
  { x with lock := false, unlock := true, hop := none }.advanced t

/-- A relock is never refused (R468). -/
theorem Port.hopTo_relock (x : Port) (f : Nat) : ∃ k, x.hopTo f true = some k := by
  have hs : (if true = true ∧ x.syn.calsel = 2 then 0 else x.syn.calsel) ≠ 2 := by split <;> simp_all
  unfold Port.hopTo
  dsimp only
  generalize (if true = true ∧ x.syn.calsel = 2 then 0 else x.syn.calsel) = sel at hs ⊢
  cases x.entryFor f with
  | none => exact ⟨_, if_neg hs⟩
  | some e =>
    by_cases h1 : sel = 1
    · exact ⟨_, if_pos h1⟩
    · exact ⟨_, if_neg h1⟩

section
variable {d : Dev} {p : PortId} (hv : (d.ports[p]).cal.calvalid = false)
include hv

theorem Dev.relock_invalid (wake : Bool) : ∃ h : Hop,
    d.relock p wake = (d.modSyn p fun x => { x with lock := false, hop := some h }).hopRx p := by
  obtain ⟨k, hk⟩ := Port.hopTo_relock (d.ports[p]) (d.ports[p]).syn.freq
  simp only [Dev.relock, hk, Dev.beginHop_invalid hv]
  exact ⟨_, congrArg (·.hopRx p) (Dev.modSyn_congr rfl)⟩

/-- A port without lock relocks at its F, unless the datum runs on holdover. -/
theorem Dev.relockNow_leaves (hl : (d.ports[p]).syn.lock = false) (hn : (d.ports[p]).syn.hop = none) :
    ∃ h : Option Hop, h.isSome = !d.datum.holdover ∧
      RxOnly (d.modSyn p fun x => { x with lock := false, hop := h }) (d.relockNow p) := by
  have hc : ((d.ports[p]).syn.hop.isNone && !d.datum.holdover) = !d.datum.holdover := by
    rw [hn, Option.isNone_none, Bool.true_and]
  rw [Dev.relockNow, hc]
  cases d.datum.holdover with
  | true =>
    have hx : { (d.ports[p]).syn with lock := false, hop := none } = (d.ports[p]).syn := by rw [← hl, ← hn]
    refine ⟨none, rfl, ?_⟩
    rw [Dev.modSyn_self hx]
    exact RxOnly.refl d
  | false =>
    obtain ⟨h, hr⟩ := Dev.relock_invalid hv false
    refine ⟨some h, rfl, ?_⟩
    rw [if_pos Bool.not_false, hr]
    exact RxOnly.hopRx _ p

omit hv in
/-- With no transmission under way nothing is cut. -/
theorem Dev.cutFrame_none (hi : (d.ports[p]).tx.interval = none) : d.cutFrame p = d := by
  simp only [Dev.cutFrame, Dev.cuttable, hi]

/-- Lock is lost while no transmission runs: nothing is cut. -/
theorem Dev.lockLost_leaves (hl : (d.ports[p]).syn.lock = true) (hi : (d.ports[p]).tx.interval = none)
    (hw : ∀ q ∈ portsOf (regionOfPort p), (d.ports[q]).cal.wanted = false) :
    ∃ h : Option Hop, h.isSome = !d.datum.holdover ∧
      ((d.lockLost p).ports[p]).syn = { (d.ports[p]).syn.lost d.datum.now with hop := h } ∧
      ((d.lockLost p).ports[p]).tx = (d.ports[p]).tx := by
  have ha : d.loseLock p = d.modSyn p (·.lost d.datum.now) :=
    (Dev.advanceEpoch_invalid (by rw [Dev.modSyn_cal]; exact hv)).trans (Dev.modSyn_modSyn d p _ _)
  have hb : RxOnly (d.modSyn p (·.lost d.datum.now)) ((d.loseLock p).hopRx p) := ha ▸ RxOnly.hopRx _ p
  have he : d.lockLost p = ((((d.loseLock p).hopRx p).cutFrame p).relockNow p).serveCal (regionOfPort p) :=
    if_neg (by simp only [hl, Bool.not_true, Bool.false_eq_true, not_false_eq_true])
  generalize (d.loseLock p).hopRx p = b at hb he
  have hsyn : (b.ports[p]).syn = (d.ports[p]).syn.lost d.datum.now := by rw [hb.port p, Dev.modSyn_syn]
  have htx : (b.ports[p]).tx = (d.ports[p]).tx := by rw [hb.port p, Dev.modSyn_tx]
  have hcal (o : PortId) : (b.ports[o]).cal = (d.ports[o]).cal := by rw [hb.cal o, Dev.modSyn_cal]
  have hdatum : b.datum = d.datum := by rw [hb.rest]; rfl
  obtain ⟨h, hh, hc⟩ := Dev.relockNow_leaves (d := b) (p := p) (by rw [hcal, hv]) (by rw [hsyn]; rfl) (by rw [hsyn]; rfl)
  rw [Dev.cutFrame_none (by rw [htx, hi]), Dev.serveCal_keeps hw fun o => by rw [hc.cal o, Dev.modSyn_cal, hcal]] at he
  rw [he]
  refine ⟨h, by rw [hh, hdatum], ?_, ?_⟩
  · rw [hc.port p, Dev.modSyn_syn, hsyn]
    rfl
  · rw [hc.port p, Dev.modSyn_tx, htx]

end

/-- Settles O12: what a lock, a failure and a loss of lock leave, each by its own lemma. -/
theorem hopsLockFailAndRelock : Obligations.HopsLockFailAndRelock := by
  intro s p hw hv hf
  refine ⟨fun h hh hq => ⟨fun hk hwake e he => ?table, fun hwake => ?wake, fun hk hwake => ?full, ?fails⟩, fun hl hi => ?lost⟩
  case table =>
    rw [exec_hopLock_eq]
    refine onDev_next ((Dev.hopLock_eq hv hh hq hf hw).trans (Dev.modSyn_congr ?_))
    rw [Synth.hopped_table hk hwake]
    simp only [Synth.locked, Synth.touch, Hop.last, he, hk, hwake, Bool.false_eq_true, if_false, Dev.until_ports]
  case wake =>
    refine answers_onDev (exec_hopLock_eq p s) fun t hram _ _ hports _ => ?_
    rw [hports, Dev.hopLock_eq hv hh hq hf hw, Dev.modSyn_syn, Dev.until_ports]
    obtain ⟨hlock, -, hlast, -⟩ := Synth.hopped_lock (s.d.ports[p]).syn h (s.d.until_ h.endAt).datum.now (s.d.ports[p]).cal.tnow
    obtain ⟨hepoch, -⟩ := Synth.hopped_epoch (s.d.ports[p]).syn (s.d.until_ h.endAt).datum.now (s.d.ports[p]).cal.tnow (.inl hwake)
    exact ⟨hlock, hlast.trans (if_pos hwake), hepoch, hram⟩
  case full =>
    refine answers_onDev (exec_hopLock_eq p s) fun t hram _ hdatum hports _ => ?_
    rw [Dev.hopLock_eq hv hh hq hf hw] at hdatum hports
    rw [hports, hdatum, Dev.modSyn_syn, Dev.until_ports]
    obtain ⟨hlock, hhop, hlast, hfreq⟩ :=
      Synth.hopped_lock (s.d.ports[p]).syn h (s.d.until_ h.endAt).datum.now (s.d.ports[p]).cal.tnow
    obtain ⟨hepoch, hepochT⟩ :=
      Synth.hopped_epoch (s.d.ports[p]).syn (s.d.until_ h.endAt).datum.now (s.d.ports[p]).cal.tnow (.inr hk)
    have hl : h.last = 2 := by simp only [Hop.last, hwake, hk, Bool.false_eq_true, if_false]
    exact ⟨hlock, hhop, hlast.trans hl, hfreq, hepoch, hepochT,
      fun hlo hhi => Synth.hopped_stored _ _ _ hk (by simp only [freqOk, hlo, hhi, decide_true, Bool.and_self]),
      fun o ho => Dev.modPort_ports_ne _ _ _ _ ho, hram⟩
  case fails =>
    rw [exec_hopFail_eq]
    refine onDevW_next ((Dev.hopFail_eq (d := s.begun.d) hv hh rfl).trans ?_)
    rw [State.begun_until_datum]
    rfl
  case lost =>
    refine answers_onDev (exec_lockLost_eq p s) fun t hram _ _ hports _ => ?_
    obtain ⟨h, hh, hsyn, htx⟩ := Dev.lockLost_leaves hv hl hi hw
    rw [hports, hsyn, htx]
    exact ⟨rfl, rfl, rfl, rfl, hh, rfl, hram⟩

end Sys2Proof.Machine
end

section
/-! Writes of a port's synthesizer, transmitter, tuner and calibration registers (R120, R130, R133, R137, R143). -/

namespace Sys2Proof.Machine

/-! ### The page (R142, R143) -/

/-- From offset 0x8000 to 0xBFFF a port's page holds the transmit-side registers. -/
theorem Dev.portWrite_tx {d : Dev} {p : PortId} {o : Nat} {v : Word} (h : 0x8000 ≤ o ∧ o < 0xC000) :
    d.portWrite p o v = d.txWrite p o v := by
  rw [Dev.portWrite, if_neg (by omega), if_pos h.2]

/-- The write of a transmit-side register of a port that answers, by an initiator that may write it. -/
theorem rowWrite_txReg {i : Initiator} {p : PortId} {o : Nat} {v : Word} {s : State} {g : Dev → Dev}
    (ho : 0x8000 ≤ o ∧ o < 0xC000) (hp : s.d.portAnswers p) (hi : s.d.mayWrite i (portBase p + o))
    (h : s.begun.d.txWrite p o v = g s.begun.d) :
    (Host.Outcome.next (rowWrite i (portBase p + o) v s) : Host.Outcome State Fault Refusal) =
      .next (onDevW (fun d => (g d).answer i .done) s) :=
  rowWrite_portReg rfl (by omega) hp hi ((Dev.portWrite_tx ho).trans h)

/-! ### The rows are writes of their registers -/

theorem exec_portBmFreqWrite_eq (i : Initiator) (p : PortId) (e : Fin 64) (v : Word) (s : State) :
    exec (.portBmFreqWrite i p e v) s = .next (rowWrite i (portBase p + 0x8100 + 8 * e.val) v s) := rfl

theorem exec_portBmctlFill_eq (i : Initiator) (p : PortId) (v : Word) (s : State) :
    exec (.portBmctlFill i p v) s = .next (rowWrite i (portBase p + 0x8010) v s) := rfl

theorem exec_portBmctlInvall_eq (i : Initiator) (p : PortId) (v : Word) (s : State) :
    exec (.portBmctlInvall i p v) s = .next (rowWrite i (portBase p + 0x8010) v s) := rfl

theorem exec_portTxpwrWrite_eq (i : Initiator) (p : PortId) (v : Word) (s : State) :
    exec (.portTxpwrWrite i p v) s = .next (rowWrite i (portBase p + 0x8404) v s) := rfl

theorem exec_portTxcntclr_eq (i : Initiator) (p : PortId) (v : Word) (s : State) :
    exec (.portTxcntclr i p v) s = .next (rowWrite i (portBase p + 0x8414) v s) := rfl

theorem exec_portTuneWrite_eq (i : Initiator) (p : PortId) (v : Word) (s : State) :
    exec (.portTuneWrite i p v) s = .next (rowWrite i (portBase p + 0x8800) v s) := rfl

theorem exec_portTuneResume_eq (i : Initiator) (p : PortId) (v : Word) (s : State) :
    exec (.portTuneResume i p v) s = .next (rowWrite i (portBase p + 0x8804) v s) := rfl

theorem exec_portCalRunnow_eq (i : Initiator) (p : PortId) (v : Word) (s : State) :
    exec (.portCalRunnow i p v) s = .next (rowWrite i (portBase p + 0x8C00) v s) := rfl

/-! ### What each register's write does -/

section
variable {d : Dev} {p : PortId} {v : Word}

/-- PORT_BMe_FREQ: the entry takes the frequency and is valid no more (R120). -/
theorem Dev.txWrite_bmFreq (e : Fin 64) : d.txWrite p (0x8100 + 8 * e.val) v = d.modSyn p fun x =>
    { x with bm := x.bm.set e { x.bm[e] with freq := (v.setWidth 30).toNat, valid := false } } := by
  have he : Fin.ofNat 64 ((0x8100 + 8 * e.val - 0x8100) / 8) = e := Fin.ext (by simp)
  have h8 : (0x8100 + 8 * e.val) % 8 = 0 := by omega
  have hf : fld v 0 30 = (v.setWidth 30).toNat := by rw [fld_eq_toNat, BitVec.ushiftRight_zero]
  refine (if_pos (show 0x8100 ≤ 0x8100 + 8 * e.val ∧ 0x8100 + 8 * e.val < 0x8300 by omega)).trans ?_
  simp only [Dev.bmWrite, he, if_pos h8, hf]

/-- PORT_BMCTL: INVALL, then FILL (R120). -/
theorem Dev.txWrite_bmctl : d.txWrite p 0x8010 v =
    (let e := if v.getLsbD 1 then d.modSyn p fun x => { x with bm := vmap x.bm fun b => { b with valid := false } } else d
     if v.getLsbD 0 then e.bmFill p else e) := rfl

/-- The entries that FILL books (R120). -/
theorem bmFill_entries (x : Synth) : ((List.finRange 64).filter fun e => !(x.bm[e]).valid && freqOk (x.bm[e]).freq) =
    (List.finRange 64).filter fun e =>
      !(x.bm[e]).valid && decide (400000000 ≤ (x.bm[e]).freq) && decide ((x.bm[e]).freq ≤ 960000000) := by
  simp only [freqOk, Bool.and_assoc]

theorem Dev.bmFill_none (h : ∀ e : Fin 64, ((d.ports[p]).syn.bm[e]).valid = true ∨
    ((d.ports[p]).syn.bm[e]).freq < 400000000 ∨ 960000000 < ((d.ports[p]).syn.bm[e]).freq) : d.bmFill p = d := by
  refine if_pos ?_
  rw [bmFill_entries]
  refine List.filter_eq_nil_iff.mpr fun e _ => ?_
  rcases h e with hv | hlo | hhi
  · simp [-Fin.getElem_fin, hv]
  · simp [-Fin.getElem_fin, Nat.not_le.mpr hlo]
  · simp [-Fin.getElem_fin, Nat.not_le.mpr hhi]

theorem Dev.bmFill_books {es : List (Fin 64)} (hne : es ≠ []) (he : es = (List.finRange 64).filter fun e =>
    !((d.ports[p]).syn.bm[e]).valid && decide (400000000 ≤ ((d.ports[p]).syn.bm[e]).freq) &&
      decide (((d.ports[p]).syn.bm[e]).freq ≤ 960000000)) : d.bmFill p = (d.bookEarliest p (fillReq es)).1 := by
  rw [← bmFill_entries] at he
  simp only [Dev.bmFill, ← he]
  exact if_neg hne

/-- PORT_TUNE: the loop freezes in the state written, and a change of state advances the phase epoch (R133). -/
theorem Dev.txWrite_tune : d.txWrite p 0x8800 v =
    (let e := d.modTun p fun x => { x with tune := v &&& 0x3FFF, frozen := true, next := none, trial := false }
     if (d.ports[p]).tun.tune = v &&& 0x3FFF then e
     else e.modSyn p fun x => { x with epoch := x.epoch + 1, epochT := d.datum.now }) := by
  change (d.modTun p fun x => { x with frozen := true, next := none, trial := false }).applyTune p (v &&& 0x3FFF) = _
  have ht : ((d.modTun p fun x => { x with frozen := true, next := none, trial := false }).ports[p]).tun.tune =
      (d.ports[p]).tun.tune := by
    rw [Dev.modTun_eq, Dev.modPort_ports_self]
  by_cases h : (d.ports[p]).tun.tune = v &&& 0x3FFF
  · rw [if_pos h, Dev.applyTune, if_pos (ht.trans h)]
    exact Dev.modTun_congr (by rw [← h])
  · rw [if_neg h, Dev.applyTune_ne (ht ▸ h), Dev.modTun_modTun]
    rfl

/-- PORT_TUNECTL with RESUME: the loop goes on from the state in effect (R133). -/
theorem Dev.txWrite_resume (h : v.getLsbD 1 = true) : d.txWrite p 0x8804 v = d.modTun p fun x =>
    { x with ctl := v &&& 0x003F3F00, held := x.held && !v.getLsbD 2, mismatch := x.mismatch && !v.getLsbD 3
             frozen := false, best := if x.rlTune = some x.tune then x.rl else 0, bestTune := x.tune, next := none
             trial := false } := by
  change d.modTun p (fun x =>
    let y := { x with ctl := v &&& 0x003F3F00, held := x.held && !bit v 2, mismatch := x.mismatch && !bit v 3 }
    if bit v 1 then y.resume else y) = _
  exact Dev.modTun_congr (if_pos h)

/-- PORT_CAL with RUNNOW: a calibration is wanted (R137). -/
theorem Dev.txWrite_calRunnow (h : v.getLsbD 0 = true) : d.txWrite p 0x8C00 v = (d.modCal p fun x =>
    { x with auto := v.getLsbD 1, wanted := true, blocked := false }).serveCal (regionOfPort p) := by
  refine (if_pos h).trans ?_
  rw [Dev.calRunNow, Dev.modCal_modCal]
  rfl

end

/-- Settles O10: each row is one access, and what it leaves is what its register's write does. -/
theorem portTransmitRegisterWrites : Obligations.PortTransmitRegisterWrites := by
  intro s i p v hp
  refine ⟨fun e hi => ?bmFreq, fun hi => ⟨fun h1 h0 => ?invall, fun h1 h0 => ⟨fun h => ?fillNone, fun es hne he => ?fill⟩⟩,
    fun hi => ?txpwr, fun hi h => ?cntclr, fun hi => ?tune, fun hi h => ?resume, fun hi h => ?runnow⟩
  case bmFreq =>
    rw [Nat.add_assoc] at hi
    rw [exec_portBmFreqWrite_eq, Nat.add_assoc]
    exact rowWrite_txReg (by omega) hp hi (Dev.txWrite_bmFreq e)
  case invall =>
    rw [exec_portBmctlInvall_eq]
    refine rowWrite_txReg (by decide) hp hi (Dev.txWrite_bmctl.trans ?_)
    simp only [h1, h0, if_true, Bool.false_eq_true, if_false]
  case fillNone =>
    rw [exec_portBmctlFill_eq]
    refine rowWrite_txReg (g := fun d => d) (by decide) hp hi (Dev.txWrite_bmctl.trans ?_)
    simp only [h1, h0, if_true, Bool.false_eq_true, if_false]
    exact Dev.bmFill_none h
  case fill =>
    rw [exec_portBmctlFill_eq]
    refine rowWrite_txReg (by decide) hp hi (Dev.txWrite_bmctl.trans ?_)
    simp only [h1, h0, if_true, Bool.false_eq_true, if_false]
    exact Dev.bmFill_books hne he
  case txpwr =>
    rw [exec_portTxpwrWrite_eq]
    exact rowWrite_txReg (by decide) hp hi rfl
  case cntclr =>
    rw [exec_portTxcntclr_eq]
    exact rowWrite_txReg (by decide) hp hi (if_pos h)
  case tune =>
    rw [exec_portTuneWrite_eq]
    exact rowWrite_txReg (by decide) hp hi Dev.txWrite_tune
  case resume =>
    rw [exec_portTuneResume_eq]
    exact rowWrite_txReg (by decide) hp hi (Dev.txWrite_resume h)
  case runnow =>
    rw [exec_portCalRunnow_eq]
    exact rowWrite_txReg (by decide) hp hi (Dev.txWrite_calRunnow h)

end Sys2Proof.Machine
end

section
/-! Return loss (R132, R133): what a measurement leaves in the tuner, and that events change no port (R376 to R383). -/

namespace Sys2Proof.Machine

/-! ### Events change no port -/

section
variable (d : Dev)

theorem Dev.lutEval_ports (j : Fin 16) : (d.lutEval j).1.ports = d.ports := rfl

theorem Dev.forward_ports (n : Fin 64) (h : Nat) : (d.forward n h).1.ports = d.ports := rfl

theorem Dev.channelEvent_ports (n : Fin 64) (h : Nat) : (d.channelEvent n h).1.ports = d.ports := by
  unfold Dev.channelEvent
  dsimp only
  split_ifs <;> rfl

theorem Dev.reachChannels_ports (evs : List Ev) (l : List (Fin 64)) : (Dev.reachChannels evs l d).1.ports = d.ports := by
  induction l generalizing d with
  | nil => rfl
  | cons n l ih =>
    rw [Dev.reachChannels]
    split
    · exact ih d
    · refine (ih _).trans ((Dev.channelEvent_ports _ _ _).trans ?_)
      split <;> rfl

theorem Dev.runTask_ports (g : Trig) : (d.runTask g).ports = d.ports := by
  unfold Dev.runTask
  dsimp only
  split_ifs <;> rfl

theorem Dev.taskInput_ports (g : Trig × Nat) : (d.taskInput g).1.ports = d.ports := by
  have hm : (if 0 < g.2 then d.modTask g.1.task fun x => { x with merged := x.merged + 1 } else d).ports = d.ports := by
    split <;> rfl
  unfold Dev.taskInput
  dsimp only
  generalize (if 0 < g.2 then d.modTask g.1.task fun x => { x with merged := x.merged + 1 } else d) = e at hm ⊢
  split
  · exact hm
  · split
    · exact (Dev.runTask_ports e g.1).trans hm
    · exact (Dev.runTask_ports e g.1).trans hm

theorem Dev.taskInputs_ports (l : List (Trig × Nat)) : (Dev.taskInputs l d).1.ports = d.ports := by
  induction l generalizing d with
  | nil => rfl
  | cons g l ih => exact (ih _).trans (d.taskInput_ports g)

theorem Dev.runEvents_ports (k : Nat) (evs : List Ev) : (Dev.runEvents k evs d).ports = d.ports := by
  induction k generalizing evs d with
  | zero => rfl
  | succ k ih =>
    rw [Dev.runEvents]
    split
    · rfl
    · exact (ih _ _).trans ((Dev.taskInputs_ports _ _).trans (Dev.reachChannels_ports _ _ _))

theorem Dev.fire_ports (evs : List Ev) : (d.fire evs).ports = d.ports := by
  unfold Dev.fire
  split
  · exact Dev.runEvents_ports d 9 evs
  · rfl

end

/-! ### What the loop makes of a measurement (R132) -/

theorem exec_tunerRlMeasured_eq (p : PortId) (rl : Nat) (s : State) :
    exec (.tunerRlMeasured p rl) s = .next (onDev (fun d => d.tunerMeasured p rl) s) := rfl

/-- From x to y a return loss is noted; the state in effect, FROZEN and the thresholds stand. -/
def Tuner.Notes (x : Tuner) (rl : Nat) (y : Tuner) : Prop :=
  y.rl = rl ∧ y.valid = true ∧ y.measured = true ∧ y.tune = x.tune ∧ y.frozen = x.frozen ∧ y.ctl = x.ctl ∧
    y.mismatch = (x.mismatch || decide (rl < fld x.ctl 8 6))

/-- A trial changes what comes next, and nothing else. -/
theorem Tuner.Notes.tryNext {x y : Tuner} {rl : Nat} (h : x.Notes rl y) : x.Notes rl y.tryNext := by
  unfold Tuner.tryNext
  split <;> exact h

/-- Whatever the loop does next, the return loss is noted. -/
theorem Tuner.measure_notes (x : Tuner) (rl : Nat) : x.Notes rl (x.measure rl) := by
  have hn : x.Notes rl { x with
      rl, rlTune := some x.tune, valid := true, measured := true, mismatch := x.mismatch || rl < fld x.ctl 8 6 } :=
    ⟨rfl, rfl, rfl, rfl, rfl, rfl, rfl⟩
  unfold Tuner.measure
  dsimp only
  split
  · split <;> exact hn
  · split
    · split
      · split
        · exact Tuner.Notes.tryNext hn
        · exact hn
      · exact hn
    · split
      · exact Tuner.Notes.tryNext hn
      · exact hn

section
variable {x : Tuner} {rl : Nat} (hm : fld x.ctl 8 6 ≤ rl)
include hm

/-- At RLMIN or above no mismatch is found. -/
theorem Tuner.mismatch_stands : (x.mismatch || decide (rl < fld x.ctl 8 6)) = x.mismatch := by
  rw [decide_eq_false (Nat.not_lt.mpr hm), Bool.or_false]

/-- A frozen loop only notes HELD where the goal is missed. -/
theorem Tuner.measure_frozen (h : x.frozen = true) : x.measure rl =
    { x with rl := rl, rlTune := some x.tune, valid := true, measured := true
             held := x.held || decide (rl < fld x.ctl 16 6) } := by
  simp only [Tuner.measure, Tuner.mismatch_stands hm, h, if_true]
  by_cases hg : rl < fld x.ctl 16 6
  · rw [if_pos hg, decide_eq_true hg, Bool.or_true]
  · rw [if_neg hg, decide_eq_false hg, Bool.or_false]

/-- With no trial under way a state that reaches the goal is kept. -/
theorem Tuner.measure_reached (h : x.frozen = false) (ht : x.trial = false) (hg : fld x.ctl 16 6 ≤ rl) : x.measure rl =
    { x with rl := rl, rlTune := some x.tune, valid := true, measured := true
             best := if x.bestTune = x.tune then max x.best rl else rl, bestTune := x.tune } := by
  simp only [Tuner.measure, Tuner.mismatch_stands hm, h, ht, Nat.not_lt.mpr hg, Bool.false_eq_true, false_and, if_false]

end

/-! ### The measurement (R132) -/

section
variable {d : Dev} {p : PortId} {n : SlotId} {k : Stake} {rl : Nat} (hi : (d.ports[p]).tx.interval = some n)
  (hk : (d.ports[p]).sb.stakes[n] = some k) (hs : k.state = .active) (ho : (d.ports[p]).tx.onSince.isSome = true)
  (hr : (d.ports[p]).tx.rampDown = none) (hm : (d.ports[p]).tun.measured = false)
include hi hk hs ho hr hm

/-- A transmission on air and not yet measured is measured 64 µs after its release; a mismatch may fire the producer. -/
theorem Dev.tunerMeasured_eq : d.tunerMeasured p rl =
    (let u := (d.until_ (k.firedAt + 64 * 200)).modTun p fun x => x.measure (min 63 rl)
     if min 63 rl < fld (d.ports[p]).tun.ctl 8 6 ∧ u.portAwake p then u.fire [⟨0x48 + p.val, 0⟩] else u) := by
  have hb : ((d.ports[p]).tx.interval.bind fun n => d.stake p n) = some k := by
    rw [hi]
    exact hk
  simp only [Dev.tunerMeasured, hb, hs, ho, hr, hm, us_eq, Bool.not_false, and_self, if_true]
  rfl

theorem Dev.tunerMeasured_ports : (d.tunerMeasured p rl).ports = (d.modTun p fun x => x.measure (min 63 rl)).ports := by
  rw [Dev.tunerMeasured_eq hi hk hs ho hr hm]
  dsimp only
  split
  · rw [Dev.fire_ports]
    rfl
  · rfl

/-- At RLMIN or above no producer fires. -/
theorem Dev.tunerMeasured_quiet (h64 : rl < 64) (hq : fld (d.ports[p]).tun.ctl 8 6 ≤ rl) :
    d.tunerMeasured p rl = (d.until_ (k.firedAt + 64 * 200)).modTun p fun x => x.measure rl := by
  have h63 : min 63 rl = rl := by omega
  rw [Dev.tunerMeasured_eq hi hk hs ho hr hm, h63]
  exact if_neg fun h => Nat.not_lt.mpr hq h.1

end

/-- Settles O16: the return loss is noted in every case; above RLMIN the loop's two answers are those of its step. -/
theorem returnLossIsMeasuredAndKept : Obligations.ReturnLossIsMeasuredAndKept := by
  intro s p n k rl hi hk hs ho hr hm x
  refine ⟨?noted, fun h64 hq => ⟨fun hf => ?frozen, fun hf ht hg => ?kept⟩⟩
  case noted =>
    refine answers_onDev (exec_tunerRlMeasured_eq p rl s) fun t hram _ _ hports _ => ?_
    obtain ⟨hrl, hvalid, hmeasured, htune, hfrozen, hctl, hmismatch⟩ := Tuner.measure_notes x (min 63 rl)
    rw [hports, Dev.tunerMeasured_ports hi hk hs ho hr hm, Dev.modTun_eq, Dev.modPort_ports_self]
    exact ⟨hrl, hvalid, hmeasured, htune, hfrozen, hctl, hmismatch, hram, fun o ho => Dev.modPort_ports_ne _ _ _ _ ho⟩
  case frozen =>
    rw [exec_tunerRlMeasured_eq]
    exact onDev_next ((Dev.tunerMeasured_quiet hi hk hs ho hr hm h64 hq).trans (Dev.modTun_congr (Tuner.measure_frozen hq hf)))
  case kept =>
    rw [exec_tunerRlMeasured_eq]
    exact onDev_next
      ((Dev.tunerMeasured_quiet hi hk hs ho hr hm h64 hq).trans (Dev.modTun_congr (Tuner.measure_reached hq hf ht hg)))

end Sys2Proof.Machine
end

section
/-! Preparation (R125, R200) and what it costs: the words of a packet that are taken with a wrong bit are charged to their
queue bank (R356, R420), and a bank that this retires can take its region, the port and the stake along (R423, R426). -/

namespace Sys2Proof.Machine

/-- What the stop of port p leaves alone: whether a reset is due, and the slot books of the other ports. -/
structure StopsAt (p : PortId) (d e : Dev) : Prop where
  due : e.resetDue = d.resetDue
  sb : ∀ o : PortId, o ≠ p → (e.ports[o]).sb = (d.ports[o]).sb

theorem StopsAt.refl (p : PortId) (d : Dev) : StopsAt p d d := ⟨rfl, fun _ _ => rfl⟩

theorem StopsAt.trans {p : PortId} {a b c : Dev} (h : StopsAt p a b) (g : StopsAt p b c) : StopsAt p a c :=
  ⟨g.due.trans h.due, fun o ho => (g.sb o ho).trans (h.sb o ho)⟩

theorem StopsAt.of_rxOnly (p : PortId) {d e : Dev} (h : RxOnly d e) : StopsAt p d e :=
  ⟨by rw [h.rest], fun o _ => by rw [h.port o]⟩

theorem StopsAt.modPort (p : PortId) (d : Dev) (f : Port → Port) : StopsAt p d (d.modPort p f) :=
  ⟨Dev.modPort_resetDue d p f, fun o ho => by rw [Dev.modPort_ports_ne _ _ _ _ ho]⟩

theorem StopsAt.modSb (p : PortId) (d : Dev) (f : SlotBook → SlotBook) : StopsAt p d (d.modSb p f) := by
  rw [Dev.modSb_eq]
  exact StopsAt.modPort _ _ _

theorem StopsAt.modTx (p : PortId) (d : Dev) (f : Tx → Tx) : StopsAt p d (d.modTx p f) := by
  rw [Dev.modTx_eq]
  exact StopsAt.modPort _ _ _

theorem StopsAt.modCal (p : PortId) (d : Dev) (f : Cal → Cal) : StopsAt p d (d.modCal p f) := by
  rw [Dev.modCal_eq]
  exact StopsAt.modPort _ _ _

theorem StopsAt.femTo (p : PortId) (d : Dev) (x : FemState) : StopsAt p d (d.femTo p x) := StopsAt.modTx _ _ _

theorem StopsAt.lateRecord (p : PortId) (d : Dev) (k : Stake) (slot cause : Nat) (refused : Bool) :
    StopsAt p d (d.lateRecord p k slot cause refused) := by
  simp only [Dev.lateRecord]
  split
  next e he =>
    obtain ⟨-, -, hp, hd⟩ := Dev.producePacket_some he
    exact ⟨hd, fun o _ => by rw [hp]⟩
  next => exact StopsAt.modSb _ _ _

/-- A stake that no link engine follows and that is not ARMED: to end it late touches its port alone. -/
def Stake.atRest (k : Stake) : Bool := k.link.isNone && decide (k.state ≠ .armed)

theorem StopsAt.reportLate (p : PortId) (d : Dev) {k : Stake} (hl : k.link = none) (slot cause : Nat) (refused : Bool) :
    StopsAt p d (d.reportLate p k slot cause refused) := by
  have report {e : Dev} (h : StopsAt p d e) :
      StopsAt p d (if k.origin = 0 ∧ refused then e else e.lateRecord p k slot cause refused) := by
    split
    · exact h
    · exact h.trans (StopsAt.lateRecord _ _ _ _ _ _)
  simp only [Dev.reportLate, hl]
  refine report ?_
  split
  · exact (StopsAt.modSb _ _ _).trans (StopsAt.modSb _ _ _)
  · exact (StopsAt.modSb _ _ _).trans (StopsAt.modSb _ _ _)

theorem StopsAt.calLate (p : PortId) (d : Dev) (k : Stake) (cause : Nat) : StopsAt p d (d.calLate p k cause) := by
  unfold Dev.calLate
  split
  · exact StopsAt.modCal _ _ _
  · exact StopsAt.refl _ _

theorem StopsAt.endLate (p : PortId) (d : Dev) (n : SlotId) {k : Stake} (hk : k.atRest = true) (cause : Nat) :
    StopsAt p d (d.endLate p n k cause) := by
  obtain ⟨hl, ha⟩ : k.link = none ∧ k.state ≠ .armed := by simpa [Stake.atRest] using hk
  simp only [Dev.endLate, ha, and_false, if_false]
  exact (((StopsAt.modSb _ _ _).trans (StopsAt.modTx _ _ _)).trans (StopsAt.reportLate _ _ hl _ _ _)).trans
    (StopsAt.calLate _ _ _ _)

theorem StopsAt.endStakes (p : PortId) (d : Dev) (hk : (d.ports[p]).sb.used.all (·.2.atRest) = true) (cause : Nat) :
    StopsAt p d (d.endStakes p cause) := by
  unfold Dev.endStakes
  generalize (d.ports[p]).sb.used = l at hk
  induction l generalizing d with
  | nil => exact StopsAt.refl _ _
  | cons x l ih =>
    obtain ⟨hx, hl⟩ : x.2.atRest = true ∧ l.all (·.2.atRest) = true := by simpa only [List.all_cons, Bool.and_eq_true] using hk
    refine StopsAt.trans ?_ (ih _ hl)
    dsimp only
    split
    · exact StopsAt.refl _ _
    · exact StopsAt.endLate _ _ _ hx _

theorem StopsAt.portOff (p : PortId) (d : Dev) (hk : (d.ports[p]).sb.used.all (·.2.atRest) = true) :
    StopsAt p d (d.portOff p) := by
  have stopped : RxOnly d ((((d.stopFrames p).abortOwnLanes p).leaveCombines p).abandonGauge p) :=
    (((RxOnly.stopFrames _ _).trans (RxOnly.abortJobs _ _)).trans (RxOnly.leaveCombines _ _)).trans (RxOnly.abandonGauge _ _)
  have ended := StopsAt.endStakes p _ (by rw [stopped.port p]; exact hk) 11
  unfold Dev.portOff
  exact (((((StopsAt.of_rxOnly p stopped).trans ended).trans (StopsAt.of_rxOnly p (RxOnly.modRx _ _ _))).trans
    (StopsAt.femTo _ _ _)).trans (StopsAt.of_rxOnly p (RxOnly.serveLanes _ _))).trans (StopsAt.of_rxOnly p (RxOnly.gcSlices _ _))

theorem StopsAt.portCut (p : PortId) (d : Dev) (hk : (d.ports[p]).sb.used.all (·.2.atRest) = true) :
    StopsAt p d (d.portCut p) :=
  (((((StopsAt.portOff p d hk).trans (StopsAt.modSb _ _ _)).trans (StopsAt.modTx _ _ _)).trans
    (StopsAt.of_rxOnly p (RxOnly.modRx _ _ _))).trans (StopsAt.modCal _ _ _)).trans (StopsAt.femTo _ _ _)

theorem SlotBook.stakes_of_used {b : SlotBook} (h : b.used = []) (n : SlotId) : b.stakes[n] = none := by
  have := List.filterMap_eq_nil_iff.mp h n (List.mem_finRange n)
  simpa using this

theorem SlotBook.used_replicate_none (b : SlotBook) : { b with stakes := Vector.replicate 256 none }.used = [] := by
  simp [SlotBook.used]

theorem Dev.portCut_used (d : Dev) (p : PortId) : ((d.portCut p).ports[p]).sb.used = [] := by
  simp only [Dev.portCut, Dev.femTo, Dev.modCal_eq, Dev.modRx_eq, Dev.modTx_eq, Dev.modSb_eq, Dev.modPort_ports_self]
  exact SlotBook.used_replicate_none _

/-! ### The ports of a region that retires -/

/-- A port of a region that retires, as Dev.retireRegion cuts it. -/
def Dev.cutPort (d : Dev) (p : PortId) : Dev := (d.portCut p).modRx p fun x => { x with retired := true }

theorem Dev.cutPort_sb (d : Dev) (p : PortId) : ((d.cutPort p).ports[p]).sb = ((d.portCut p).ports[p]).sb := by
  rw [Dev.cutPort, Dev.modRx_eq, Dev.modPort_ports_self]

theorem Dev.cutPort_used (d : Dev) (p : PortId) : ((d.cutPort p).ports[p]).sb.used = [] := by
  rw [Dev.cutPort_sb, Dev.portCut_used]

/-- The ports cut one after another: no reset comes due by it, and no stake is left on any of them. -/
theorem Dev.cutPorts_end (l : List PortId) (d : Dev) (h : ∀ p ∈ l, (d.ports[p]).sb.used.all (·.2.atRest) = true) :
    (l.foldl Dev.cutPort d).resetDue = d.resetDue ∧ ∀ p : PortId,
      p ∈ l ∨ (d.ports[p]).sb.used = [] →
      ((l.foldl Dev.cutPort d).ports[p]).sb.used = [] := by
  induction l generalizing d with
  | nil => simp
  | cons q l ih =>
    have cut : StopsAt q d (d.cutPort q) :=
      (StopsAt.portCut q d (h q List.mem_cons_self)).trans (StopsAt.of_rxOnly q (RxOnly.modRx _ _ _))
    have empty {p : PortId} (hp : p = q ∨ (d.ports[p]).sb.used = []) :
        ((d.cutPort q).ports[p]).sb.used = [] := by
      by_cases hq : p = q
      · rw [hq]; exact Dev.cutPort_used d q
      · rw [cut.sb p hq]; exact hp.resolve_left hq
    have rest : ∀ p ∈ l, ((d.cutPort q).ports[p]).sb.used.all (·.2.atRest) = true := fun p hp => by
      by_cases hq : p = q
      · rw [empty (.inl hq)]; rfl
      · rw [cut.sb p hq]; exact h p (List.mem_cons_of_mem q hp)
    obtain ⟨due, none⟩ := ih (d.cutPort q) rest
    rw [List.foldl_cons]
    refine ⟨due.trans cut.due, fun p hp => none p ?_⟩
    rcases hp with hp | hp
    · rcases List.mem_cons.mp hp with hq | hl
      · exact .inr (empty (.inl hq))
      · exact .inl hl
    · exact .inr (empty (.inr hp))

theorem Dev.emptyChain_leaves (d : Dev) (n : CtxId) : (d.emptyChain n).ports = d.ports ∧ (d.emptyChain n).resetDue = d.resetDue :=
  ⟨rfl, rfl⟩

theorem Dev.loseChains_leaves (d : Dev) (r : RegionId) : (d.loseChains r).ports = d.ports ∧ (d.loseChains r).resetDue = d.resetDue := by
  unfold Dev.loseChains
  generalize ((d.cl.chains.filter fun c => c.region = r).map (·.ctx)) = l
  induction l generalizing d with
  | nil => exact ⟨rfl, rfl⟩
  | cons n l ih =>
    obtain ⟨hp, hd⟩ := ih (d.emptyChain n)
    exact ⟨hp.trans (Dev.emptyChain_leaves d n).1, hd.trans (Dev.emptyChain_leaves d n).2⟩

/-- A core of a region that retires, as Dev.retireRegion holds it. -/
def Dev.cutCore (d : Dev) (c : CoreId) : Dev := (d.holdCore c).modCore c fun x => { x with retired := true }

theorem Dev.cutCores_leave (l : List CoreId) (d : Dev) :
    (l.foldl Dev.cutCore d).ports = d.ports ∧ (l.foldl Dev.cutCore d).resetDue = d.resetDue := by
  induction l generalizing d with
  | nil => exact ⟨rfl, rfl⟩
  | cons c l ih => exact ih (d.cutCore c)

/-- A region without the main core retires: no reset comes due by it, and the stakes of its ports are gone (R423). -/
theorem Dev.retireRegion_used {d e : Dev} {r : RegionId} {cause : Nat} (hr : (d.regions[r]).retired = false)
    (hm : regionOfCore d.mainCore ≠ r) (he : d.noteRetired (.unit (.region r)) 5 cause = e)
    (hk : ∀ p ∈ portsOf r, (e.ports[p]).sb.used.all (·.2.atRest) = true) :
    (d.retireRegion r cause).resetDue = e.resetDue ∧ ∀ p ∈ portsOf r,
      ((d.retireRegion r cause).ports[p]).sb.used = [] := by
  obtain ⟨due, gone⟩ := Dev.cutPorts_end (portsOf r) e hk
  have cores := Dev.cutCores_leave ((List.finRange 8).filter fun c => regionOfCore c = r) ((portsOf r).foldl Dev.cutPort e)
  have chains := Dev.loseChains_leaves (((List.finRange 8).filter fun c => regionOfCore c = r).foldl Dev.cutCore
    ((portsOf r).foldl Dev.cutPort e)) r
  have left : (d.retireRegion r cause).ports = ((portsOf r).foldl Dev.cutPort e).ports ∧
      (d.retireRegion r cause).resetDue = ((portsOf r).foldl Dev.cutPort e).resetDue := by
    simp only [Dev.retireRegion, hr, hm, he, false_and, if_false, Bool.false_eq_true]
    exact ⟨chains.1.trans cores.1, chains.2.trans cores.2⟩
  refine ⟨left.2.trans due, fun p hp => ?_⟩
  rw [left.1]
  exact gone p (.inl hp)

/-! ### A wrong bit that retires a bank, and a bank that retires its region -/

/-- A failure is noted: flag, counts, track and log; with the count that the track gives. -/
def Dev.noteFailure (d : Dev) (c : Charged) (cause : Nat) : Dev × Nat :=
  let d := d.transientFlag c cause
  let d := { d with flt := { d.flt with cntTrans := d.flt.cntTrans + 1 } }
  let d := match c.unitOf with | some r => d.modRegFlt r (fun f => { f with cntTrans := f.cntTrans + 1 }) | none => d
  let t := d.track c
  (t.1.logFault 1 c cause t.2, t.2)

/-- A failure that reaches PERMCOUNT is permanent (R421). -/
theorem Dev.charge_permanent {d : Dev} {u : FaultTarget} {cause : Nat} (hu : u ≠ .chipBlock 9)
    (h : (d.noteFailure (.unit u) cause).1.permCount ≤ (d.noteFailure (.unit u) cause).2) : d.charge (.unit u) cause =
      ((d.noteFailure (.unit u) cause).1.logFault 2 (.unit u) cause (d.noteFailure (.unit u) cause).2).removeChild u cause :=
  if_pos ⟨h, hu⟩

/-- A word with one wrong bit leaves its queue, and the failure is charged to its bank (R356, R420). -/
theorem Dev.takeWord_corrected {d : Dev} {q : QueueId} {w : QWord} {l : List QWord} (hw : (d.queue q).words = w :: l)
    (he : w.err = some false) :
    d.takeWord q = (d.modQueue q Queue.pop).charge (.unit (.queueBank (regionOfQueue q) (d.queue q).headBank)) 2 := by
  simp only [Dev.takeWord, hw, he]

/-- A queue bank that retires as the last one of its region. -/
def Dev.lostBank (d : Dev) (r : RegionId) (b : Fin 8) (cause : Nat) : Dev :=
  (d.noteRetired (.unit (.queueBank r b)) 4 cause).dropBank r b

/-- The region goes with its last bank (R426). -/
theorem Dev.retireBank_last {d : Dev} {r : RegionId} {b : Fin 8} {cause : Nat} (hb : (d.regions[r]).banks.getLsbD b.val = false)
    (hl : ((d.lostBank r b cause).regions[r]).banks = 0xFF) :
    d.retireBank r b cause = (d.lostBank r b cause).retireRegion r 8 := by
  unfold Dev.lostBank at hl ⊢
  simp only [Dev.retireBank, hb, hl, Bool.false_eq_true, if_false, if_true]

/-! ### Preparation -/

theorem exec_framePrepared_eq (p : PortId) (mm : List Mismatch) (s : State) :
    exec (.framePrepared ⟨p, mm⟩) s = .next (onDevW (fun d => d.framePrepared p mm) s) := rfl

/-- The packet is taken, and the stake with it: nothing is left to prepare. -/
theorem Dev.framePrepared_gone {d : Dev} {p : PortId} {n : SlotId} {k : Stake} {ws : List QWord} {q : QueueId}
    (hb : (d.ports[p]).tx.buffer.length < 2) (hu : d.portUp p = true)
    (hn : (d.ports[p]).sb.toPrepare.head? = some (n, k)) (hl : k.link = none) (hlen : fld k.param 0 8 ≠ 0)
    (hq : queueOf (regionOfPort p) (Fin.ofNat 32 (fld k.w2 24 5)) = q) (hen : d.queueUsable q = true)
    (hws : (d.queue q).packet = some ws) (hgone : (d.takeWords q ws.length).stake p n = none) (mm : List Mismatch) :
    d.framePrepared p mm = d.takeWords q ws.length := by
  obtain ⟨l, hp⟩ : ∃ l, (d.ports[p]).sb.toPrepare = (n, k) :: l := List.head?_eq_some_iff.mp hn
  have hc : ¬ (2 ≤ (d.ports[p]).tx.buffer.length ∨ (!d.portUp p) = true) := by
    simp only [hu, Bool.not_true, Bool.false_eq_true, or_false]
    omega
  have hs : ∃ x, d.supply p k mm = some (d.takeWords q ws.length, x) := by
    simp only [Dev.supply, hl, hlen, if_false, hq, hen, if_true, hws]
    split
    · exact ⟨_, rfl⟩
    · exact ⟨_, rfl⟩
  obtain ⟨x, hs⟩ := hs
  simp only [Dev.framePrepared, if_neg hc, hp, Dev.firstSupplied, hs, hgone]

theorem onDevW_stake {f : Dev → Dev} {s : State} (h : (f s.begun.d).resetDue = false) (p : PortId) (n : SlotId) :
    (onDevW f s).d.stake p n = (f s.begun.d).stake p n := by
  rw [Dev.stake, onDevW_ports h, Dev.stake]

/-- A stake that an event leaves in its entry is there after the event. -/
theorem onDevW_setStake {f : Dev → Dev} {s : State} (h : (f s.begun.d).resetDue = false) (p : PortId) (n : SlotId) (k : Stake)
    (g : Tx → Tx) : (onDevW (fun d => ((f d).setStake p n (some k)).modTx p g) s).d.stake p n = some k := by
  rw [onDevW_stake (by rw [Dev.modTx_eq, Dev.modPort_resetDue, Dev.setStake, Dev.modSb_eq, Dev.modPort_resetDue, h]), Dev.stake,
    Dev.setStake, Dev.modSb_eq, Dev.modTx_eq, Dev.modPort_ports_self, Dev.modPort_ports_self]
  exact Vector.getElem_set_self n.isLt

/-- The stake does not become READY: there is none any more. -/
theorem exec_framePrepared_not_ready {s : State} {p : PortId} {n : SlotId} {k : Stake} {ws : List QWord} {q : QueueId}
    (hb : (s.d.ports[p]).tx.buffer.length < 2) (hu : s.d.portUp p = true)
    (hn : (s.d.ports[p]).sb.toPrepare.head? = some (n, k)) (hl : k.link = none) (hlen : fld k.param 0 8 ≠ 0)
    (hq : queueOf (regionOfPort p) (Fin.ofNat 32 (fld k.w2 24 5)) = q) (hen : s.d.queueUsable q = true)
    (hws : (s.d.queue q).packet = some ws) (hgone : (s.begun.d.takeWords q ws.length).stake p n = none)
    (hdue : (s.begun.d.takeWords q ws.length).resetDue = false) (mm : List Mismatch) (k' : Stake) (g : Tx → Tx) :
    exec (.framePrepared ⟨p, mm⟩) s ≠
      .next (onDevW (fun d => ((d.takeWords q ws.length).setStake p n (some k')).modTx p g) s) := by
  intro h
  have taken : s.begun.d.framePrepared p mm = s.begun.d.takeWords q ws.length :=
    Dev.framePrepared_gone (d := s.begun.d) hb hu hn hl hlen hq hen hws hgone mm
  have gone : (onDevW (fun d => d.framePrepared p mm) s).d.stake p n = none := by
    rw [onDevW_stake (by rw [taken, hdue]), taken, hgone]
  have there := onDevW_setStake (f := fun d => d.takeWords q ws.length) (s := s) hdue p n k' g
  rw [← Host.Outcome.next.inj h, gone] at there
  cases there

/-! ### The counterexample -/

/-- A booked TX stake of one byte at port 6, from TX queue 0 of region 1. -/
def wornStake : Stake :=
  { release := 100000000, action := 1, winsel := false, entry := 0, w2 := 0x00080100, param := 1, tag := 0
    state := .booked, origin := 0, settle := 0, ramp := 8, femlead := 0, ret := 0, air := 0, onAir := 0, winF := 0
    link := none, firedAt := 0, phase := 0, power := none }

/-- The packet that waits for it: one word, with one wrong bit. -/
def wornPacket : List QWord := [{ data := 0x01, eop := true, err := some false }]

/-- Region 1 with its last queue bank, which has failed twice in the window of PERMCOUNT = 3. -/
def wornRegion : State :=
  { State.reset with d :=
      (((State.reset.d.modSb 6 fun b => { b with stakes := b.stakes.set 0 (some wornStake) }).modRegion 1 fun r =>
        { r with banks := 0xFE, flt := { r.flt with track := [⟨.unit (.queueBank 1 0), [0, 0]⟩] } }).modQueue 32 fun q =>
          { q with words := wornPacket, pktcnt := 1 }) }

theorem wornStake_used (b : SlotBook) :
    { b with stakes := (Vector.replicate 256 none).set 0 (some wornStake) }.used = [(0, wornStake)] := by
  have others : ∀ m ∈ (List.finRange 255).map Fin.succ,
      ((((Vector.replicate 256 none).set 0 (some wornStake))[m]).map fun k => (m, k)) = none := by
    intro m hm
    obtain ⟨i, -, rfl⟩ := List.mem_map.mp hm
    rw [Fin.getElem_fin, Vector.getElem_set_ne _ _ (by simp)]
    simp
  rw [SlotBook.used, List.finRange_succ, List.filterMap_cons, List.filterMap_eq_nil_iff.mpr others]
  rfl

theorem wornRegion_ports : wornRegion.d.ports = (State.reset.d.modPort 6 fun x =>
    { x with sb := { x.sb with stakes := x.sb.stakes.set 0 (some wornStake) } }).ports := rfl

theorem reset_ports (p : PortId) : State.reset.d.ports[p] = {} := Vector.getElem_replicate p.isLt

/-- The stakes of the worn region's ports: the one at port 6, and no other. -/
theorem wornRegion_used (p : PortId) :
    (wornRegion.d.ports[p]).sb.used = if p = 6 then [(0, wornStake)] else [] := by
  rw [wornRegion_ports]
  split
  next h =>
    rw [h, Dev.modPort_ports_self, reset_ports]
    exact wornStake_used _
  next h =>
    rw [Dev.modPort_ports_ne _ _ _ _ h, reset_ports]
    exact SlotBook.used_replicate_none {}

theorem wornRegion_waits : (wornRegion.d.ports[(6 : PortId)]).sb.toPrepare.head? = some (0, wornStake) := by
  rw [SlotBook.toPrepare, wornRegion_used]
  decide

theorem wornRegion_premises : (wornRegion.d.ports[(6 : PortId)]).sb.stakes[(0 : SlotId)] = some wornStake ∧
    (wornRegion.d.ports[(6 : PortId)]).tx.buffer.length < 2 ∧ wornRegion.d.portUp 6 = true ∧
    wornRegion.d.queueUsable 32 = true ∧ (wornRegion.d.queue 32).packet = some wornPacket := by decide +kernel

/-- The worn region once the wrong bit of its packet is noted, with the count that the track gives. -/
def wornNoted : Dev × Nat := ((wornRegion.begun.d.takeWords 32 0).modQueue 32 Queue.pop).noteFailure (.unit (.queueBank 1 0)) 2

/-- The worn region without its last bank. -/
def wornLost : Dev := (wornNoted.1.logFault 2 (.unit (.queueBank 1 0)) 2 wornNoted.2).lostBank 1 0 2

theorem wornNoted_last : wornNoted.1.permCount ≤ wornNoted.2 ∧
    ((wornNoted.1.logFault 2 (.unit (.queueBank 1 0)) 2 wornNoted.2).regions[(1 : RegionId)]).banks.getLsbD (0 : Fin 8).val = false ∧
    (wornLost.regions[(1 : RegionId)]).banks = 0xFF := by decide +kernel

theorem wornLost_region : (wornLost.regions[(1 : RegionId)]).retired = false ∧ regionOfCore wornLost.mainCore ≠ 1 ∧
    (wornLost.noteRetired (.unit (.region 1)) 5 8).resetDue = false := by decide +kernel

theorem wornLost_ports : (wornLost.noteRetired (.unit (.region 1)) 5 8).ports = wornRegion.d.ports := rfl

theorem wornLost_stakes (p : PortId) :
    ((wornLost.noteRetired (.unit (.region 1)) 5 8).ports[p]).sb.used.all (·.2.atRest) = true := by
  rw [wornLost_ports, wornRegion_used]
  split
  · rfl
  · rfl

theorem wornRegion_queue : ((wornRegion.begun.d.takeWords 32 0).queue 32).words = wornPacket ∧
    ((wornRegion.begun.d.takeWords 32 0).queue 32).headBank = 0 := by decide +kernel

/-- Taking the packet retires the bank, and the region with it. -/
theorem wornRegion_takeWords : wornRegion.begun.d.takeWords 32 wornPacket.length = wornLost.retireRegion 1 8 := by
  obtain ⟨hperm, hbank, hlast⟩ := wornNoted_last
  obtain ⟨hwords, hhead⟩ := wornRegion_queue
  rw [show wornPacket.length = 1 from rfl, Dev.takeWords, Dev.takeWord_corrected hwords rfl, hhead]
  exact (Dev.charge_permanent FaultTarget.noConfusion hperm).trans (Dev.retireBank_last hbank hlast)

/-- The stake is gone with its port (R423), and no reset is due: the main core is in another region. -/
theorem wornRegion_taken : (wornRegion.begun.d.takeWords 32 wornPacket.length).stake 6 0 = none ∧
    (wornRegion.begun.d.takeWords 32 wornPacket.length).resetDue = false := by
  obtain ⟨hr, hm, hd⟩ := wornLost_region
  obtain ⟨due, gone⟩ := Dev.retireRegion_used hr hm rfl fun p _ => wornLost_stakes p
  rw [wornRegion_takeWords, Dev.stake, SlotBook.stakes_of_used (gone 6 (by decide)) 0, due, hd]
  exact ⟨rfl, rfl⟩

/-- Refutes O15: the packet that READY needs is there, but taking its one word, with a wrong bit, retires the last bank of
the region's queue memory (R420, R426), and with the region the port whose stakes end (R423): the entry is FREE, not READY. -/
theorem not_stakesArePreparedArmedAndFired : ¬ Obligations.StakesArePreparedArmedAndFired := by
  unfold Obligations.StakesArePreparedArmedAndFired
  intro h
  obtain ⟨hk, hbuf, hup, hen, hpacket⟩ := wornRegion_premises
  obtain ⟨hgone, hdue⟩ := wornRegion_taken
  have ready := (((h wornRegion 6 0 wornStake hk).1 hbuf hup wornRegion_waits rfl []).2 wornPacket (by decide) hen hpacket).1
    (by decide)
  exact exec_framePrepared_not_ready hbuf hup wornRegion_waits rfl (by decide) rfl hen hpacket hgone hdue [] _ _ ready

end Sys2Proof.Machine
end

section
/-! CCM (R150 to R154): the block function gives 16 bytes whatever the block, so the key stream covers its string, the
counter mode is its own inverse, and a string, encrypted and decrypted, comes back with its tag verified. -/

namespace Sys2Proof.Machine

/-! ### Exclusive or of strings -/

theorem length_xorBytes (a b : List Byte) : (xorBytes a b).length = min a.length b.length := List.length_zipWith

/-- A key stream that covers a string is undone by itself. -/
theorem xorBytes_cancel {a k : List Byte} (h : a.length ≤ k.length) : xorBytes (xorBytes a k) k = a := by
  induction a generalizing k with
  | nil => rfl
  | cons x a ih =>
    cases k with
    | nil => simp at h
    | cons y k =>
      have hk : a.length ≤ k.length := by simpa using h
      simpa [xorBytes, BitVec.xor_assoc] using ih hk

/-! ### The key schedule (FIPS 197) -/

/-- Words of a key schedule: four bytes each. -/
def fourBytes (ws : List (List Byte)) : Prop := ∀ w ∈ ws, w.length = 4

theorem fourBytes_cons {w : List Byte} {ws : List (List Byte)} : fourBytes (w :: ws) ↔ w.length = 4 ∧ fourBytes ws :=
  List.forall_mem_cons

theorem fourBytes_getD {ws : List (List Byte)} (h : fourBytes ws) {i : Nat} (hi : i < ws.length) : (ws.getD i []).length = 4 := by
  rw [List.getD_eq_getElem _ _ hi]
  exact h _ (List.getElem_mem hi)

/-- A key of m words is m words of four bytes. -/
theorem keyWords_words {m : Nat} {key : List Byte} {ws : List (List Byte)} (hk : key.length = 4 * m) (h : fourBytes ws) :
    (keyWords key ws).length = m + ws.length ∧ fourBytes (keyWords key ws) := by
  induction m generalizing key ws with
  | zero =>
    obtain rfl := List.length_eq_zero_iff.mp hk
    exact ⟨(Nat.zero_add _).symm, h⟩
  | succ m ih =>
    match key, hk with
    | a :: b :: c :: e :: l, hk =>
      obtain ⟨hlen, hfour⟩ := ih (key := l) (ws := [a, b, c, e] :: ws) (by simpa [Nat.mul_succ] using hk)
        (fourBytes_cons.mpr ⟨rfl, h⟩)
      exact ⟨by rw [keyWords, hlen, List.length_cons]; omega, hfour⟩

/-- The word that the schedule puts before the words so far. -/
def nextWord (nk i : Nat) (ws : List (List Byte)) : List Byte :=
  xorBytes (ws.getD (nk - 1) [])
    (if i % nk = 0 then xorBytes (((ws.headD []).drop 1 ++ (ws.headD []).take 1).map sbox) [rcon (i / nk), 0, 0, 0]
     else if nk > 6 ∧ i % nk = 4 then (ws.headD []).map sbox else ws.headD [])

theorem expandKey_succ (nk fuel i : Nat) (ws : List (List Byte)) :
    expandKey nk (fuel + 1) i ws = expandKey nk fuel (i + 1) (nextWord nk i ws :: ws) := rfl

/-- It reaches back one word and one key length. -/
theorem length_nextWord {nk : Nat} (hnk : 0 < nk) (i : Nat) {ws : List (List Byte)} (hl : nk ≤ ws.length) (h : fourBytes ws) :
    (nextWord nk i ws).length = 4 := by
  have hback := fourBytes_getD h (i := nk - 1) (by omega)
  have hprev : (ws.headD []).length = 4 := by
    rw [List.headD_eq_getD]
    exact fourBytes_getD h (by omega)
  rw [nextWord, length_xorBytes, hback]
  split_ifs
  · rw [length_xorBytes, List.length_map, List.length_append, List.length_drop, List.length_take, hprev]
    rfl
  · rw [List.length_map, hprev, Nat.min_self]
  · rw [hprev, Nat.min_self]

theorem expandKey_words {nk : Nat} (hnk : 0 < nk) (fuel i : Nat) {ws : List (List Byte)} (hl : nk ≤ ws.length)
    (h : fourBytes ws) : (expandKey nk fuel i ws).length = fuel + ws.length ∧ fourBytes (expandKey nk fuel i ws) := by
  induction fuel generalizing i ws with
  | zero => exact ⟨(Nat.zero_add _).symm, h⟩
  | succ fuel ih =>
    obtain ⟨hlen, hfour⟩ := ih (i + 1) (ws := nextWord nk i ws :: ws) (Nat.le_succ_of_le hl)
      (fourBytes_cons.mpr ⟨length_nextWord hnk i hl h, h⟩)
    rw [expandKey_succ]
    exact ⟨by rw [hlen, List.length_cons]; omega, hfour⟩

/-- Four words make a round key of 16 bytes. -/
theorem roundKeys_keys {m : Nat} {ws : List (List Byte)} (hl : ws.length = 4 * m) (h : fourBytes ws) :
    (roundKeys ws).length = m ∧ ∀ k ∈ roundKeys ws, k.length = 16 := by
  induction m generalizing ws with
  | zero =>
    obtain rfl := List.length_eq_zero_iff.mp hl
    exact ⟨rfl, by simp [roundKeys]⟩
  | succ m ih =>
    match ws, hl with
    | a :: b :: c :: e :: l, hl =>
      obtain ⟨ha, hb, hc, he, hrest⟩ : a.length = 4 ∧ b.length = 4 ∧ c.length = 4 ∧ e.length = 4 ∧ fourBytes l := by
        simpa [fourBytes_cons] using h
      obtain ⟨hlen, hkeys⟩ := ih (ws := l) (by simpa [Nat.mul_succ] using hl) hrest
      refine ⟨by rw [roundKeys, List.length_cons, hlen], ?_⟩
      rw [roundKeys, List.forall_mem_cons]
      exact ⟨by simp [ha, hb, hc, he], hkeys⟩

/-- A key of nk words has nk + 7 round keys of 16 bytes. -/
theorem schedule_keys {nk : Nat} (hnk : 0 < nk) {key : List Byte} (hk : key.length = 4 * nk) :
    (schedule key).length = nk + 7 ∧ ∀ k ∈ schedule key, k.length = 16 := by
  obtain ⟨hw, hfour⟩ := keyWords_words hk (ws := []) (by simp [fourBytes])
  rw [List.length_nil, Nat.add_zero] at hw
  obtain ⟨hlen, hall⟩ := expandKey_words hnk (4 * (nk + 7) - nk) nk hw.ge hfour
  have hkl : key.length / 4 = nk := by omega
  simp only [schedule, hkl]
  exact roundKeys_keys (by rw [List.length_reverse, hlen, hw]; omega) fun w hw => hall w (List.mem_reverse.mp hw)

/-! ### The block function -/

theorem length_shiftRows (s : List Byte) : (shiftRows s).length = 16 := by simp [shiftRows]

/-- The last round leaves as many bytes as its round key has. -/
theorem length_encRounds {ks : List (List Byte)} (hne : ks ≠ []) (h : ∀ k ∈ ks, k.length = 16) (s : List Byte) :
    (encRounds ks s).length = 16 := by
  induction ks generalizing s with
  | nil => exact absurd rfl hne
  | cons k ks ih =>
    cases ks with
    | nil => rw [encRounds, length_xorBytes, length_shiftRows, h k List.mem_cons_self]; rfl
    | cons k' ks => exact ih (List.cons_ne_nil _ _) (fun x hx => h x (List.mem_cons_of_mem _ hx)) _

section
variable {key : List Byte} (hk : key.length = 16 ∨ key.length = 32)
include hk

/-- A block through AES is 16 bytes, whatever went in. -/
theorem length_aes (block : List Byte) : (aes key block).length = 16 := by
  obtain ⟨hlen, hkeys⟩ : 2 ≤ (schedule key).length ∧ ∀ k ∈ schedule key, k.length = 16 := by
    rcases hk with hk | hk
    · obtain ⟨hl, h⟩ := schedule_keys (nk := 4) (by decide) hk
      exact ⟨by omega, h⟩
    · obtain ⟨hl, h⟩ := schedule_keys (nk := 8) (by decide) hk
      exact ⟨by omega, h⟩
  rw [aes]
  match schedule key, hlen, hkeys with
  | k :: k' :: ks, _, hkeys => exact length_encRounds (List.cons_ne_nil _ _) (fun x hx => hkeys x (List.mem_cons_of_mem _ hx)) _

theorem length_cbc {x : List Byte} (hx : x.length = 16) (bs : List (List Byte)) : (cbc key x bs).length = 16 := by
  induction bs generalizing x with
  | nil => exact hx
  | cons b bs ih => exact ih (length_aes hk _)

/-! ### Counter mode and tag (R152) -/

theorem length_keyStream (nonce : List Byte) (n i : Nat) : (keyStream key nonce n i).length = 16 * n := by
  induction n generalizing i with
  | zero => rfl
  | succ n ih => rw [keyStream, List.length_append, length_aes hk, ih]; omega

/-- The key stream of a string covers it. -/
theorem le_length_keyStream (nonce p : List Byte) : p.length ≤ (keyStream key nonce ((p.length + 15) / 16) 1).length := by
  rw [length_keyStream hk]
  omega

theorem length_ccmCrypt (nonce p : List Byte) : (ccmCrypt key nonce p).length = p.length := by
  rw [ccmCrypt, length_xorBytes]
  exact Nat.min_eq_left (le_length_keyStream hk nonce p)

/-- Counter mode is its own inverse. -/
theorem ccmCrypt_ccmCrypt (nonce p : List Byte) : ccmCrypt key nonce (ccmCrypt key nonce p) = p := by
  rw [ccmCrypt, length_ccmCrypt hk]
  exact xorBytes_cancel (le_length_keyStream hk nonce p)

theorem length_ccmTag (nonce a p : List Byte) : (ccmTag key nonce a p).length = 8 := by
  simp only [ccmTag, List.length_take, length_xorBytes, length_cbc hk List.length_replicate, length_aes hk]
  rfl

end

/-- Settles O27: the tag stands behind as many bytes as the payload has, and counter mode undoes itself. -/
theorem ccmDecryptionUndoesEncryption : Obligations.CcmDecryptionUndoesEncryption := by
  intro key nonce a p hk _ _ c
  have hc : (ccmCrypt key nonce p).length = p.length := length_ccmCrypt hk nonce p
  have hp : c.take p.length = ccmCrypt key nonce p := by rw [← hc]; exact List.take_left
  have ht : c.drop p.length = ccmTag key nonce a p := by rw [← hc]; exact List.drop_left
  refine ⟨by rw [show c = ccmEnc key nonce a p from rfl, ccmEnc, List.length_append, hc, length_ccmTag hk], ?_⟩
  simp only [hp, ht, ccmDec, ccmCrypt_ccmCrypt hk, if_true]

end Sys2Proof.Machine
end

section
/-! Ends of cipher operations (R154, R211 to R218): which check of a granted operation ends it, and what each operation
gives on its source. -/

namespace Sys2Proof.Machine

/-! ### The checks, in their order (log entry 56) -/

/-- Both strings of an operation lie in SRAM (R216). -/
def CiphRun.inSram (u : CiphRun) (r : RegionId) : Prop :=
  sramOk r u.regs.src.toNat u.regs.srcLen = true ∧ sramOk r u.regs.dst.toNat u.dstLen = true

/-- What the read of an operation's source gives. -/
def CiphRun.source (u : CiphRun) (s : State) : Dev × StrRd :=
  if u.regs.srcLen = 0 then (s.d, StrRd.data []) else s.d.strRead s.ram u.regs.src.toNat u.regs.srcLen

/-- A result leaves: a slot to write waits for its commit, anything else goes to DST. -/
def cipherGive (r : RegionId) (n : Fin 2) (u : CiphRun) (res : Nat × List Byte × Option KeySlot) (s : State) : State :=
  match res.2.2 with
  | some slot => { s with d := { s.d.modChan r n (fun c => { c with stage := .committing slot.slot }) with
      keys := { s.d.keys with commits := s.d.keys.commits ++ [(.cipher r n, .put slot)] } } }
  | none => cipherOutput r n u res.1 res.2.1 s

section
variable {r : RegionId} {n : Fin 2} {u : CiphRun} {s : State}
  (hu : ((s.d.regions[r]).cipher.chans[n]).stage = .running u)
include hu

theorem cipherOpEnd_outside (mm : List Mismatch) (h : ¬ u.inSram r) :
    cipherOpEnd r n mm s = { s with d := s.d.cipherEnd r n 8 } := by
  have c : (!sramOk r u.regs.src.toNat u.regs.srcLen) = true ∨ (!sramOk r u.regs.dst.toNat u.dstLen) = true := by
    simp only [Bool.not_eq_true', ← Bool.not_eq_true, ← not_and_or]
    exact h
  simp only [cipherOpEnd, hu]
  exact if_pos c

section
variable (hin : u.inSram r)
include hin

/-- An operation in SRAM comes to the check of its lengths. -/
theorem cipherOpEnd_inSram (mm : List Mismatch) : cipherOpEnd r n mm s =
    if !u.regs.lenOk then { s with d := s.d.cipherEnd r n 4 }
    else match u.key with
      | none => { s with d := s.d.cipherEnd r n (u.bad.getD 5) }
      | some key =>
        match u.source s with
        | (d, .data src) =>
          let x := Dev.mismatches r u.pair.1 u.pair.2 mm d
          if !x.2 then { s with d := x.1.cipherEnd r n 7 } else cipherGive r n u (cipherResult u key src) { s with d := x.1 }
        | (d, _) => { s with d := d.cipherEnd r n 8 } := by
  have c : ¬ ((!sramOk r u.regs.src.toNat u.regs.srcLen) = true ∨ (!sramOk r u.regs.dst.toNat u.dstLen) = true) := by
    simpa [CiphRun.inSram] using hin
  simp only [cipherOpEnd, hu]
  exact if_neg c

theorem cipherOpEnd_badLength (mm : List Mismatch) (h : u.regs.lenOk = false) :
    cipherOpEnd r n mm s = { s with d := s.d.cipherEnd r n 4 } := by
  rw [cipherOpEnd_inSram hu hin, h]
  rfl

variable (hlen : u.regs.lenOk = true)
include hlen

theorem cipherOpEnd_noKey (mm : List Mismatch) {e : Nat} (hk : u.key = none) (hb : u.bad = some e) :
    cipherOpEnd r n mm s = { s with d := s.d.cipherEnd r n e } := by
  rw [cipherOpEnd_inSram hu hin, hlen, hk, hb]
  rfl

variable {key : List Byte} (hk : u.key = some key)
include hk

theorem cipherOpEnd_sourceError (mm : List Mismatch) {d : Dev} (h : u.source s = (d, .error)) :
    cipherOpEnd r n mm s = { s with d := d.cipherEnd r n 8 } := by
  rw [cipherOpEnd_inSram hu hin, hlen, hk]
  simp only [h]
  rfl

theorem cipherOpEnd_fault {mm : List Mismatch} {d e : Dev} {src : List Byte} (h : u.source s = (d, .data src))
    (hm : Dev.mismatches r u.pair.1 u.pair.2 mm d = (e, false)) :
    cipherOpEnd r n mm s = { s with d := e.cipherEnd r n 7 } := by
  rw [cipherOpEnd_inSram hu hin, hlen, hk]
  simp only [h, hm]
  rfl

theorem cipherOpEnd_result {mm : List Mismatch} {d e : Dev} {src : List Byte} (h : u.source s = (d, .data src))
    (hm : Dev.mismatches r u.pair.1 u.pair.2 mm d = (e, true)) :
    cipherOpEnd r n mm s = cipherGive r n u (cipherResult u key src) { s with d := e } := by
  rw [cipherOpEnd_inSram hu hin, hlen, hk]
  simp only [h, hm]
  rfl

end
end

/-! ### The end -/

theorem exec_cipherOpEnd_eq (r : RegionId) (n : Fin 2) (mm : List Mismatch) (s : State) :
    exec (.cipherOpEnd r n mm) s = .next (finish (cipherOpEnd r n mm s.begun)) := rfl

/-- Output that DST takes ends the operation with its status (R216, R329). -/
theorem cipherOutput_written {r : RegionId} {n : Fin 2} {u : CiphRun} {st : Nat} {b : List Byte} {t v : State}
    (h : t.sramWrite u.regs.dst.toNat b = (v, .done)) :
    cipherOutput r n u st b t = { v with d := v.d.cipherEnd r n st } := by
  rw [cipherOutput, h]

/-- Settles O26: each clause is the lemma on the check that ends the operation, or what its OP gives on the source. -/
theorem cipherOperationsEnd : Obligations.CipherOperationsEnd := by
  intro s r n u hu
  have ends {mm : List Mismatch} {t : State} (h : cipherOpEnd r n mm s.begun = t) :
      exec (.cipherOpEnd r n mm) s = .next (finish t) := by rw [exec_cipherOpEnd_eq, h]
  have hb : ((s.begun.d.regions[r]).cipher.chans[n]).stage = .running u := hu
  refine ⟨fun mm h => ends (cipherOpEnd_outside hb mm h), fun hin => ⟨fun mm h => ends (cipherOpEnd_badLength hb hin mm h),
    fun hlen => ⟨fun mm e hk he => ends (cipherOpEnd_noKey hb hin hlen mm hk he), fun key mm hk =>
      ⟨fun d h => ends (cipherOpEnd_sourceError hb hin hlen hk mm h), fun d e src h =>
        ⟨fun hm => ends (cipherOpEnd_fault hb hin hlen hk h hm), fun hm => ?results⟩⟩⟩⟩,
    fun t v st b h => cipherOutput_written h⟩
  have given := cipherOpEnd_result hb hin hlen hk h hm
  have out {st : Nat} {b : List Byte} (hr : cipherResult u key src = (st, b, none)) :
      exec (.cipherOpEnd r n mm) s = .next (finish (cipherOutput r n u st b { s.begun with d := e })) :=
    ends (by rw [given, hr]; rfl)
  have commits {k : KeySlot} (hr : cipherResult u key src = (1, [], some k)) :
      exec (.cipherOpEnd r n mm) s = .next (finish { s.begun with
        d := { e.modChan r n (fun c => { c with stage := .committing k.slot }) with
          keys := { e.keys with commits := e.keys.commits ++ [(.cipher r n, .put k)] } } }) :=
    ends (by rw [given, hr]; rfl)
  dsimp only
  refine ⟨fun h => out ?ccmEnc, fun h => ⟨fun t ht => out ?ccmDec, fun ht => out ?ccmFail⟩, fun h => out ?cmacGen,
    fun h => ⟨fun ht => out ?cmacOk, fun ht => out ?cmacFail⟩, fun h => commits ?derive,
    fun h => ⟨fun k ht => commits ?keyload, fun ht => out ?unwrapFail⟩, fun h k ht => out ?keysave⟩
  all_goals simp only [cipherResult, h]
  case ccmDec | ccmFail | cmacOk | cmacFail | keyload | unwrapFail | keysave => simp only [ht, if_true, if_false]

end Sys2Proof.Machine
end

section
/-! Uplinks (R165 to R174): the FCNT of a frame, what the checks of steps 1 to 6 make of it, and what the frame that the
link engine takes leads to. -/

namespace Sys2Proof.Machine

/-! ### The FCNT of a frame (R166) -/

/-- The value that R166 forms of U and the 24 bits on air. -/
def nextFcnt (u f : Nat) : Nat :=
  if u / 2 ^ 24 * 2 ^ 24 + f ≤ u then u / 2 ^ 24 * 2 ^ 24 + f + 2 ^ 24 else u / 2 ^ 24 * 2 ^ 24 + f

theorem extendFcnt_eq (u f g : Nat) : extendFcnt u f g =
    if f = u % 2 ^ 24 then .dup
    else if 2 ^ 32 ≤ nextFcnt u f then .gap
    else if 2 ^ g < nextFcnt u f - u then .gap
    else .ok (nextFcnt u f) := rfl

/-- It is the least value above U with these low bits. -/
theorem nextFcnt_least (u : Nat) {f : Nat} (hf : f < 2 ^ 24) :
    u < nextFcnt u f ∧ nextFcnt u f % 2 ^ 24 = f ∧ ∀ x, u < x → x % 2 ^ 24 = f → nextFcnt u f ≤ x := by
  have hu := Nat.div_add_mod u (2 ^ 24)
  have hm := Nat.mod_lt u (y := 2 ^ 24) (by decide)
  unfold nextFcnt
  generalize u / 2 ^ 24 = q at *
  generalize u % 2 ^ 24 = m at *
  refine ⟨by split <;> omega, by split <;> omega, fun x hx hxf => ?_⟩
  have hx' := Nat.div_add_mod x (2 ^ 24)
  rw [hxf] at hx'
  generalize x / 2 ^ 24 = k at hx'
  split
  next h =>
    have hq : q + 1 ≤ k := Nat.lt_of_mul_lt_mul_left (a := 2 ^ 24) (by omega)
    linarith [Nat.mul_le_mul_left (2 ^ 24) hq]
  next => omega

theorem extendFcnt_ok_iff {u f g c : Nat} (hne : f ≠ u % 2 ^ 24) :
    extendFcnt u f g = .ok c ↔ nextFcnt u f < 2 ^ 32 ∧ nextFcnt u f - u ≤ 2 ^ g ∧ nextFcnt u f = c := by
  rw [extendFcnt_eq, if_neg hne]
  split_ifs with h1 h2
  · exact ⟨False.elim, fun ⟨hlt, _⟩ => absurd h1 (not_le.mpr hlt)⟩
  · exact ⟨False.elim, fun ⟨_, hle, _⟩ => absurd h2 (not_lt.mpr hle)⟩
  · exact ⟨fun e => ⟨not_le.mp h1, not_lt.mp h2, FcntCheck.ok.inj e⟩, fun ⟨_, _, e⟩ => congrArg _ e⟩

/-- Above the highest counter there is none. -/
theorem extendFcnt_highest {f : Nat} (hf : f < 2 ^ 24) (g c : Nat) : extendFcnt (2 ^ 32 - 1) f g ≠ .ok c := by
  by_cases h : f = (2 ^ 32 - 1) % 2 ^ 24
  · rw [extendFcnt_eq, if_pos h]
    exact FcntCheck.noConfusion
  · intro hc
    obtain ⟨hlt, -⟩ := (extendFcnt_ok_iff h).mp hc
    obtain ⟨hgt, -⟩ := nextFcnt_least (2 ^ 32 - 1) hf
    omega

/-! ### Steps 4 to 6 -/

section
variable {d : Dev} {r : RegionId} {f : AirFrame} {h : LinkHdr} {n : CtxId}

theorem Dev.planFrom4_state (h2 : d.life n ≠ 2) (h1 : ¬ (d.life n = 1 ∧ h.type = 4)) :
    d.planFrom4 r f h n = .drop .state := by
  simp [Dev.planFrom4, h2, h1]

variable (hact : d.life n = 2) (htype : h.type ≠ 4)
include hact htype

theorem Dev.planFrom4_gap (hg : extendFcnt (d.fcntup n) h.fcnt (d.regions[r]).link.maxgap = .gap) :
    d.planFrom4 r f h n = .drop .gap := by
  simp only [Dev.planFrom4, hact, htype, hg]
  rfl

variable {c : Nat} (hc : extendFcnt (d.fcntup n) h.fcnt (d.regions[r]).link.maxgap = .ok c)
include hc

theorem Dev.planFrom4_cipherlen (hl : h.size + 8 + 231 < f.bytes.length) : d.planFrom4 r f h n = .drop .cipherlen := by
  have : 231 < f.bytes.length - h.size - 8 := by omega
  simp only [Dev.planFrom4, hact, htype, hc, this]
  simp

theorem Dev.planFrom4_verify (hl : f.bytes.length ≤ h.size + 8 + 231) : d.planFrom4 r f h n = .verify h n false c := by
  have : ¬ 231 < f.bytes.length - h.size - 8 := by omega
  simp only [Dev.planFrom4, hact, htype, hc, this]
  simp

end

/-! ### Steps 1 to 3 -/

section
variable {d : Dev} {r : RegionId} {w : UpWork} (hres : w.resumed = none)
include hres

theorem Dev.planUplink_malformed (hp : parseUplink w.frame.bytes w.frame.crcp ((d.regions[r]).link.cfg.getLsbD 1) = none) :
    d.planUplink r w = (.drop .malformed, 0) := by
  simp only [Dev.planUplink, hres, bit, hp]

variable {h : LinkHdr} (hp : parseUplink w.frame.bytes w.frame.crcp ((d.regions[r]).link.cfg.getLsbD 1) = some h)
include hp

theorem Dev.planUplink_relaydeep (hr : h.relay = true) (hh : 1 < h.hops) : d.planUplink r w = (.drop .relaydeep, 0) := by
  simp only [Dev.planUplink, hres, bit, hp]
  exact if_pos ⟨hr, hh⟩

variable (hr : h.relay = false ∨ h.hops ≤ 1)
include hr

/-- A frame that is not relayed too deep is looked up. -/
theorem Dev.planUplink_lookup : d.planUplink r w =
    (match d.find h.short h.addr with | none => .miss h | some n => d.planFrom4 r w.frame h n, (d.lookup h.short h.addr).2) := by
  have c : ¬ (h.relay = true ∧ 1 < h.hops) := by
    rintro ⟨hr', hh⟩
    rcases hr with hr | hr
    · rw [hr] at hr'; cases hr'
    · omega
  simp only [Dev.planUplink, hres, bit, hp]
  exact if_neg c

theorem Dev.planUplink_miss (hf : d.find h.short h.addr = none) :
    d.planUplink r w = (.miss h, (d.lookup h.short h.addr).2) := by
  rw [Dev.planUplink_lookup hres hp hr, hf]

theorem Dev.planUplink_found {n : CtxId} (hf : d.find h.short h.addr = some n) :
    d.planUplink r w = (d.planFrom4 r w.frame h n, (d.lookup h.short h.addr).2) := by
  rw [Dev.planUplink_lookup hres hp hr, hf]

end

/-- A frame released from hold starts at step 4 (R173). -/
theorem Dev.planUplink_resumed {d : Dev} {r : RegionId} {w : UpWork} {n : CtxId} {at_ : Int} {h : LinkHdr}
    (hres : w.resumed = some (n, at_)) (hp : parseUplink w.frame.bytes true true = some h) :
    d.planUplink r w = (d.planFrom4 r w.frame h n, 0) := by
  simp only [Dev.planUplink, hres, hp]

/-! ### Steps 7 and 8 -/

/-- CCM verification with a key and no mismatch (R150 to R153). -/
theorem Dev.linkVerify_ccm {d : Dev} {r : RegionId} {pair : Fin 6} {slot : Nat} {nonce a body tag key : List Byte}
    (hk : d.keys.keyOf slot 0 = .ok key) : d.linkVerify r pair slot false nonce a body tag [] =
      (d, (ccmDec key nonce a body tag).elim .authFail .plain) := by
  simp only [Dev.linkVerify, hk, Dev.mismatches]
  cases ccmDec key nonce a body tag <;> rfl

/-- What a frame of a data type decrypts to under the nonce of its FCNT. -/
def Dev.uplinkPlain (d : Dev) (key : List Byte) (f : AirFrame) (h : LinkHdr) (n : CtxId) (fcnt32 : Nat) : Option (List Byte) :=
  ccmDec key (nonceOf (d.laddr n) fcnt32 false d.cl.anchor) (additional f.bytes h)
    (slice f.bytes h.size (f.bytes.length - h.size - 8)) (f.bytes.drop (f.bytes.length - 8))

section
variable {d : Dev} {r : RegionId} {w : UpWork} {h : LinkHdr} {n : CtxId} {c : Nat} {pair : Fin 6} {key : List Byte}
  (htype : h.type ≠ 4) (hk : d.keys.keyOf (2 * d.keyPair n + 1) 0 = .ok key)
include htype hk

theorem Dev.verifyUplink_data : d.verifyUplink r w h n false c pair [] =
    (d.uplinkPlain key w.frame h n c).elim (d.tagFailed r n w.frame) (d.acceptData r n w h c) := by
  simp only [Dev.verifyUplink, htype, decide_false, Bool.false_eq_true, if_false, Dev.linkVerify_ccm hk, Dev.uplinkPlain]
  cases ccmDec key (nonceOf (d.laddr n) c false d.cl.anchor) (additional w.frame.bytes h)
    (slice w.frame.bytes h.size (w.frame.bytes.length - h.size - 8)) (w.frame.bytes.drop (w.frame.bytes.length - 8)) <;> rfl

theorem Dev.verifyUplink_accepted {b : List Byte} (hb : d.uplinkPlain key w.frame h n c = some b) :
    d.verifyUplink r w h n false c pair [] = d.acceptData r n w h c b := by
  rw [Dev.verifyUplink_data htype hk, hb]
  rfl

theorem Dev.verifyUplink_tagFailed (hb : d.uplinkPlain key w.frame h n c = none) :
    d.verifyUplink r w h n false c pair [] = d.tagFailed r n w.frame := by
  rw [Dev.verifyUplink_data htype hk, hb]
  rfl

end

/-! ### The frame that the link engine takes -/

/-- The frame in front leaves the engine's work l behind it, after a lookup that examined k entries. -/
def Dev.takeUplink (d : Dev) (r : RegionId) (l : List UpWork) (k : Nat) : Dev :=
  (d.modLink r fun x => { x with work := l }).noteWalk (some r) k

section
variable {s : State} {r : RegionId} {w : UpWork} {l : List UpWork} {k : Nat}
  (hr : (s.d.regions[r]).retired = false) (hw : (s.d.regions[r]).link.work = w :: l)
include hr

theorem exec_linkUplink_eq (mm : List Mismatch) {g : Dev → Dev} (h : s.begun.d.linkUplink r mm = g s.begun.d) :
    exec (.linkUplink r mm) s = .next (onDevW g s) := by
  refine onDevW_next (f := fun d => if (d.regions[r]).retired then d else d.linkUplink r mm) ?_
  rw [show (s.begun.d.regions[r]).retired = false from hr, h]
  rfl

include hw

theorem exec_linkUplink_drop {c : LinkCnt} (hp : s.begun.d.planUplink r w = (.drop c, k)) (mm : List Mismatch) :
    exec (.linkUplink r mm) s = .next (onDevW (fun d => (d.takeUplink r l k).countLink r c) s) := by
  refine exec_linkUplink_eq hr mm ?_
  simp only [Dev.linkUplink, show (s.begun.d.regions[r]).link.work = w :: l from hw, hp]
  rfl

theorem exec_linkUplink_miss {h : LinkHdr} (hp : s.begun.d.planUplink r w = (.miss h, k)) (mm : List Mismatch) :
    exec (.linkUplink r mm) s = .next (onDevW (fun d => (d.takeUplink r l k).miss r w.frame h) s) := by
  refine exec_linkUplink_eq hr mm ?_
  simp only [Dev.linkUplink, show (s.begun.d.regions[r]).link.work = w :: l from hw, hp]
  rfl

theorem exec_linkUplink_verify {h : LinkHdr} {n : CtxId} {dup : Bool} {c : Nat} {d1 : Dev} {pair : Fin 6}
    (hp : s.begun.d.planUplink r w = (.verify h n dup c, k)) (hpair : s.begun.d.linkPair r = (d1, some pair))
    (mm : List Mismatch) : exec (.linkUplink r mm) s =
      .next (onDevW (fun _ => (d1.takeUplink r l k).verifyUplink r w h n dup c pair mm) s) := by
  refine exec_linkUplink_eq hr mm ?_
  simp only [Dev.linkUplink, show (s.begun.d.regions[r]).link.work = w :: l from hw, hp, hpair]
  rfl

variable {h : LinkHdr} {n : CtxId} (hp : s.begun.d.planUplink r w = (s.begun.d.planFrom4 r w.frame h n, k))
include hp

theorem exec_linkUplink_state (h2 : s.d.life n ≠ 2) (h1 : ¬ (s.d.life n = 1 ∧ h.type = 4)) (mm : List Mismatch) :
    exec (.linkUplink r mm) s = .next (onDevW (fun d => (d.takeUplink r l k).countLink r .state) s) :=
  exec_linkUplink_drop hr hw (hp.trans (by rw [Dev.planFrom4_state (d := s.begun.d) h2 h1])) mm

variable (htype : h.type ≠ 4) (hact : s.d.life n = 2)
include htype hact

theorem exec_linkUplink_gap (hg : extendFcnt (s.d.fcntup n) h.fcnt (s.d.regions[r]).link.maxgap = .gap) (mm : List Mismatch) :
    exec (.linkUplink r mm) s = .next (onDevW (fun d => (d.takeUplink r l k).countLink r .gap) s) :=
  exec_linkUplink_drop hr hw (hp.trans (by rw [Dev.planFrom4_gap (d := s.begun.d) hact htype hg])) mm

variable {c : Nat} (hc : extendFcnt (s.d.fcntup n) h.fcnt (s.d.regions[r]).link.maxgap = .ok c)
include hc

theorem exec_linkUplink_cipherlen (hl : h.size + 8 + 231 < w.frame.bytes.length) (mm : List Mismatch) :
    exec (.linkUplink r mm) s = .next (onDevW (fun d => (d.takeUplink r l k).countLink r .cipherlen) s) :=
  exec_linkUplink_drop hr hw (hp.trans (by rw [Dev.planFrom4_cipherlen (d := s.begun.d) hact htype hc hl])) mm

variable (hl : w.frame.bytes.length ≤ h.size + 8 + 231) {d1 : Dev} {pair : Fin 6} {key : List Byte}
  (hpair : s.begun.d.linkPair r = (d1, some pair))
  (hk : (d1.takeUplink r l k).keys.keyOf (2 * (d1.takeUplink r l k).keyPair n + 1) 0 = .ok key)
include hl hpair hk

theorem exec_linkUplink_accepted {b : List Byte} (hb : (d1.takeUplink r l k).uplinkPlain key w.frame h n c = some b) :
    exec (.linkUplink r []) s = .next (onDevW (fun _ => (d1.takeUplink r l k).acceptData r n w h c b) s) := by
  rw [exec_linkUplink_verify hr hw (hp.trans (by rw [Dev.planFrom4_verify (d := s.begun.d) hact htype hc hl])) hpair,
    Dev.verifyUplink_accepted htype hk hb]

theorem exec_linkUplink_tagFailed (hb : (d1.takeUplink r l k).uplinkPlain key w.frame h n c = none) :
    exec (.linkUplink r []) s = .next (onDevW (fun _ => (d1.takeUplink r l k).tagFailed r n w.frame) s) := by
  rw [exec_linkUplink_verify hr hw (hp.trans (by rw [Dev.planFrom4_verify (d := s.begun.d) hact htype hc hl])) hpair,
    Dev.verifyUplink_tagFailed htype hk hb]

end

theorem exec_missHoldExpired_of_held {s : State} {r : RegionId} {j : Fin 16} {x : Held}
    (h : (s.d.regions[r]).link.hold[j] = some x) : exec (.missHoldExpired r j) s = .next (onDev (fun d =>
      ((d.until_ x.until_).modLink r fun y => { y with hold := y.hold.set j none }).countLink r .missexpired) s) := by
  refine onDev_next (f := fun d => d.holdExpired r j) ?_
  simp only [Dev.holdExpired, h]

/-- Settles O19: each clause is the lemma above on the check at which the frame in front ends. -/
theorem uplinksAreCheckedInOrder : Obligations.UplinksAreCheckedInOrder := by
  intro s r
  refine ⟨fun w l hr hw => ?_, fun j x hx => exec_missHoldExpired_of_held hx⟩
  intro f ex take checks
  have checked (h : LinkHdr) (n : CtxId) (k : Nat)
      (hp : s.begun.d.planUplink r w = (s.begun.d.planFrom4 r w.frame h n, k)) : checks h n k :=
    ⟨exec_linkUplink_state hr hw hp, fun htype hact => ⟨exec_linkUplink_gap hr hw hp htype hact, fun c hc =>
      ⟨exec_linkUplink_cipherlen hr hw hp htype hact hc, fun hl d1 pair key hpair hk =>
        ⟨fun b => exec_linkUplink_accepted hr hw hp htype hact hc hl hpair hk,
          exec_linkUplink_tagFailed hr hw hp htype hact hc hl hpair hk⟩⟩⟩⟩
  refine ⟨fun hres => ⟨fun hp => exec_linkUplink_drop hr hw (Dev.planUplink_malformed hres hp), fun h hp =>
    ⟨fun hrel hh => exec_linkUplink_drop hr hw (Dev.planUplink_relaydeep hres hp hrel hh), fun hrel =>
      ⟨fun hf => exec_linkUplink_miss hr hw (Dev.planUplink_miss hres hp hrel hf), fun n hf =>
        checked h n _ (Dev.planUplink_found hres hp hrel hf)⟩⟩⟩,
    fun n at_ h hres hp => checked h n 0 (Dev.planUplink_resumed hres hp)⟩

/-- Settles O20: R166 forms the least value above U with the low bits on air, and the link engine takes a frame by it. -/
theorem fcntIsTheNextWithTheseLowBits : Obligations.FcntIsTheNextWithTheseLowBits := by
  refine ⟨fun u f g hu hf => ⟨fun he => by rw [extendFcnt_eq, if_pos he], fun hne c hc => ?ok, fun hne hno x hx hm => ?none,
    fun he c => he ▸ extendFcnt_highest hf g c⟩, fun s r w l h n hr hw hres => ?taken⟩
  case ok =>
    obtain ⟨hlt, hgap, rfl⟩ := (extendFcnt_ok_iff hne).mp hc
    obtain ⟨habove, hlow, hleast⟩ := nextFcnt_least u hf
    exact ⟨habove, hlt, hlow, hgap, hleast⟩
  case none =>
    obtain ⟨-, -, hleast⟩ := nextFcnt_least u hf
    have hle := hleast x hx hm
    by_contra hcon
    obtain ⟨h1, h2⟩ := not_or.mp hcon
    exact hno _ ((extendFcnt_ok_iff hne).mpr ⟨by omega, by omega, rfl⟩)
  case taken =>
    intro f take hp hrel hf htype hact
    have plan := Dev.planUplink_found (d := s.begun.d) hres hp hrel hf
    exact ⟨fun hg => exec_linkUplink_gap hr hw plan htype hact hg [], fun c d1 pair key b hc hl hpair hk hb =>
      exec_linkUplink_accepted hr hw plan htype hact hc hl hpair hk hb⟩

end Sys2Proof.Machine
end

section
/-! Operations on node contexts (R160 to R163): what INSTALL, FIND and REMOVE leave of the install table and the chains, and
the operations as a write of LINK_CTXOP begins them. -/

namespace Sys2Proof.Machine

/-! ### Changes that leave the chip level alone -/

/-- Only regions have changed. -/
structure RegionsOnly (d e : Dev) : Prop where
  rest : e = { d with regions := e.regions }

theorem RegionsOnly.refl (d : Dev) : RegionsOnly d d := ⟨rfl⟩

theorem RegionsOnly.trans {a b c : Dev} (h : RegionsOnly a b) (g : RegionsOnly b c) : RegionsOnly a c :=
  ⟨by rw [g.rest, h.rest]⟩

theorem RegionsOnly.modLink (d : Dev) (r : RegionId) (f : Link → Link) : RegionsOnly d (d.modLink r f) := ⟨rfl⟩

theorem RegionsOnly.foldl {α : Type} {f : Dev → α → Dev} (hf : ∀ d x, RegionsOnly d (f d x)) (l : List α) (d : Dev) :
    RegionsOnly d (l.foldl f d) := by
  induction l generalizing d with
  | nil => exact .refl d
  | cons x l ih => exact (hf d x).trans (ih (f d x))

theorem RegionsOnly.cl {d e : Dev} (h : RegionsOnly d e) : e.cl = d.cl := by rw [h.rest]

theorem RegionsOnly.resetDue {d e : Dev} (h : RegionsOnly d e) : e.resetDue = d.resetDue := by rw [h.rest]

theorem RegionsOnly.resumeHeld (d : Dev) (r : RegionId) (n : CtxId) : RegionsOnly d (d.resumeHeld r n) := ⟨rfl⟩

theorem RegionsOnly.noteWalk (d : Dev) (r : RegionId) (k : Nat) : RegionsOnly d (d.noteWalk (some r) k) := ⟨rfl⟩

/-- Every region's held frames of a context are released. -/
theorem RegionsOnly.resumeAll (d : Dev) (n : CtxId) : RegionsOnly d
    ((List.finRange 4).foldl (fun d q => if (d.regions[q]).retired then d else d.resumeHeld q n) d) :=
  .foldl (fun d q => by split; exacts [.refl d, .resumeHeld d q n]) _ _

/-! ### The table -/

theorem Dev.find_congr {d e : Dev} (h : e.cl = d.cl) (short : Bool) (a : Nat) : e.find short a = d.find short a := by
  simp only [Dev.find, Dev.lookup, Dev.bucket, h]

theorem Dev.installed_congr {d e : Dev} (h : e.cl = d.cl) (n : CtxId) : e.installed n = d.installed n := by
  simp only [Dev.installed, h]

theorem Dev.packets_congr {d e : Dev} (h : e.cl = d.cl) (n : CtxId) : e.packets n = d.packets n := by
  simp only [Dev.packets, Dev.chain, h]

theorem Dev.inFlight_modLink (d : Dev) (r : RegionId) {f : Link → Link} (hf : (f (d.regions[r]).link).work = (d.regions[r]).link.work)
    (n : CtxId) : (d.modLink r f).inFlight n = d.inFlight n := by
  have work (q : RegionId) : ((d.modLink r f).regions[q]).link.work = (d.regions[q]).link.work := by
    by_cases h : q = r
    · rw [h, Dev.modLink_eq, Dev.modRegion_regions_self, hf]
    · rw [Dev.modLink_eq, Dev.modRegion_regions_ne _ _ _ _ h]
  have look (short : Bool) (a : Nat) : (d.modLink r f).find short a = d.find short a := Dev.find_congr rfl short a
  simp only [Dev.inFlight, work, look]

theorem Dev.installed_filter (d : Dev) (n : CtxId) :
    { d with cl := { d.cl with table := d.cl.table.filter fun e => e.ctx ≠ n } }.installed n = false := by
  simp [Dev.installed]

/-! ### Chains -/

theorem Dev.putChain_empty_packets (d : Dev) (n : CtxId) (r : RegionId) :
    (d.putChain { ctx := n, region := r, packets := [], moveEnd := none }).packets n = [] := by
  have : (d.putChain { ctx := n, region := r, packets := [], moveEnd := none }).chain n = none := by
    simp [Dev.putChain, Dev.chain, Dev.ctxPut, Dev.took]
  rw [Dev.packets, this]

theorem Dev.emptyChain_packets (d : Dev) (n : CtxId) : (d.emptyChain n).packets n = [] := Dev.putChain_empty_packets _ _ _

/-- What the end of packets leaves alone: the table, the REMOVEs that wait, and whether a reset is due. -/
structure KeepsTable (d e : Dev) : Prop where
  table : e.cl.table = d.cl.table
  removing : e.cl.removing = d.cl.removing
  due : e.resetDue = d.resetDue

theorem KeepsTable.refl (d : Dev) : KeepsTable d d := ⟨rfl, rfl, rfl⟩

theorem KeepsTable.trans {a b c : Dev} (h : KeepsTable a b) (g : KeepsTable b c) : KeepsTable a c :=
  ⟨g.table.trans h.table, g.removing.trans h.removing, g.due.trans h.due⟩

theorem Dev.producePacket_cl {d e : Dev} {q : QueueId} {ws : List Word64} (h : d.producePacket q ws = some e) : e.cl = d.cl := by
  unfold Dev.producePacket at h
  split at h
  · cases h
    unfold Dev.wakeDomain
    split <;> rfl
  · cases h

/-- A status word changes neither the chip level of the link layer nor whether a reset is due. -/
theorem Dev.dnStatus_leaves (d : Dev) (r : RegionId) (tag ctx result fcnt : Nat) :
    (d.dnStatus r tag ctx result fcnt).cl = d.cl ∧ (d.dnStatus r tag ctx result fcnt).resetDue = d.resetDue := by
  unfold Dev.dnStatus
  dsimp only
  split
  next e he => exact ⟨Dev.producePacket_cl he, (Dev.producePacket_some he).2.2.2⟩
  next => exact ⟨rfl, rfl⟩

theorem KeepsTable.putChain (d : Dev) (c : Chain) : KeepsTable d (d.putChain c) := ⟨rfl, rfl, rfl⟩

theorem KeepsTable.endPacket (d : Dev) (n : CtxId) (p : DnPacket) (result : Nat) : KeepsTable d (d.endPacket n p result) := by
  unfold Dev.endPacket
  split
  next => exact .refl d
  next c _ =>
    obtain ⟨hcl, hdue⟩ := Dev.dnStatus_leaves (d.putChain { c with packets := dropPacket p.id c.packets }) c.region
      p.tag.toNat n.val result p.fcntUsed
    exact (KeepsTable.putChain d _).trans ⟨by rw [hcl], by rw [hcl], hdue⟩

theorem KeepsTable.endPackets (n : CtxId) (result : Nat) (l : List DnPacket) (d : Dev) :
    KeepsTable d (l.foldl (fun d p => d.endPacket n p result) d) := by
  induction l generalizing d with
  | nil => exact .refl d
  | cons p l ih => exact (KeepsTable.endPacket d n p result).trans (ih _)

theorem KeepsTable.emptyChain (d : Dev) (n : CtxId) : KeepsTable d (d.emptyChain n) := ⟨rfl, rfl, rfl⟩

/-! ### INSTALL, REMOVE and FIND (R161) -/

/-- What a REMOVE that takes effect leaves. -/
theorem Dev.ctxRemoveNow_leaves (d : Dev) (n : CtxId) :
    (d.ctxRemoveNow n).cl.table = d.cl.table.filter (fun e => e.ctx ≠ n) ∧ (d.ctxRemoveNow n).installed n = false ∧
    (d.ctxRemoveNow n).packets n = [] ∧ (d.ctxRemoveNow n).cl.removing = d.cl.removing ∧
    (d.ctxRemoveNow n).resetDue = d.resetDue := by
  have h := (KeepsTable.endPackets n 8 (d.packets n) d).trans (KeepsTable.emptyChain _ n)
  refine ⟨?_, Dev.installed_filter _ n, Dev.emptyChain_packets _ n, h.removing, h.due⟩
  rw [← h.table]
  rfl

/-- The entries that an INSTALL of context n puts at the front of the table. -/
def Dev.keyEntries (d : Dev) (n : CtxId) : List HashEntry :=
  ((d.keysOf n).map fun k => { short := k.1, addr := BitVec.ofNat 32 k.2, ctx := n : HashEntry }).reverse

/-- The walks that an INSTALL of context n makes in region r. -/
def Dev.walkKeys (d : Dev) (r : RegionId) (n : CtxId) : Dev :=
  (d.keysOf n).foldl (fun (d : Dev) (k : Bool × Nat) => d.noteWalk (some r) (d.bucket (hashBucket (hashKey k.1 k.2))).length) d

theorem RegionsOnly.walkKeys (d : Dev) (r : RegionId) (n : CtxId) : RegionsOnly d (d.walkKeys r n) :=
  .foldl (fun _ _ => .noteWalk ..) _ _

/-- The device once context n's keys, its entries es, stand in the table and its chain is empty. -/
def Dev.entered (d : Dev) (n : CtxId) (es : List HashEntry) : Dev :=
  ({ d with cl := { d.cl with table := es ++ d.cl.table } }).emptyChain n

theorem Dev.ctxInstall_installed {d : Dev} {n : CtxId} (h : d.installed n = true) (r : Option RegionId) :
    d.ctxInstall r n = (d, 6) := if_pos h

section
variable {d : Dev} {r : RegionId} {n : CtxId} (hi : d.installed n = false) (h0 : d.laddr n ≠ 0)
  (h1 : d.laddr n ≠ 0xFFFFFFFF) (hl : d.life n ≠ 0) (hk : ∀ k ∈ d.keysOf n, d.find k.1 k.2 = none)
include hi h0 h1 hl hk

/-- An INSTALL that R161 allows enters the keys, empties the chain and releases the held frames. -/
theorem Dev.ctxInstall_eq : d.ctxInstall (some r) n = ((List.finRange 4).foldl
    (fun d q => if (d.regions[q]).retired then d else d.resumeHeld q n) ((d.walkKeys r n).entered n (d.keyEntries n)), 2) := by
  have free : ((d.keysOf n).any fun (k : Bool × Nat) => ((d.walkKeys r n).find k.1 k.2).isSome) = false := by
    rw [List.any_eq_false]
    intro k hmem
    rw [Dev.find_congr (RegionsOnly.walkKeys d r n).cl, hk k hmem]
    exact Bool.false_ne_true
  unfold Dev.walkKeys at free
  simp only [Dev.ctxInstall, hi, h0, h1, hl, free, Bool.false_eq_true, or_self, if_false]
  rfl

theorem Dev.ctxInstall_enters : ∃ e, d.ctxInstall (some r) n = (e, 2) ∧ e.cl.table = d.keyEntries n ++ d.cl.table ∧
    e.packets n = [] ∧ e.resetDue = d.resetDue := by
  have walked := RegionsOnly.walkKeys d r n
  have resumed := RegionsOnly.resumeAll ((d.walkKeys r n).entered n (d.keyEntries n)) n
  refine ⟨_, Dev.ctxInstall_eq hi h0 h1 hl hk, ?_, ?_, ?_⟩
  · rw [resumed.cl, Dev.entered, (KeepsTable.emptyChain _ n).table, walked.cl]
  · rw [Dev.packets_congr resumed.cl]
    exact Dev.emptyChain_packets _ n
  · rw [resumed.resetDue, Dev.entered, (KeepsTable.emptyChain _ n).due]
    exact walked.resetDue

end

theorem Dev.installed_of_entries {d e : Dev} {n : CtxId} (h : e.cl.table = d.keyEntries n ++ d.cl.table) :
    e.installed n = true := by
  simp [Dev.installed, h, Dev.keyEntries, Dev.keysOf]

/-! ### LINK_CTXOP (R161, R180) -/

/-- The operation that a write of LINK_CTXOP leaves in the register. -/
def Dev.ctxopOf (d : Dev) (r : RegionId) (v : Word) : CtxOp :=
  { (d.regions[r]).link.op with index := fld v 0 12, op := fld v 12 2, short := bit v 14 }

/-- The operation o stands in a region's register. -/
def Dev.putOp (d : Dev) (r : RegionId) (o : CtxOp) : Dev := d.modLink r fun l => { l with op := o }

theorem Dev.putOp_putOp (d : Dev) (r : RegionId) (o o' : CtxOp) : (d.putOp r o).putOp r o' = d.putOp r o' :=
  Dev.modLink_modLink ..

theorem Dev.putOp_cl_putOp (d : Dev) (r : RegionId) (o o' : CtxOp) (c : ChipLink) :
    ({ d.putOp r o with cl := c }).putOp r o' = { d.putOp r o' with cl := c } :=
  congrArg (fun e : Dev => { e with cl := c }) (Dev.putOp_putOp d r o o')

theorem Dev.putOp_op (d : Dev) (r : RegionId) (o : CtxOp) : ((d.putOp r o).regions[r]).link.op = o := by
  rw [Dev.putOp, Dev.modLink_eq, Dev.modRegion_regions_self]

theorem Dev.inFlight_putOp (d : Dev) (r : RegionId) (o : CtxOp) (n : CtxId) : (d.putOp r o).inFlight n = d.inFlight n :=
  Dev.inFlight_modLink d r rfl n

theorem Dev.ctxRemove_notInstalled {d : Dev} {n : CtxId} (h : d.installed n = false) (r : Option RegionId) :
    d.ctxRemove r n = (d, 5) := by simp [Dev.ctxRemove, h]

theorem Dev.ctxRemove_waits {d : Dev} {n : CtxId} (h : d.installed n = true) (hf : d.inFlight n = true) (r : Option RegionId) :
    d.ctxRemove r n = ({ d with cl := { d.cl with removing := d.cl.removing ++ [(n, r)] } }, 1) := by
  simp [Dev.ctxRemove, h, hf]

theorem Dev.ctxRemove_now {d : Dev} {n : CtxId} (h : d.installed n = true) (hf : d.inFlight n = false) (r : Option RegionId) :
    d.ctxRemove r n = (d.ctxRemoveNow n, 2) := by simp [Dev.ctxRemove, h, hf]

section
variable {d : Dev} {r : RegionId} {v : Word} (hgo : v.getLsbD 15 = true) (hst : (d.regions[r]).link.op.status ≠ 1)
include hgo hst

/-- GO with no operation pending runs the operation. -/
theorem Dev.writeCtxop_go : d.writeCtxop r v =
    (let x := (d.putOp r (d.ctxopOf r v)).ctxRun (some r) (d.ctxopOf r v); x.1.putOp r x.2) :=
  if_pos ⟨hgo, hst⟩

theorem Dev.writeCtxop_install (hop : fld v 12 2 = 1) {e : Dev} {st : Nat}
    (h : (d.putOp r (d.ctxopOf r v)).ctxInstall (some r) (Fin.ofNat 4096 (fld v 0 12)) = (e, st)) :
    d.writeCtxop r v = e.putOp r { d.ctxopOf r v with status := st } := by
  have : (d.ctxopOf r v).op = 1 := hop
  rw [Dev.writeCtxop_go hgo hst, Dev.ctxRun, if_pos this]
  exact congrArg (fun x => x.1.putOp r { d.ctxopOf r v with status := x.2 }) h

theorem Dev.writeCtxop_remove (hop : fld v 12 2 = 2) {e : Dev} {st : Nat}
    (h : (d.putOp r (d.ctxopOf r v)).ctxRemove (some r) (Fin.ofNat 4096 (fld v 0 12)) = (e, st)) :
    d.writeCtxop r v = e.putOp r { d.ctxopOf r v with status := st } := by
  have h2 : (d.ctxopOf r v).op = 2 := hop
  have h1 : (d.ctxopOf r v).op ≠ 1 := by omega
  rw [Dev.writeCtxop_go hgo hst, Dev.ctxRun, if_neg h1, if_pos h2]
  exact congrArg (fun x => x.1.putOp r { d.ctxopOf r v with status := x.2 }) h

/-- FIND notes its walk and leaves the context that it found, or NOTINST. -/
theorem Dev.writeCtxop_find (hop : fld v 12 2 = 3) {a : Nat}
    (ha : a = if v.getLsbD 14 then (d.regions[r]).link.op.key.toNat % 65536 else (d.regions[r]).link.op.key.toNat) :
    d.writeCtxop r v = d.modLink r fun l => { l with
      op := match d.find (v.getLsbD 14) a with
        | some m => { d.ctxopOf r v with index := m.val, status := 2 }
        | none => { d.ctxopOf r v with status := 5 }
      longest := max l.longest (min (d.lookup (v.getLsbD 14) a).2 255) } := by
  have h3 : (d.ctxopOf r v).op = 3 := hop
  have h1 : (d.ctxopOf r v).op ≠ 1 := by omega
  have h2 : (d.ctxopOf r v).op ≠ 2 := by omega
  have found : (d.putOp r (d.ctxopOf r v)).ctxFind (some r) (d.ctxopOf r v).short (d.ctxopOf r v).key =
      ((d.putOp r (d.ctxopOf r v)).noteWalk (some r) (d.lookup (v.getLsbD 14) a).2, d.find (v.getLsbD 14) a) := by
    rw [ha]
    rfl
  rw [Dev.writeCtxop_go hgo hst, Dev.ctxRun, if_neg h1, if_neg h2, if_pos h3, found]
  cases d.find (v.getLsbD 14) a <;> simp only [Dev.putOp, Dev.noteWalk, Dev.modLink_modLink]

end

/-! ### Accesses of the link registers (R180) -/

/-- A write of a link register of a region's cipher page that answers. -/
theorem rowWrite_linkReg {i : Initiator} {r : RegionId} {o : Nat} {v : Word} {s : State} {g : Dev → Dev} (ho : 0x200 ≤ o)
    (ho' : o < 0x10000) (hp : s.d.pageAnswers r 2) (hi : s.d.mayWrite i (regionPage r 2 + o))
    (h : s.begun.d.linkWrite r o v = g s.begun.d) :
    (Host.Outcome.next (rowWrite i (regionPage r 2 + o) v s) : Host.Outcome State Fault Refusal) =
      .next (onDevW (fun d => (g d).answer i .done) s) := by
  refine rowWrite_regionReg (k := 2) rfl ho' hp hi ?_
  rw [regionWrite, if_neg (not_lt.mpr ho), h]

section
variable {s : State} {i : Initiator} {r : RegionId} {v : Word} (hp : s.d.pageAnswers r 2)
  (hi : s.d.mayWrite i (regionPage r 2 + 0x8020)) {g : Dev → Dev} (h : s.begun.d.writeCtxop r v = g s.begun.d)
include hp hi h

/-- A write of LINK_CTXOP, whichever operation its row names. -/
theorem exec_ctxop_eq : exec (.ctxopInstall i r v) s = .next (onDevW (fun d => (g d).answer i .done) s) ∧
    exec (.ctxopRemove i r v) s = .next (onDevW (fun d => (g d).answer i .done) s) ∧
    exec (.ctxopFind i r v) s = .next (onDevW (fun d => (g d).answer i .done) s) := by
  have w := rowWrite_linkReg (o := 0x8020) (by decide) (by decide) hp hi h
  exact ⟨w, w, w⟩

end

/-- What a command that calls for no reset answers: the parts that the statements on contexts speak of. -/
theorem answers_onDevW {o : Host.Outcome State Fault Refusal} {f : Dev → Dev} {s : State} {post : State → Prop}
    (ho : o = .next (onDevW f s)) (hd : (f s.begun.d).resetDue = false)
    (h : ∀ t : State, t.ram = s.ram → t.d.cl = (f s.begun.d).cl → t.d.regions = (f s.begun.d).regions →
      t.d.bus = (f s.begun.d).bus → post t) : answers o post :=
  ⟨_, ho, by rw [onDevW_of hd]; exact h _ rfl (Dev.settle_cl _) (Dev.settle_regions _) (Dev.settle_bus _)⟩

/-- Settles O17: each clause is what the operation that GO names leaves, as LINK_CTXOP then shows it. -/
theorem contextOperationsAnswer : Obligations.ContextOperationsAnswer := by
  intro s i r v hp hi hgo hst n o
  have inst : (s.begun.d.putOp r o).installed n = s.d.installed n := Dev.installed_congr rfl n
  have flight : (s.begun.d.putOp r o).inFlight n = s.d.inFlight n := Dev.inFlight_putOp s.begun.d r o n
  have install {e : Dev} {st : Nat} := Dev.writeCtxop_install (d := s.begun.d) (r := r) (e := e) (st := st) hgo hst
  have remove {e : Dev} {st : Nat} := Dev.writeCtxop_remove (d := s.begun.d) (r := r) (e := e) (st := st) hgo hst
  have write {g : Dev → Dev} := exec_ctxop_eq (v := v) (g := g) hp hi
  refine ⟨fun h hn h0 h1 hl hk => ?install, fun h hn => ?dup, fun h => ⟨fun hn => ?notInst, fun hn hf => ?waits,
    fun hn hf => ?removed⟩, fun h => ?find⟩
  case install =>
    obtain ⟨e, he, htable, hpack, hdue⟩ := Dev.ctxInstall_enters (d := s.begun.d.putOp r o) (r := r) (n := n)
      (inst.trans hn) h0 h1 hl hk
    have w := install h he
    refine answers_onDevW (write (g := fun d => d.writeCtxop r v) rfl).1 (by rw [w]; exact hdue) fun t hram hcl hregions hbus => ?_
    rw [w] at hcl hregions hbus
    refine ⟨?_, ?_, hcl ▸ htable, ?_, ?_, hram⟩
    · rw [hregions]
      exact Dev.putOp_op _ r _
    · exact Dev.installed_of_entries (d := s.begun.d.putOp r o) (hcl ▸ htable)
    · exact (Dev.packets_congr hcl n).trans hpack
    · rw [hbus]
      exact Dev.answer_bus_self ..
  case dup =>
    exact (write (g := fun d => d.putOp r { o with status := 6 })
      ((install h (Dev.ctxInstall_installed (inst.trans hn) _)).trans (Dev.putOp_putOp ..))).1
  case notInst =>
    exact (write (g := fun d => d.putOp r { o with status := 5 })
      ((remove h (Dev.ctxRemove_notInstalled (inst.trans hn) _)).trans (Dev.putOp_putOp ..))).2.1
  case waits =>
    refine (write (g := fun d => { d.putOp r { o with status := 1 } with
      cl := { d.cl with removing := d.cl.removing ++ [(n, some r)] } }) ?_).2.1
    exact (remove h (Dev.ctxRemove_waits (inst.trans hn) (flight.trans hf) _)).trans (Dev.putOp_cl_putOp ..)
  case removed =>
    obtain ⟨htable, hinst, hpack, -, hdue⟩ := Dev.ctxRemoveNow_leaves (s.begun.d.putOp r o) n
    have w := remove h (Dev.ctxRemove_now (inst.trans hn) (flight.trans hf) _)
    refine answers_onDevW (write (g := fun d => d.writeCtxop r v) rfl).2.1 (by rw [w]; exact hdue) fun t hram hcl hregions hbus => ?_
    rw [w] at hcl hregions hbus
    refine ⟨?_, ?_, ?_, hcl ▸ htable, ?_, hram⟩
    · rw [hregions]
      exact Dev.putOp_op _ r _
    · exact (Dev.installed_congr hcl n).trans hinst
    · exact (Dev.packets_congr hcl n).trans hpack
    · rw [hbus]
      exact Dev.answer_bus_self ..
  case find =>
    intro a
    have find := Dev.writeCtxop_find (d := s.begun.d) hgo hst h (a := a) rfl
    refine ⟨fun m hm => ?_, fun hm => ?_⟩
    · refine (write (g := fun d => d.modLink r fun l => { l with
        op := { o with index := m.val, status := 2 }
        longest := max l.longest (min (d.lookup (v.getLsbD 14) a).2 255) }) ?_).2.2
      rw [find, show s.begun.d.find (v.getLsbD 14) a = some m from hm]
      rfl
    · refine (write (g := fun d => d.modLink r fun l => { l with
        op := { o with status := 5 }
        longest := max l.longest (min (d.lookup (v.getLsbD 14) a).2 255) }) ?_).2.2
      rw [find, show s.begun.d.find (v.getLsbD 14) a = none from hm]
      rfl

end Sys2Proof.Machine
end

section
/-! The end of a REMOVE that waited (R161), the link registers (R162, R180, R181) and the words of context memory (R159, R469)
as accesses see them. -/

namespace Sys2Proof.Machine

/-! ### The end of a REMOVE that waited (R161) -/

theorem exec_ctxopRemoveDone_eq (n : CtxId) (s : State) :
    exec (.ctxopRemoveDone n) s = .next (onDev (fun d => d.ctxRemoveDone n) s) := rfl

/-- The device once a REMOVE has taken effect, where its context is still installed. -/
def Dev.removed (d : Dev) (n : CtxId) : Dev := if d.installed n then d.ctxRemoveNow n else d

theorem Dev.removed_leaves (d : Dev) (n : CtxId) : (d.removed n).installed n = false ∧
    (d.installed n = true → (d.removed n).packets n = []) ∧ (d.removed n).cl.removing = d.cl.removing := by
  obtain ⟨-, hinst, hpack, hrem, -⟩ := Dev.ctxRemoveNow_leaves d n
  cases h : d.installed n with
  | true =>
    rw [Dev.removed, if_pos h]
    exact ⟨hinst, fun _ => hpack, hrem⟩
  | false =>
    rw [Dev.removed, if_neg (Bool.eq_false_iff.mp h)]
    exact ⟨h, fun e => absurd e Bool.false_ne_true, rfl⟩

/-- The REMOVE that a region asked for waits no longer, takes effect and shows its status. -/
theorem Dev.ctxRemoveDone_eq {d : Dev} {n : CtxId} {r : RegionId}
    (h : d.cl.removing.find? (fun x => x.1 = n) = some (n, some r)) (hf : d.inFlight n = false) :
    d.ctxRemoveDone n = (({ d with cl := { d.cl with removing := d.cl.removing.erase (n, some r) } }).removed n).modLink r
      fun l => { l with op := { l.op with status := if d.installed n then 2 else 5 } } := by
  simp only [Dev.ctxRemoveDone, h, hf]
  rfl

/-! ### Context words (R159, R469) -/

/-- A context word's address. -/
theorem winOf_ctx {o : Nat} (h : o < 0x40000) : winOf (0x30000000 + o) = .ctx o := by
  have n1 : ¬ 0x30000000 + o < 0x10000 := by omega
  have n2 : ¬ (0x08000000 ≤ 0x30000000 + o ∧ 0x30000000 + o < 0x08800000) := by omega
  have n3 : ¬ (0x20000000 ≤ 0x30000000 + o ∧ 0x30000000 + o < 0x20080000) := by omega
  have n4 : ¬ (0x21000000 ≤ 0x30000000 + o ∧ 0x30000000 + o < 0x21400000) := by omega
  have n5 : 0x30000000 ≤ 0x30000000 + o ∧ 0x30000000 + o < 0x30040000 := by omega
  rw [winOf, if_neg n1, if_neg n2, if_neg n3, if_neg n4, if_pos n5, Nat.add_sub_cancel_left]

/-- A write of a word of context memory. -/
theorem exec_contextWordWrite_eq {i : Initiator} {n : CtxId} {w : Fin 16} {v : Word} {s : State} {g : Dev → Dev}
    (hi : s.d.mayWrite i (0x30000000 + 64 * n.val + 4 * w.val))
    (h : s.begun.ctxWrite (64 * n.val + 4 * w.val) v = ({ s.begun with d := g s.begun.d }, .done)) :
    exec (.contextWordWrite i n w v) s = .next (onDevW (fun d => (g d).answer i .done) s) := by
  have ha : 0x30000000 + 64 * n.val + 4 * w.val = 0x30000000 + (64 * n.val + 4 * w.val) := Nat.add_assoc ..
  have hw := winOf_ctx (o := 64 * n.val + 4 * w.val) (by omega)
  have e : exec (.contextWordWrite i n w v) s = .next (rowWrite i (0x30000000 + 64 * n.val + 4 * w.val) v s) := rfl
  rw [e, rowWrite_of_mayWrite hi, ha, State.busWrite, State.memStore, hw]
  simp only [ne_eq, not_true_eq_false, if_false, h]
  rfl

theorem ctxOffset_div (n : CtxId) (w : Fin 16) : Fin.ofNat 4096 ((64 * n.val + 4 * w.val) / 64) = n := by
  apply Fin.ext
  rw [Fin.val_ofNat]
  omega

theorem State.ctxWrite_takes {s : State} {n : CtxId} {w : Fin 16} (h : w ≠ 15 ∨ s.d.installed n = false) (v : Word) :
    s.ctxWrite (64 * n.val + 4 * w.val) v =
      ({ s with d := { s.d with
        errs := s.d.errs.filter (fun x => decide (x.1 < 0x30000000 + (64 * n.val + 4 * w.val)) ||
          decide (0x30000000 + (64 * n.val + 4 * w.val) + 4 ≤ x.1))
        cl := { s.d.cl with ctx := memWrite 0 s.d.cl.ctx (64 * n.val + 4 * w.val) (natBytes 4 v.toNat) } } }, .done) := by
  refine if_neg ?_
  rw [ctxOffset_div]
  rintro ⟨ho, hi⟩
  rcases h with h | h
  · exact h (Fin.ext (show w.val = 15 by omega))
  · rw [h] at hi
    cases hi

theorem State.ctxWrite_ignored {s : State} {n : CtxId} (h : s.d.installed n = true) (v : Word) :
    s.ctxWrite (64 * n.val + 4 * (15 : Fin 16).val) v = (s, .done) := by
  refine if_pos ⟨?_, ?_⟩
  · rw [show (15 : Fin 16).val = 15 from rfl]
    omega
  · rw [ctxOffset_div, h]

/-! ### The end, and the registers -/

/-- A read of a link register of a region's cipher page that answers. -/
theorem rowRead_linkReg {i : Initiator} {r : RegionId} {o : Nat} {w : Word} {s : State} (ho : 0x200 ≤ o)
    (ho' : o < 0x10000) (hp : s.d.pageAnswers r 2) (hi : s.d.mayRead i (regionPage r 2 + o))
    (h : s.begun.d.linkRead r o = some w) :
    (Host.Outcome.next (rowRead i (regionPage r 2 + o) s) : Host.Outcome State Fault Refusal) =
      .next (onDevW (fun d => (d.linkReadEffect r o).answer i (.data w)) s) := by
  refine rowRead_regionReg (k := 2) rfl ho' hp hi ?_
  rw [Dev.regionRead, if_neg (not_lt.mpr ho), h]
  rfl

/-- Settles O18: a REMOVE that waited ends as one that did not, and each access is the write or read of its word. -/
theorem linkRegistersAndContextWords : Obligations.LinkRegistersAndContextWords := by
  intro s
  refine ⟨fun n r hrem hf => ?removeDone, fun i r v hp => ⟨fun hi hv => ?cntclr, fun hi => ?anchorid, fun hi => ?hashstat⟩,
    fun i n w v hi => ⟨fun h => exec_contextWordWrite_eq hi (State.ctxWrite_takes (s := s.begun) h v), fun hw hn => ?ignored⟩⟩
  case removeDone =>
    obtain ⟨hinst, hpack, hremoving⟩ :=
      Dev.removed_leaves { s.d with cl := { s.d.cl with removing := s.d.cl.removing.erase (n, some r) } } n
    have cl : (onDev (fun d => d.ctxRemoveDone n) s).d.cl =
        (Dev.removed { s.d with cl := { s.d.cl with removing := s.d.cl.removing.erase (n, some r) } } n).cl := by
      rw [onDev_d, Dev.settle_cl, Dev.ctxRemoveDone_eq hrem hf]
      rfl
    refine ⟨_, exec_ctxopRemoveDone_eq n s, ?_⟩
    refine ⟨?_, (Dev.installed_congr cl n).trans hinst, fun h => (Dev.packets_congr cl n).trans (hpack h),
      (congrArg ChipLink.removing cl).trans hremoving, rfl⟩
    rw [onDev_d, Dev.settle_regions, Dev.ctxRemoveDone_eq hrem hf, Dev.modLink_eq, Dev.modRegion_regions_self]
  case cntclr => exact rowWrite_linkReg (o := 0x802C) (by decide) (by decide) hp hi (if_pos hv)
  case anchorid =>
    refine rowWrite_linkReg (o := 0x8004) (g := fun d => { d with cl := { d.cl with
      anchor := if v = 0xFFFFFFFF then d.cl.anchor else v } }) (by decide) (by decide) hp hi ?_
    by_cases h : v = 0xFFFFFFFF
    · rw [if_pos h]
      exact if_pos h
    · rw [if_neg h]
      exact if_neg h
  case hashstat => exact rowRead_linkReg (o := 0x8028) (by decide) (by decide) hp hi rfl
  case ignored =>
    subst hw
    exact exec_contextWordWrite_eq (g := id) hi (State.ctxWrite_ignored (s := s.begun) hn v)

end Sys2Proof.Machine
end

section
/-! The packets of DNINQ (R177, R178), and what taking one can cost: a word taken with a wrong bit can retire its queue bank,
and with the region's last bank the region and the chains in its queue memory (R356, R420, R424, R426), so that a chain
that was full when the packet came has room once the packet is taken. -/

namespace Sys2Proof.Machine

/-! ### A packet that is taken -/

theorem exec_downlinkPacket_eq (r : RegionId) (s : State) :
    exec (.downlinkPacket r) s = .next (onDevW (fun d => d.downlinkPacket r) s) := rfl

section
variable {d : Dev} {r : RegionId} {q : QueueId} {ws : List QWord}
  (hq : queueOf r (Fin.ofNat 32 (fld (d.regions[r]).link.qsel 8 5)) = q) (hu : d.queueUsable q = true)
  (hws : (d.queue q).packet = some ws)
include hq hu hws

/-- A packet of a unicast kind goes to its chain, as the device stands once its words are taken. -/
theorem Dev.downlinkPacket_unicast {e : Dev} (he : d.takeWords q ws.length = e) {w0 : Word64}
    (hw : (ws.map (·.value)).headD 0 = w0) (hk : fld64 w0 12 3 < 3) (ha : e.cl.anchor ≠ 0) :
    d.downlinkPacket r = e.appendPacket r w0 ((ws.map (·.value)).drop 1) := by
  have h5 : ¬ 5 ≤ fld64 w0 12 3 := by omega
  have h3 : ¬ 3 ≤ fld64 w0 12 3 := by omega
  simp only [Dev.downlinkPacket, hq, hu, if_true, hws, he, hw, ha, h5, h3, if_false]

end

/-- A packet that its chain has room for is counted, so the chip level of the link layer changes. -/
theorem Dev.appendPacket_leaves {d : Dev} {r : RegionId} {w0 : Word64} {pay : List Word64}
    (hi : d.installed (Fin.ofNat 4096 (fld64 w0 0 12)) = true)
    (hl : (d.packets (Fin.ofNat 4096 (fld64 w0 0 12))).length < d.dnmax r) (hk : fld64 w0 12 3 ≠ 2) :
    (d.appendPacket r w0 pay).cl ≠ d.cl ∧ (d.appendPacket r w0 pay).resetDue = d.resetDue := by
  have count : (d.appendPacket r w0 pay).cl.packets = d.cl.packets + 1 ∧ (d.appendPacket r w0 pay).resetDue = d.resetDue := by
    simp only [Dev.appendPacket, hi, Bool.not_true, Bool.false_eq_true, if_false, not_le.mpr hl, hk]
    exact ⟨rfl, rfl⟩
  refine ⟨fun h => ?_, count.2⟩
  rw [h] at count
  exact absurd count.1 (Nat.succ_ne_self _).symm

/-- One that is refused changes nothing there. -/
theorem Dev.refusePacket_full_leaves (d : Dev) (r : RegionId) (w0 : Word64) :
    ((d.refusePacket r w0 4).countLink r .dnfull).cl = d.cl ∧
    ((d.refusePacket r w0 4).countLink r .dnfull).resetDue = d.resetDue :=
  Dev.dnStatus_leaves _ _ _ _ _ _

/-! ### What the retirement of a region leaves of the link layer (R424) -/

theorem RxOnly.cl {d e : Dev} (h : RxOnly d e) : e.cl = d.cl := by rw [h.rest]

/-- A port without stakes goes off: nothing of the link layer changes. -/
theorem Dev.portCut_cl {d : Dev} {p : PortId} (h : (d.ports[p]).sb.used = []) : (d.portCut p).cl = d.cl := by
  have stopped : RxOnly d ((((d.stopFrames p).abortOwnLanes p).leaveCombines p).abandonGauge p) :=
    (((RxOnly.stopFrames _ _).trans (RxOnly.abortJobs _ _)).trans (RxOnly.leaveCombines _ _)).trans (RxOnly.abandonGauge _ _)
  have ended : Dev.endStakes ((((d.stopFrames p).abortOwnLanes p).leaveCombines p).abandonGauge p) p 11 =
      (((d.stopFrames p).abortOwnLanes p).leaveCombines p).abandonGauge p := by
    rw [Dev.endStakes, stopped.port p, h]
    rfl
  have off : (d.portOff p).cl = d.cl := by
    rw [Dev.portOff, (RxOnly.gcSlices _ _).cl, (RxOnly.serveLanes _ _).cl, Dev.femTo, Dev.modTx_eq, Dev.modPort_cl,
      Dev.endPlumb, Dev.modRx_eq, Dev.modPort_cl, ended, stopped.cl]
  simp only [Dev.portCut, Dev.femTo, Dev.modCal_eq, Dev.modRx_eq, Dev.modTx_eq, Dev.modSb_eq, Dev.modPort_cl, off]

theorem Dev.cutPort_cl {d : Dev} {p : PortId} (h : (d.ports[p]).sb.used = []) : (d.cutPort p).cl = d.cl := by
  rw [Dev.cutPort, Dev.modRx_eq, Dev.modPort_cl, Dev.portCut_cl h]

/-- The stakes of the other ports stand. -/
theorem StopsAt.cutPort (p : PortId) (d : Dev) (h : (d.ports[p]).sb.used = []) : StopsAt p d (d.cutPort p) :=
  (StopsAt.portCut p d (by rw [h]; rfl)).trans (StopsAt.of_rxOnly p (RxOnly.modRx _ _ _))

theorem Dev.cutPorts_cl (l : List PortId) {d : Dev} (h : ∀ p : PortId, (d.ports[p]).sb.used = []) :
    (l.foldl Dev.cutPort d).cl = d.cl := by
  induction l generalizing d with
  | nil => rfl
  | cons q l ih =>
    have rest (p : PortId) : ((d.cutPort q).ports[p]).sb.used = [] := by
      by_cases hq : p = q
      · rw [hq, Dev.cutPort_used]
      · rw [(StopsAt.cutPort q d (h q)).sb p hq, h p]
    rw [List.foldl_cons, ih rest, Dev.cutPort_cl (h q)]

theorem Dev.cutCores_cl (l : List CoreId) (d : Dev) : (l.foldl Dev.cutCore d).cl = d.cl := by
  induction l generalizing d with
  | nil => rfl
  | cons c l ih => exact ih (d.cutCore c)

/-- A region without stakes and without the main core retires: of the link layer its chains are lost, and no more. -/
theorem Dev.retireRegion_cl {d e : Dev} {r : RegionId} {cause : Nat} (hr : (d.regions[r]).retired = false)
    (hm : regionOfCore d.mainCore ≠ r) (he : d.noteRetired (.unit (.region r)) 5 cause = e)
    (h : ∀ p : PortId, (e.ports[p]).sb.used = []) :
    ∃ f : Dev, f.cl = e.cl ∧ (d.retireRegion r cause).cl = (f.loseChains r).cl := by
  refine ⟨((List.finRange 8).filter fun c => regionOfCore c = r).foldl Dev.cutCore ((portsOf r).foldl Dev.cutPort e),
    (Dev.cutCores_cl _ _).trans (Dev.cutPorts_cl _ h), ?_⟩
  simp only [Dev.retireRegion, hr, hm, he, false_and, if_false, Bool.false_eq_true]
  rfl

/-! ### The counterexample -/

/-- A packet of kind DATA for context 5: one word, with one wrong bit. -/
def crowdPacket : List QWord := [{ data := 5, eop := true, err := some false }]

/-- The chain of context 5 in region 1, as long as DNMAX has it. -/
def crowdChain : Chain :=
  { ctx := 5, region := 1, moveEnd := none
    packets := List.replicate 4 { id := 0, kind := 0, ackreq := false, tag := 0, payload := [], expires := none, sent := 0, fcnt := none } }

/-- Region 1 with its last queue bank, which has failed twice in the window of PERMCOUNT = 3; in it the full chain, and in
its DNINQ the packet. -/
def crowdRegion : State :=
  { State.reset with d :=
      { ((State.reset.d.modRegion 1 fun r =>
          { r with banks := 0xFE, flt := { r.flt with track := [⟨.unit (.queueBank 1 0), [0, 0]⟩] } }).modQueue 34 fun q =>
          { q with words := crowdPacket, pktcnt := 1 }) with
        cl := { anchor := 7, table := [{ short := false, addr := 9, ctx := 5 }], chains := [crowdChain] } } }

theorem crowdRegion_premises :
    (34 : QueueId) = queueOf 1 (Fin.ofNat 32 (fld (crowdRegion.d.regions[(1 : RegionId)]).link.qsel 8 5)) ∧
    crowdRegion.d.queueUsable 34 = true ∧ (crowdRegion.d.queue 34).packet = some crowdPacket ∧
    crowdRegion.d.cl.anchor ≠ 0 ∧ crowdRegion.d.installed 5 = true ∧
    crowdRegion.d.dnmax 1 ≤ (crowdRegion.d.packets 5).length := by decide +kernel

/-- The crowded region once the wrong bit of its packet is noted, with the count that the track gives. -/
def crowdNoted : Dev × Nat :=
  ((crowdRegion.begun.d.takeWords 34 0).modQueue 34 Queue.pop).noteFailure (.unit (.queueBank 1 0)) 2

/-- The crowded region without its last bank. -/
def crowdLost : Dev := (crowdNoted.1.logFault 2 (.unit (.queueBank 1 0)) 2 crowdNoted.2).lostBank 1 0 2

theorem crowdNoted_last : crowdNoted.1.permCount ≤ crowdNoted.2 ∧
    ((crowdNoted.1.logFault 2 (.unit (.queueBank 1 0)) 2 crowdNoted.2).regions[(1 : RegionId)]).banks.getLsbD (0 : Fin 8).val = false ∧
    (crowdLost.regions[(1 : RegionId)]).banks = 0xFF := by decide +kernel

theorem crowdRegion_queue : ((crowdRegion.begun.d.takeWords 34 0).queue 34).words = crowdPacket ∧
    ((crowdRegion.begun.d.takeWords 34 0).queue 34).headBank = 0 := by decide +kernel

theorem crowdLost_region : (crowdLost.regions[(1 : RegionId)]).retired = false ∧ regionOfCore crowdLost.mainCore ≠ 1 ∧
    (crowdLost.noteRetired (.unit (.region 1)) 5 8).resetDue = false := by decide +kernel

theorem crowdLost_link : (crowdLost.noteRetired (.unit (.region 1)) 5 8).cl = crowdRegion.d.cl := rfl

theorem crowdLost_stakes (p : PortId) :
    ((crowdLost.noteRetired (.unit (.region 1)) 5 8).ports[p]).sb.used = [] := by
  rw [show (crowdLost.noteRetired (.unit (.region 1)) 5 8).ports = State.reset.d.ports from rfl, reset_ports]
  exact SlotBook.used_replicate_none {}

/-- The crowded region once its packet is taken. -/
def crowdTaken : Dev := crowdRegion.begun.d.takeWords 34 crowdPacket.length

/-- Taking the packet retires the bank, and the region with it. -/
theorem crowdTaken_eq : crowdTaken = crowdLost.retireRegion 1 8 := by
  obtain ⟨hperm, hbank, hlast⟩ := crowdNoted_last
  obtain ⟨hwords, hhead⟩ := crowdRegion_queue
  rw [crowdTaken, show crowdPacket.length = 1 from rfl, Dev.takeWords, Dev.takeWord_corrected hwords rfl, hhead]
  exact (Dev.charge_permanent FaultTarget.noConfusion hperm).trans (Dev.retireBank_last hbank hlast)

/-- The chain is lost with the region (R424); the context stays installed, and no reset is due. -/
theorem crowdTaken_leaves : crowdTaken.resetDue = false ∧ crowdTaken.cl.anchor ≠ 0 ∧ crowdTaken.installed 5 = true ∧
    crowdTaken.packets 5 = [] := by
  obtain ⟨hr, hm, hd⟩ := crowdLost_region
  obtain ⟨due, -⟩ := Dev.retireRegion_used hr hm rfl fun p _ => by rw [crowdLost_stakes p]; rfl
  obtain ⟨f, hf, hcl⟩ := Dev.retireRegion_cl hr hm rfl crowdLost_stakes
  rw [crowdLost_link] at hf
  have lost : f.loseChains 1 = f.emptyChain 5 := by
    rw [Dev.loseChains, hf]
    rfl
  rw [lost, ← crowdTaken_eq] at hcl
  refine ⟨by rw [crowdTaken_eq, due, hd], ?_, ?_, (Dev.packets_congr hcl 5).trans (Dev.emptyChain_packets f 5)⟩
  · rw [hcl, show (f.emptyChain 5).cl.anchor = f.cl.anchor from rfl, hf]
    decide
  · rw [Dev.installed_congr hcl, Dev.installed, (KeepsTable.emptyChain f 5).table, hf]
    rfl

theorem crowdTaken_def : crowdRegion.begun.d.takeWords 34 crowdPacket.length = crowdTaken := by rw [crowdTaken]

theorem crowdPacket_word : (crowdPacket.map (·.value)).headD 0 = 5#64 := by decide

/-- The packet is appended: the chain that was full is gone. -/
theorem crowdRegion_appends : (crowdRegion.begun.d.downlinkPacket 1).cl ≠ crowdTaken.cl ∧
    (crowdRegion.begun.d.downlinkPacket 1).resetDue = false := by
  obtain ⟨hq, hu, hws, -⟩ := crowdRegion_premises
  obtain ⟨hdue, ha, hi, hp⟩ := crowdTaken_leaves
  rw [Dev.downlinkPacket_unicast (d := crowdRegion.begun.d) hq.symm hu hws crowdTaken_def crowdPacket_word (by decide) ha]
  have room : (crowdTaken.packets 5).length < crowdTaken.dnmax 1 := by
    rw [hp]
    exact Nat.lt_of_lt_of_le Nat.zero_lt_one (Nat.le_max_left ..)
  obtain ⟨hcl, hd⟩ := Dev.appendPacket_leaves (d := crowdTaken) (w0 := 5#64)
    (pay := (crowdPacket.map (·.value)).drop 1) hi room (by decide)
  exact ⟨hcl, hd.trans hdue⟩

theorem onDevW_cl {f : Dev → Dev} {s : State} {e : Dev} (he : f s.begun.d = e) (h : e.resetDue = false) :
    (onDevW f s).d.cl = e.cl := by
  rw [onDevW_of (by rw [he, h]), Dev.settle_cl, he]

/-- What the refusal as FULL would make of the device. -/
def refusedFull (d : Dev) : Dev :=
  ((d.takeWords 34 crowdPacket.length).refusePacket 1 5#64 4).countLink 1 .dnfull

/-- A packet refused as FULL would leave the chip level of the link layer as it was. -/
theorem refusedFull_leaves : (refusedFull crowdRegion.begun.d).cl = crowdTaken.cl ∧
    (refusedFull crowdRegion.begun.d).resetDue = false := by
  obtain ⟨hcl, hdue⟩ := Dev.refusePacket_full_leaves crowdTaken 1 5#64
  rw [refusedFull, crowdTaken_def]
  exact ⟨hcl, hdue.trans crowdTaken_leaves.1⟩

/-- The packet is appended, so the command does not end as the refusal would. -/
theorem crowdRegion_not_full : exec (.downlinkPacket 1) crowdRegion ≠ .next (onDevW refusedFull crowdRegion) := by
  obtain ⟨hne, hdue⟩ := crowdRegion_appends
  obtain ⟨hcl, hdue'⟩ := refusedFull_leaves
  intro refused
  have same := Host.Outcome.next.inj ((exec_downlinkPacket_eq 1 crowdRegion).symm.trans refused)
  have appended := onDevW_cl (f := fun d => d.downlinkPacket 1) (s := crowdRegion) rfl hdue
  rw [same, onDevW_cl rfl hdue', hcl] at appended
  exact hne appended.symm

/-- Refutes O21: DNMAX packets are in the chain when the packet comes, but taking its one word, with a wrong bit, retires
the last bank of the region's queue memory (R420, R426), and with the region the chain is lost (R424): the packet is
appended, and not refused as FULL. -/
theorem not_downlinkPacketsAreQueuedAndExpire : ¬ Obligations.DownlinkPacketsAreQueuedAndExpire := by
  unfold Obligations.DownlinkPacketsAreQueuedAndExpire
  intro h
  obtain ⟨hq, hu, hws, ha, hi, hfull⟩ := crowdRegion_premises
  have refused := (((h crowdRegion).1 1 34 crowdPacket hq hu hws).2 ha).2.2.1 (by decide) hi hfull
  rw [crowdPacket_word] at refused
  exact crowdRegion_not_full refused

end Sys2Proof.Machine
end

section
/-! The datum's registers (R184, R186, R187, R190, R193, R207): their reads and writes, each as the access it is. -/

namespace Sys2Proof.Machine

/-! ### The rows are accesses of their registers -/

theorem exec_datumNowRead_eq (i : Initiator) (s : State) :
    exec (.datumNowRead i) s = .next (rowRead i (chipPage 3 + 0x8000) s) := rfl

theorem exec_datumTrimWrite_eq (i : Initiator) (v : Word) (s : State) :
    exec (.datumTrimWrite i v) s = .next (rowWrite i (chipPage 3 + 0x8010) v s) := rfl

theorem exec_datumPpsctlWrite_eq (i : Initiator) (v : Word) (s : State) :
    exec (.datumPpsctlWrite i v) s = .next (rowWrite i (chipPage 3 + 0x8034) v s) := rfl

theorem exec_datumStepgo_eq (i : Initiator) (v : Word) (s : State) :
    exec (.datumStepgo i v) s = .next (rowWrite i (chipPage 3 + 0x8008) v s) := rfl

theorem exec_datumDeclare_eq (i : Initiator) (v : Word) (s : State) :
    exec (.datumDeclare i v) s = .next (rowWrite i (chipPage 3 + 0x8008) v s) := rfl

/-! ### The page -/

/-- From offset 0x8000 on the timer page holds the datum registers (R207). -/
theorem chipWrite_datum {i : Initiator} {o : Nat} {v : Word} {s : State} (h : 0x8000 ≤ o) :
    chipWrite i 3 o v s = ({ s with d := s.d.datumWrite o v }, .done) := by
  have page : chipWrite i 3 o v s =
      ({ s with d := if o < 0x8000 then (s.d.timerWrite o v).getD s.d else s.d.datumWrite o v }, .done) := rfl
  rw [page, if_neg (Nat.not_lt.mpr h)]

/-- The write of a datum register by an initiator that may write it. -/
theorem rowWrite_datumReg {i : Initiator} {o : Nat} {v : Word} {s : State} {g : Dev → Dev} (ho : 0x8000 ≤ o ∧ o < 0x10000)
    (hi : s.d.mayWrite i (chipPage 3 + o)) (h : s.begun.d.datumWrite o v = g s.begun.d) :
    (Host.Outcome.next (rowWrite i (chipPage 3 + o) v s) : Host.Outcome State Fault Refusal) =
      .next (onDevW (fun d => (g d).answer i .done) s) :=
  rowWrite_chipReg (k := 3) rfl ho.2 hi (by rw [chipWrite_datum ho.1, h])

/-- A read of DATUM_NOW_LO latches the whole datum for its reader (R184). -/
theorem Dev.chipRead_datumNow (d : Dev) (i : Initiator) : d.chipRead i 3 0x8000 =
    (d.modLatch i fun l => { l with datum := d.datum.now }, .data (d.datum.now.setWidth 32)) := rfl

/-! ### DATUM_TRIM (R186) -/

section
variable {d : Dev} {v : Word}

theorem Dev.writeTrim_bad (h : v.toInt < -100000 ∨ 100000 < v.toInt) :
    d.writeTrim v = { d with datum := { d.datum with trimBad := true } } := if_pos h

/-- A trim in range is taken; the ports lose lock and relock where it jumps and the reference is on. -/
theorem Dev.writeTrim_ok (hlo : -100000 ≤ v.toInt) (hhi : v.toInt ≤ 100000) : d.writeTrim v =
    (let e := { d with datum := { d.datum with trim := v.toInt } }
     if !d.datum.onHoldover && (decide (1000 < v.toInt - d.datum.trim) || decide (v.toInt - d.datum.trim < -1000)) then
       (allPorts.foldl (fun (d : Dev) p => (d.unlockPort p).relockUnlocked p) e).serveCals
     else e) :=
  if_neg (by omega)

theorem Dev.writeTrim_small (hlo : -100000 ≤ v.toInt) (hhi : v.toInt ≤ 100000) (hn : -1000 ≤ v.toInt - d.datum.trim)
    (hp : v.toInt - d.datum.trim ≤ 1000) : d.writeTrim v = { d with datum := { d.datum with trim := v.toInt } } := by
  rw [Dev.writeTrim_ok hlo hhi, decide_eq_false (Int.not_lt.mpr hp), decide_eq_false (Int.not_lt.mpr hn)]
  simp only [Bool.or_false, Bool.and_false, Bool.false_eq_true, if_false]

theorem Dev.writeTrim_jump (hlo : -100000 ≤ v.toInt) (hhi : v.toInt ≤ 100000) (hr : d.datum.onHoldover = false)
    (hj : 1000 < v.toInt - d.datum.trim ∨ v.toInt - d.datum.trim < -1000) : d.writeTrim v =
      (allPorts.foldl (fun (d : Dev) p => (d.unlockPort p).relockUnlocked p)
        { d with datum := { d.datum with trim := v.toInt } }).serveCals := by
  rw [Dev.writeTrim_ok hlo hhi]
  exact if_pos (by simpa [hr] using hj)

/-! ### DATUM_PPSCTL (R187, R188, R193) -/

/-- A write that sets EN anew, or with the other polarity, restarts the capture. -/
theorem Dev.writePpsctl_restart (h0 : v.getLsbD 0 = true)
    (hf : d.datum.pps.ctl.getLsbD 0 = false ∨ d.datum.pps.ctl.getLsbD 1 ≠ v.getLsbD 1) : d.writePpsctl v =
      { d with datum := { d.datum with pps := { d.datum.pps with
        ctl := v &&& 0xFFFFFF03, lastEdge := none, since := some d.now, good := 0, bad := 0 } } } := by
  have fresh : (!d.datum.pps.ctl.getLsbD 0 || d.datum.pps.ctl.getLsbD 1 != v.getLsbD 1) = true := by simpa using hf
  simp only [Dev.writePpsctl, bit, h0, fresh, Bool.and_true, if_true]

/-- A write that clears EN ends the lock and the capture. -/
theorem Dev.writePpsctl_off (h0 : v.getLsbD 0 = false) : d.writePpsctl v =
    { d with datum := { d.datum with ppslock := false, pps :=
      { d.datum.pps with ctl := v &&& 0xFFFFFF03, lastEdge := none, since := none, good := 0, bad := 0, lostAt := none
                         lostLong := false } } } := by
  simp only [Dev.writePpsctl, bit, h0, Bool.false_and, Bool.and_false, Bool.false_eq_true, if_false]

/-! ### DATUM_CTL (R190, R193) -/

theorem Dev.setUnsynced_pend (e : Dev) (b : Bool) : (e.setUnsynced b).datum.pend = e.datum.pend := by
  unfold Dev.setUnsynced
  split <;> rfl

section
variable (hp : d.datum.pend = none)
include hp

/-- STEPGO without STEPATPPS applies DATUM_STEP now. -/
theorem Dev.writeDatumCtl_stepNow (h0 : v.getLsbD 0 = false) (h1 : v.getLsbD 1 = true) (h2 : v.getLsbD 2 = false) :
    d.writeDatumCtl v =
      ({ d with datum := { d.datum with stepAtPps := false, pend := some d.datum.step } }).applyStep d.datum.step := by
  simp only [Dev.writeDatumCtl, bit, h0, h1, h2, hp, Option.isNone_none, and_self, Bool.false_eq_true, if_true, if_false]

/-- STEPGO with STEPATPPS keeps the value of DATUM_STEP until a PPS edge. -/
theorem Dev.writeDatumCtl_stepWaits (h0 : v.getLsbD 0 = false) (h1 : v.getLsbD 1 = true) (h2 : v.getLsbD 2 = true) :
    d.writeDatumCtl v = { d with datum := { d.datum with stepAtPps := true, pend := some d.datum.step } } := by
  simp only [Dev.writeDatumCtl, bit, h0, h1, h2, hp, Option.isNone_none, and_self, Bool.false_eq_true, if_true, if_false]

/-- DECLARE clears UNSYNCED. -/
theorem Dev.writeDatumCtl_declare (h0 : v.getLsbD 0 = true) (h1 : v.getLsbD 1 = false) :
    d.writeDatumCtl v = ({ d with datum := { d.datum with stepAtPps := v.getLsbD 2 } }).setUnsynced false := by
  simp only [Dev.writeDatumCtl, bit, h0, h1, hp, Dev.setUnsynced_pend, Bool.false_eq_true, false_and, if_true, if_false]

end

end

/-- Settles O22: each row is one access, and what it leaves is what its register's read or write does. -/
theorem datumRegisterAccesses : Obligations.DatumRegisterAccesses := by
  intro s i v
  refine ⟨fun hi => ?now, fun hi => ⟨fun h => ?bad, fun hlo hhi hn hp => ?small, fun hlo hhi hr hj => ?jump⟩,
    fun hi => ⟨fun h0 hf => ?restart, fun h0 => ?off⟩,
    fun hi => ⟨fun h0 h1 h2 hp => ?stepNow, fun h0 h1 h2 hp => ?stepWaits, fun h0 h1 hp => ?declare⟩⟩
  case now =>
    rw [exec_datumNowRead_eq]
    exact rowRead_chipReg (k := 3) (g := fun d => d.modLatch i fun l => { l with datum := d.datum.now }) rfl (by decide) hi
      (Dev.chipRead_datumNow _ i)
  case bad =>
    rw [exec_datumTrimWrite_eq]
    exact rowWrite_datumReg (by decide) hi (Dev.writeTrim_bad h)
  case small =>
    rw [exec_datumTrimWrite_eq]
    exact rowWrite_datumReg (by decide) hi (Dev.writeTrim_small hlo hhi hn hp)
  case jump =>
    rw [exec_datumTrimWrite_eq]
    exact rowWrite_datumReg (by decide) hi (Dev.writeTrim_jump hlo hhi hr hj)
  case restart =>
    rw [exec_datumPpsctlWrite_eq]
    exact rowWrite_datumReg (by decide) hi (Dev.writePpsctl_restart h0 hf)
  case off =>
    rw [exec_datumPpsctlWrite_eq]
    exact rowWrite_datumReg (by decide) hi (Dev.writePpsctl_off h0)
  case stepNow =>
    rw [exec_datumStepgo_eq]
    exact rowWrite_datumReg (by decide) hi (Dev.writeDatumCtl_stepNow hp h0 h1 h2)
  case stepWaits =>
    rw [exec_datumStepgo_eq]
    exact rowWrite_datumReg (by decide) hi (Dev.writeDatumCtl_stepWaits hp h0 h1 h2)
  case declare =>
    rw [exec_datumDeclare_eq]
    exact rowWrite_datumReg (by decide) hi (Dev.writeDatumCtl_declare hp h0 h1)

end Sys2Proof.Machine
end

section
/-! Steps of the datum and changes of UNSYNCED (R190, R191, R193). -/

namespace Sys2Proof.Machine

theorem vmap_get {α β : Type} {n : Nat} (v : Vector α n) (f : α → β) (i : Fin n) : (vmap v f)[i] = f v[i] := by
  simp [vmap]

/-! ### UNSYNCED (R193) -/

theorem setBit_self (w : Word) {i : Nat} (h : i < 32) : (setBit w i).getLsbD i = true := by
  simp [setBit, h]

theorem Dev.setUnsynced_same {d : Dev} {b : Bool} (h : d.datum.unsynced = b) : d.setUnsynced b = d := if_pos h

theorem Dev.setUnsynced_change {d : Dev} {b : Bool} (h : d.datum.unsynced ≠ b) :
    d.setUnsynced b = { d with datum := { d.datum with unsynced := b } }.attnCause 14 := if_neg h

theorem Dev.setUnsynced_unsynced (d : Dev) (b : Bool) : (d.setUnsynced b).datum.unsynced = b := by
  unfold Dev.setUnsynced
  split
  next h => exact h
  next => rfl

/-! ### The step (R190, R191) -/

/-- The device at the tick of a step, before stakes that it skips end and calibrations are asked for. -/
def Dev.stepTick (d : Dev) (w : Word64) : Dev :=
  let e := d.advance 1
  Dev.authRestart (Dev.attnCause { e with
      datum := { e.datum with now := d.datum.now + 1 + w, stepT := d.datum.now, steps := e.datum.steps + 1, pend := none }
      ports := vmap e.ports (Port.shift w)
      regions := vmap e.regions fun r => { r with link := { r.link with
        hold := vmap r.link.hold fun h => h.map fun y => { y with frame := shiftFrame w y.frame }
        work := r.link.work.map (shiftWork w) } }
      cl := { e.cl with joins := e.cl.joins.map fun j => { j with at_ := j.at_ + w.toInt } } } 13)

theorem Dev.applyStep_eq (d : Dev) (w : Word64) :
    d.applyStep w = ((List.finRange 24).foldl (fun d p => d.skipStakes p) (d.stepTick w)).serveCals := rfl

theorem Dev.advance_steps (d : Dev) (n : Nat) : (d.advance n).datum.steps = d.datum.steps := by
  unfold Dev.advance
  dsimp only
  split <;> rfl

theorem Dev.stepTick_port (d : Dev) (w : Word64) (p : PortId) : (d.stepTick w).ports[p] = (d.ports[p]).shift w :=
  vmap_get _ _ _

/-- A step moves stakes, it makes none. -/
theorem Port.shift_used {x : Port} (w : Word64) (h : ∀ n : SlotId, x.sb.stakes[n] = none) : (x.shift w).sb.used = [] := by
  refine List.filterMap_eq_nil_iff.mpr fun n _ => ?_
  simp only [Port.shift, vmap_get, h n, Option.map_none]

/-- With no stake booked, no stake is skipped. -/
theorem Dev.skipStakes_none {d : Dev} {p : PortId} (h : (d.ports[p]).sb.used = []) : d.skipStakes p = d := by
  rw [Dev.skipStakes, h]
  rfl

/-- With no calibration wanted at any port, none is asked for. -/
theorem Dev.serveCals_none {d : Dev} (h : ∀ p : PortId, (d.ports[p]).cal.wanted = false) : d.serveCals = d :=
  List.foldl_fixed' (fun _ => Dev.serveCal_none fun q _ => h q) _

/-- A step of a device with no stake and no calibration wanted is the step's tick. -/
theorem Dev.applyStep_idle {d : Dev} (w : Word64) (hs : ∀ (p : PortId) (n : SlotId), (d.ports[p]).sb.stakes[n] = none)
    (hc : ∀ p : PortId, (d.ports[p]).cal.wanted = false) : d.applyStep w = d.stepTick w := by
  have noStake (p : PortId) : (d.stepTick w).skipStakes p = d.stepTick w :=
    Dev.skipStakes_none (by rw [Dev.stepTick_port]; exact Port.shift_used w (hs p))
  rw [Dev.applyStep_eq, List.foldl_fixed' noStake]
  exact Dev.serveCals_none fun p => by rw [Dev.stepTick_port]; exact hc p

/-- Settles O23: with nothing booked the step is its tick, and UNSYNCED changes with its cause or not at all. -/
theorem stepsAndSyncChanges : Obligations.StepsAndSyncChanges := by
  intro d w
  refine ⟨fun hs hc => ?step, fun b => ⟨Dev.setUnsynced_unsynced d b, fun h => ?changed, Dev.setUnsynced_same⟩⟩
  case step =>
    rw [Dev.applyStep_idle w hs hc]
    exact ⟨rfl, rfl, rfl, congrArg (· + 1) (Dev.advance_steps d 1), rfl, setBit_self _ (by decide)⟩
  case changed =>
    rw [Dev.setUnsynced_change h]
    exact setBit_self _ (by decide)

end Sys2Proof.Machine
end

section
/-! The reference (R183, R193) and the PPS edges (R187, R188, R193): how each is judged. -/

namespace Sys2Proof.Machine

theorem exec_refinWindowEnd_eq (m : RefMeasure) (s : State) :
    exec (.refinWindowEnd m) s = .next (onDev (fun d => d.refWindow m) s) := rfl

theorem exec_refinEdgeLoss_eq (s : State) : exec .refinEdgeLoss s = .next (onDev Dev.loseRef s) := rfl

theorem exec_ppsEdge_eq (falling : Bool) (s : State) :
    exec (.ppsEdge falling) s = .next (onDev (fun d => d.ppsEdge falling) s) := rfl

theorem exec_ppsLost_eq (s : State) : exec .ppsLost s = .next (onDev Dev.losePps s) := rfl

theorem exec_ppsHoldoverExpired_eq (s : State) : exec .ppsHoldoverExpired s = .next (onDev Dev.ppsHoldoverEnd s) := rfl

/-! ### REFIN (R183, R193) -/

section
variable {d : Dev}

/-- A loss outside holdover starts it: REF_LOST and UNSYNCED set, and every port loses lock. -/
theorem Dev.loseRef_starts (h : d.datum.holdover = false) : d.loseRef =
    ((allPorts.foldl (fun (d : Dev) p => d.unlockPort p)
      { d with datum := { d.datum with refLost := true, holdover := true, seeded := false, reff := 0 } }).setUnsynced
        true).serveCals :=
  if_neg (Bool.eq_false_iff.mp h)

/-- A valid window gives the frequency. -/
theorem Dev.refWindow_valid (h : d.datum.holdover = false) (f : Fin 4) : d.refWindow (.valid f) =
    { d with datum := { d.datum with reff := f.val, holdover := false, seeded := false } } :=
  if_neg (Bool.eq_false_iff.mp h)

/-- A valid window in holdover ends it, and the ports relock. -/
theorem Dev.refWindow_returns (h : d.datum.holdover = true) (f : Fin 4) : d.refWindow (.valid f) =
    (allPorts.foldl (fun (d : Dev) p => d.returnPort p)
      { d with datum := { d.datum with reff := f.val, holdover := false, seeded := false } }).serveCals :=
  if_pos h

/-! ### PPS edges (R187, R188) -/

/-- An edge now is the first, or one second ± 1 ms after the last. -/
def Pps.inTime (x : Pps) (now : Nat) : Bool :=
  match x.lastEdge with
  | none => true
  | some e => 199800000 ≤ now - e && now - e ≤ 200200000

section
variable {falling : Bool} (h0 : d.datum.pps.ctl.getLsbD 0 = true) (h1 : d.datum.pps.ctl.getLsbD 1 = falling)
  (hc : d.datumCounts = true)
include h0 h1 hc

/-- An edge of the polarity chosen is judged by its distance from the last. -/
theorem Dev.ppsEdge_judged : d.ppsEdge falling =
    if d.datum.pps.inTime d.now then d.acceptPps else { d with datum := { d.datum with ppsGlitch := true } } :=
  if_neg (by
    simp only [bit, h0, h1, hc, bne_self_eq_false, Bool.not_true, Bool.or_self, Bool.false_eq_true, not_false_eq_true])

theorem Dev.ppsEdge_glitch {e : Nat} (he : d.datum.pps.lastEdge = some e)
    (h : d.now < e + 199800000 ∨ e + 200200000 < d.now) :
    d.ppsEdge falling = { d with datum := { d.datum with ppsGlitch := true } } := by
  rw [Dev.ppsEdge_judged h0 h1 hc]
  refine if_neg ?_
  simp only [Pps.inTime, he, Bool.and_eq_true, decide_eq_true_eq]
  omega

theorem Dev.ppsEdge_accepted (h : ∀ e, d.datum.pps.lastEdge = some e → e + 199800000 ≤ d.now ∧ d.now ≤ e + 200200000) :
    d.ppsEdge falling = d.acceptPps := by
  rw [Dev.ppsEdge_judged h0 h1 hc]
  refine if_pos ?_
  cases he : d.datum.pps.lastEdge with
  | none => simp only [Pps.inTime, he]
  | some e =>
    obtain ⟨hlo, hhi⟩ := h e he
    simp only [Pps.inTime, he, Bool.and_eq_true, decide_eq_true_eq]
    omega

end

/-- With no step waiting, an accepted edge is stamped DLY before its tick and counted towards the lock. -/
theorem Dev.acceptPps_eq (hp : d.datum.pend = none) : d.acceptPps =
    (let x := d.datum.now - d.datum.pps.dly.signExtend 64
     let e := { d with datum := ({ d.datum with pps := { d.datum.pps with
       t := x, err := ppsErr x, lastEdge := some d.now, lostAt := none, lostLong := false } } : Datum).judgeLock (ppsErr x) }
     (if e.datum.ppslock && !d.datum.ppslock then e.setUnsynced false else e).fire [⟨0x40, 0⟩]) := by
  simp only [Dev.acceptPps, hp]

/-! ### Loss of PPS (R188, R193) -/

theorem Dev.losePps_eq {e : Nat} (he : d.datum.pps.countFrom = some e) (h0 : d.datum.pps.ctl.getLsbD 0 = true) :
    d.losePps = (let d := d.until_ (e + 220000000)
      { d with datum := { d.datum with ppsLost := true, ppslock := false, pps := { d.datum.pps with
        good := 0, bad := 0, lastEdge := none, since := none, lostAt := some d.now, lostLong := false } } }) := by
  simp only [Dev.losePps, he, bit, h0, Bool.not_true, Bool.false_eq_true, if_false]

theorem Dev.ppsHoldoverEnd_eq {e : Nat} (he : d.datum.pps.lostAt = some e) (hh : fld d.datum.pps.ctl 16 16 ≠ 0)
    (hl : d.datum.pps.lostLong = false) : d.ppsHoldoverEnd =
      (let d := d.until_ (e + fld d.datum.pps.ctl 16 16 * 200000000)
       ({ d with datum := { d.datum with pps := { d.datum.pps with lostLong := true } } }).setUnsynced true) := by
  simp only [Dev.ppsHoldoverEnd, he, hh, hl, Bool.false_eq_true, or_self, if_false]
  rfl

end

/-- Settles O24: each loss, return, edge and expiry by its own lemma. -/
theorem referenceAndPpsAreJudged : Obligations.ReferenceAndPpsAreJudged := by
  intro s
  refine ⟨fun h => ⟨fun c hc => ?lost, fun f => ?valid⟩, fun h f => ?returns,
    fun falling h0 h1 hc => ⟨fun e he hw => ?glitch, fun hw hp => ?accepted⟩,
    fun e he h0 => ?ppsLost, fun e he hh hl => ?expired⟩
  case lost =>
    obtain rfl | rfl := hc
    · rw [exec_refinEdgeLoss_eq]
      exact onDev_next (Dev.loseRef_starts h)
    · rw [exec_refinWindowEnd_eq]
      exact onDev_next (Dev.loseRef_starts h)
  case valid =>
    rw [exec_refinWindowEnd_eq]
    exact onDev_next (Dev.refWindow_valid h f)
  case returns =>
    rw [exec_refinWindowEnd_eq]
    exact onDev_next (Dev.refWindow_returns h f)
  case glitch =>
    rw [exec_ppsEdge_eq]
    exact onDev_next (Dev.ppsEdge_glitch h0 h1 hc he hw)
  case accepted =>
    rw [exec_ppsEdge_eq]
    exact onDev_next ((Dev.ppsEdge_accepted h0 h1 hc hw).trans (Dev.acceptPps_eq hp))
  case ppsLost =>
    rw [exec_ppsLost_eq]
    exact onDev_next (Dev.losePps_eq he h0)
  case expired =>
    rw [exec_ppsHoldoverExpired_eq]
    exact onDev_next (Dev.ppsHoldoverEnd_eq he hh hl)

end Sys2Proof.Machine
end

section
/-! BOOK and CANCEL of the slot book (R197, R202, R203, R208). -/

namespace Sys2Proof.Machine

theorem exec_sbBook_eq (i : Initiator) (p : PortId) (v : Word) (s : State) :
    exec (.sbBook i p v) s = .next (rowWrite i (portBase p + 0xF014) v s) := rfl

theorem exec_sbCancel_eq (i : Initiator) (p : PortId) (v : Word) (s : State) :
    exec (.sbCancel i p v) s = .next (rowWrite i (portBase p + 0xF014) v s) := rfl

/-- A write of PORT_SB_CMD of a port that answers, by an initiator that may write it. -/
theorem rowWrite_sbCmd {i : Initiator} {p : PortId} {v : Word} {s : State} {g : Dev → Dev} (hp : s.d.portAnswers p)
    (hi : s.d.mayWrite i (portBase p + 0xF014)) (h : s.begun.d.sbCmd p v = g s.begun.d) :
    (Host.Outcome.next (rowWrite i (portBase p + 0xF014) v s) : Host.Outcome State Fault Refusal) =
      .next (onDevW (fun d => (g d).answer i .done) s) :=
  rowWrite_portReg rfl (by decide) hp hi h

/-! ### A port that answers is in service -/

theorem portOf_localOfPort (p : PortId) : portOf (regionOfPort p) (localOfPort p) = p := Fin.ext (Nat.div_add_mod p.val 6)

/-- The domain of a port sleeps as the port does (R204, R409). -/
theorem Dev.domainAsleep_port (d : Dev) (p : PortId) :
    d.domainAsleep (regionOfPort p) (localOfPort p).val = d.portAsleep p := by
  have hl : ¬ 6 ≤ (localOfPort p).val := Nat.not_le.mpr (localOfPort p).isLt
  have hm : Fin.ofNat 6 (localOfPort p).val = localOfPort p := Fin.ext (Nat.mod_eq_of_lt (localOfPort p).isLt)
  rw [Dev.domainAsleep, hm, portOf_localOfPort, decide_eq_false hl, Bool.false_or, Dev.portAsleep, ← Bool.and_assoc,
    Bool.and_self]

theorem Dev.portUp_of_portAnswers {d : Dev} {p : PortId} (h : d.portAnswers p) : d.portUp p = true := by
  obtain ⟨hregion, hpower, hport, hawake, -⟩ := h
  rw [Dev.domainAsleep_port] at hawake
  simp only [Dev.portUp, hregion, hpower, hport, hawake, Bool.not_false, Bool.and_self]

/-! ### The fields of PORT_SB_CMD (R208) -/

/-- The slot book once a command's fields are taken. -/
def SlotBook.commanded (b : SlotBook) (v : Word) : SlotBook :=
  { b with cmdSlot := fld v 0 8, cmdOp := fld v 8 2, earliest := v.getLsbD 11 }

/-- The device once they are. -/
def Dev.commanded (d : Dev) (p : PortId) (v : Word) : Dev := d.modSb p fun b => b.commanded v

theorem Dev.modSb_port (d : Dev) (p : PortId) (f : SlotBook → SlotBook) :
    (d.modSb p f).ports[p] = { d.ports[p] with sb := f (d.ports[p]).sb } := by
  rw [Dev.modSb_eq, Dev.modPort_ports_self]

theorem Dev.modTx_cal (d : Dev) (p o : PortId) (f : Tx → Tx) : ((d.modTx p f).ports[o]).cal = (d.ports[o]).cal :=
  Dev.modPort_keeps Port.cal (fun _ => by rfl) d p o

theorem Dev.modSb_cal (d : Dev) (p o : PortId) (f : SlotBook → SlotBook) :
    ((d.modSb p f).ports[o]).cal = (d.ports[o]).cal :=
  Dev.modPort_keeps Port.cal (fun _ => by rfl) d p o

section
variable {d : Dev} {p : PortId} {v : Word} (hgo : v.getLsbD 10 = true)
include hgo

theorem Dev.sbCmd_book (hop : fld v 8 2 = 1) : d.sbCmd p v = (d.commanded p v).sbBook p :=
  (if_pos hgo).trans (if_pos hop)

theorem Dev.sbCmd_cancel (hop : fld v 8 2 = 2) : d.sbCmd p v = (d.commanded p v).sbCancel p :=
  (if_pos hgo).trans ((if_neg (by omega)).trans (if_pos hop))

end

/-! ### Late stakes that no link engine follows (R202) -/

/-- The flag and the count of a late stake. -/
def SlotBook.countLate (b : SlotBook) (action : Nat) : SlotBook :=
  { b with txLate := b.txLate || decide (action = 1), late := b.late || decide (action ≠ 1)
           cnt := if action = 1 then b.cnt.set SbCnt.txlate.ix (b.cnt[SbCnt.txlate.ix] + 1)
                  else b.cnt.set SbCnt.late.ix (b.cnt[SbCnt.late.ix] + 1) }

section
variable (d : Dev) (p : PortId) {k : Stake} (slot cause : Nat) (refused : Bool)

/-- A late stake is counted; a record is made of it unless its booking by software was refused. -/
theorem Dev.reportLate_eq (hl : k.link = none) : d.reportLate p k slot cause refused =
    (let e := d.modSb p fun b => b.countLate k.action
     if k.origin = 0 ∧ refused then e else e.lateRecord p k slot cause refused) := by
  have counted : (if k.action = 1 then (d.modSb p fun b => { b with txLate := true }).countSb p .txlate
      else (d.modSb p fun b => { b with late := true }).countSb p .late) = d.modSb p fun b => b.countLate k.action := by
    split
    next h => exact (Dev.modSb_modSb ..).trans (Dev.modSb_congr (by simp [SlotBook.countLate, h]))
    next h => exact (Dev.modSb_modSb ..).trans (Dev.modSb_congr (by simp [SlotBook.countLate, h]))
  simp only [Dev.reportLate, hl, counted]

/-- The record goes to a queue or is counted as lost: no port changes by it but for that count. -/
theorem Dev.lateRecord_ports : (d.lateRecord p k slot cause refused).ports = d.ports ∨
    (d.lateRecord p k slot cause refused).ports = (d.countSb p .latelost).ports := by
  have produced (q : QueueId) (ws : List Word64) :
      (match d.producePacket q ws with | some e => e | none => d.countSb p .latelost).ports = d.ports ∨
      (match d.producePacket q ws with | some e => e | none => d.countSb p .latelost).ports =
        (d.countSb p .latelost).ports := by
    cases he : d.producePacket q ws with
    | some e =>
      obtain ⟨-, -, hports, -⟩ := Dev.producePacket_some he
      exact .inl hports
    | none => exact .inr rfl
  exact produced _ _

/-- What of each port a late record leaves. -/
theorem Dev.lateRecord_keeps {α : Type} (g : Port → α) (hg : ∀ (x : Port) (b : SlotBook), b.stakes = x.sb.stakes →
    g { x with sb := b } = g x) (o : PortId) : g ((d.lateRecord p k slot cause refused).ports[o]) = g (d.ports[o]) := by
  obtain h | h := d.lateRecord_ports p slot cause refused (k := k)
  · rw [h]
  · rw [h, Dev.countSb, Dev.modSb_eq]
    exact Dev.modPort_keeps g (fun x => hg x _ (by rfl)) d p o

/-- The late end of a stake that is not ARMED and no HWCAL: its entry and its frames go, it is counted and recorded. -/
theorem Dev.endLate_atRest (n : SlotId) (hk : k.atRest = true) (ho : k.origin ≠ 6) : d.endLate p n k cause =
    (((d.setStake p n none).dropPrepared p n).modSb p fun b => b.countLate k.action).lateRecord p k n.val cause false := by
  obtain ⟨hl, ha⟩ : k.link = none ∧ k.state ≠ .armed := by simpa [Stake.atRest] using hk
  have noCal (e : Dev) : e.calLate p k cause = e := if_neg fun h => ho h.1
  simp only [Dev.endLate, ha, and_false, if_false, noCal, Dev.reportLate_eq _ _ _ _ _ hl, Bool.false_eq_true]

end

/-! ### A booking by software (R197) -/

/-- A refusal of software's booking counts the stake as late, and makes no record. -/
theorem Dev.refusal_eq (d : Dev) (p : PortId) {k : Stake} (c : Nat) (ho : k.origin = 0) (hl : k.link = none) :
    (d.reportLate p k 0 c true).calLate p k c = d.modSb p fun b => b.countLate k.action := by
  have noCal (e : Dev) : e.calLate p k c = e := if_neg (by simp [ho])
  rw [noCal, Dev.reportLate_eq _ _ _ _ _ hl]
  exact if_pos ⟨ho, rfl⟩

/-- HWCAL alone ranks below software (R195). -/
theorem originPrio_le {o : Nat} (h : o ≠ 6) : originPrio o ≤ originPrio 0 := by
  have software : originPrio 0 = 3 := rfl
  rw [software]
  unfold originPrio
  split <;> omega

theorem filter_overlap_nil {l : List (SlotId × Stake)} {x : Int × Int} (h : ∀ y ∈ l, overlap y.2.interval x = false) :
    l.filter (fun y => overlap y.2.interval x) = [] :=
  List.filter_eq_nil_iff.mpr fun y hy => Bool.eq_false_iff.mp (h y hy)

/-- The lowest free entry. -/
theorem SlotBook.freeSlot_lowest {b : SlotBook} {n : SlotId} (hn : b.stakes[n] = none)
    (h : ∀ m : SlotId, m < n → b.stakes[m] ≠ none) : b.freeSlot = some n :=
  find?_finRange_eq_some (Option.isNone_iff_eq_none.mpr hn)
    fun m hm => Bool.eq_false_iff.mpr fun hi => h m hm (Option.isNone_iff_eq_none.mp hi)

section
variable {d : Dev} {p : PortId} {q : BookReq} {t : Int} {k : Stake} (ho : q.origin = 0) (hl : q.link = none)
  (hk : (d.ports[p]).mkStake q t d.now = k)
include ho hl hk

/-- Check 1: the parameters. -/
theorem Dev.bookCore_badParam (hpar : (d.ports[p]).paramOk q = false) :
    d.bookCore p q t = (d.modSb p fun b => b.countLate k.action, .error 12, []) := by
  subst hk
  have bad : (!(d.ports[p]).paramOk q) = true := by rw [hpar]; rfl
  exact (if_pos bad).trans (congrArg (·, Except.error 12, []) (Dev.refusal_eq d p 12 ho hl))

variable (hup : d.portUp p = true) (hpar : (d.ports[p]).paramOk q = true)
include hup hpar

/-- Checks 1 and 2 pass: what is left are the deadline and the intervals. -/
theorem Dev.bookCore_checked : d.bookCore p q t =
    if k.deadline < d.datum.now.toNat + 200 then (d.modSb p fun b => b.countLate k.action, .error 6, [])
    else
      let hit := (d.ports[p]).sb.used.filter fun y => overlap y.2.interval k.interval
      if !hit.all (fun y => originPrio 0 < originPrio y.2.origin && (y.2.state = .booked || y.2.state = .ready)) ||
          ((d.ports[p]).sb.blocked d.datum.now.toNat).any (fun i => overlap i k.interval) then
        (d.modSb p fun b => b.countLate k.action, .error 4, [])
      else
        let e := d.displace p hit
        match (e.ports[p]).sb.freeSlot with
        | none => (e.modSb p fun b => b.countLate k.action, .error 5, [])
        | some n => ((e.setStake p n (some k)).countSb p .booked, .ok n, hit) := by
  subst hk
  have refusal (e : Dev) (c : Nat) : (e.reportLate p ((d.ports[p]).mkStake q t d.now) 0 c true).calLate p
      ((d.ports[p]).mkStake q t d.now) c = e.modSb p fun b => b.countLate q.action := Dev.refusal_eq e p c ho hl
  simp only [Dev.bookCore, refusal, hpar, hup, Bool.not_true, Bool.false_eq_true, if_false, ho]
  rfl

/-- Check 3: the arming deadline is less than a microsecond ahead. -/
theorem Dev.bookCore_past (hd : k.deadline < d.datum.now.toNat + 200) :
    d.bookCore p q t = (d.modSb p fun b => b.countLate k.action, .error 6, []) :=
  (Dev.bookCore_checked ho hl hk hup hpar).trans (if_pos hd)

variable (hd : (d.datum.now.toNat : Int) + 200 ≤ k.deadline)
include hd

/-- Software displaces HWCAL stakes alone, so any other overlap is a conflict. -/
theorem Dev.bookCore_conflict (hw : ∀ y ∈ (d.ports[p]).sb.used, y.2.origin ≠ 6)
    (hy : ∃ y ∈ (d.ports[p]).sb.used, overlap y.2.interval k.interval = true) :
    d.bookCore p q t = (d.modSb p fun b => b.countLate k.action, .error 4, []) := by
  obtain ⟨y, hmem, hov⟩ := hy
  have strong : ¬ originPrio 0 < originPrio y.2.origin := Nat.not_lt.mpr (originPrio_le (hw y hmem))
  have notAll : ((d.ports[p]).sb.used.filter fun y => overlap y.2.interval k.interval).all
      (fun y => originPrio 0 < originPrio y.2.origin && (y.2.state = .booked || y.2.state = .ready)) = false :=
    List.all_eq_false.mpr ⟨y, List.mem_filter.mpr ⟨hmem, hov⟩, by simp [strong]⟩
  rw [Dev.bookCore_checked ho hl hk hup hpar, if_neg (Int.not_lt.mpr hd)]
  exact if_pos (by rw [notAll]; rfl)

variable (hs : ∀ y ∈ (d.ports[p]).sb.used, overlap y.2.interval k.interval = false)
  (hr : ∀ x ∈ (d.ports[p]).sb.blocked d.datum.now.toNat, overlap x k.interval = false)
include hs hr

/-- With nothing in its way a stake takes the lowest free entry, if one is. -/
theorem Dev.bookCore_clear : d.bookCore p q t =
    (match (d.ports[p]).sb.freeSlot with
     | none => (d.modSb p fun b => b.countLate k.action, .error 5, [])
     | some n => ((d.setStake p n (some k)).countSb p .booked, .ok n, [])) := by
  have clear : ((d.ports[p]).sb.blocked d.datum.now.toNat).any (fun i => overlap i k.interval) = false :=
    List.any_eq_false.mpr fun x hx => Bool.eq_false_iff.mp (hr x hx)
  rw [Dev.bookCore_checked ho hl hk hup hpar, if_neg (Int.not_lt.mpr hd), filter_overlap_nil hs, clear]
  rfl

end

/-- A booking that displaces nothing, where no calibration waits. -/
theorem Dev.book_of_bookCore {d e : Dev} {p : PortId} {q : BookReq} {t : Int} {r : Except Nat SlotId}
    (h : d.bookCore p q t = (e, r, [])) (hw : ∀ o ∈ portsOf (regionOfPort p), (d.ports[o]).cal.wanted = false)
    (hc : ∀ o : PortId, (e.ports[o]).cal = (d.ports[o]).cal) : d.book p q t = (e, r) := by
  rw [Dev.book, h]
  exact congrArg (·, r) (Dev.serveCal_keeps hw hc)

/-! ### BOOK (R197, R208) -/

/-- What the NEW words of port p ask for (R185, R208). -/
def Dev.askedFor (d : Dev) (p : PortId) : BookReq :=
  let b := (d.ports[p]).sb
  b.newReq (d.named48 (b.new[0].toNat + (b.new[1].setWidth 16).toNat * 2 ^ 32))

section
variable {d : Dev} {p : PortId} {v : Word}

theorem Dev.commanded_port : (d.commanded p v).ports[p] = { d.ports[p] with sb := (d.ports[p]).sb.commanded v } :=
  Dev.modSb_port ..

/-- Taking the fields changes nothing that a booking is judged by. -/
theorem Dev.commanded_judges : (d.commanded p v).askedFor p = d.askedFor p ∧
    (∀ q, ((d.commanded p v).ports[p]).paramOk q = (d.ports[p]).paramOk q) ∧
    ((d.commanded p v).ports[p]).mkStake = (d.ports[p]).mkStake ∧
    ((d.commanded p v).ports[p]).sb.used = (d.ports[p]).sb.used ∧
    ((d.commanded p v).ports[p]).sb.blocked = (d.ports[p]).sb.blocked ∧
    ((d.commanded p v).ports[p]).sb.freeSlot = (d.ports[p]).sb.freeSlot ∧
    (d.commanded p v).portUp p = d.portUp p := by
  simp only [Dev.askedFor, Dev.portUp, Dev.portAsleep, Dev.commanded_port]
  exact ⟨rfl, fun _ => rfl, rfl, rfl, rfl, rfl, rfl⟩

/-- Without EARLIEST the booking is made at the release asked for. -/
theorem Dev.sbBook_plain (he : (d.ports[p]).sb.earliest = false) : d.sbBook p =
    (match d.book p (d.askedFor p) (d.askedFor p).release with
     | (e, .ok n) => e.modSb p fun b => { b with result := 2, cmdSlot := n.val }
     | (e, .error c) => e.modSb p fun b => { b with result := resultOf c }) := by
  have hf : fld (d.ports[p]).sb.new[1] 0 16 = ((d.ports[p]).sb.new[1].setWidth 16).toNat := by
    rw [fld_eq_toNat]
    rfl
  simp only [Dev.sbBook, hf, he, Bool.false_eq_true, if_false]
  rfl

section
variable {n : SlotId} (hn : n.val = fld v 0 8)
include hn

/-- A command names the entry of its SLOT. -/
theorem Dev.commanded_slot : Fin.ofNat 256 ((d.commanded p v).ports[p]).sb.cmdSlot = n := by
  rw [Dev.commanded_port]
  have named : fld v 0 8 % 256 = n.val := by rw [← hn, Nat.mod_eq_of_lt n.isLt]
  exact Fin.ext named

theorem Dev.sbCancel_free (hk : (d.commanded p v).stake p n = none) :
    (d.commanded p v).sbCancel p = (d.commanded p v).modSb p fun b => { b with result := 8 } := by
  simp only [Dev.sbCancel, Dev.commanded_slot hn, hk]

theorem Dev.sbCancel_staked {k : Stake} (hk : (d.commanded p v).stake p n = some k) : (d.commanded p v).sbCancel p =
    if k.state = .booked ∨ k.state = .ready then
      (((d.commanded p v).endLate p n k 10).modSb p fun b => { b with result := 2 }).serveCal (regionOfPort p)
    else (d.commanded p v).modSb p fun b => { b with result := 8 } := by
  simp only [Dev.sbCancel, Dev.commanded_slot hn, hk]

end

theorem Dev.commanded_stake (n : SlotId) : (d.commanded p v).stake p n = (d.ports[p]).sb.stakes[n] := by
  rw [Dev.stake, Dev.commanded_port]
  rfl

variable (hgo : v.getLsbD 10 = true)
include hgo

section
variable {q : BookReq} (hq : d.askedFor p = q) (hop : fld v 8 2 = 1) (he : v.getLsbD 11 = false)
  (hw : ∀ o ∈ portsOf (regionOfPort p), (d.ports[o]).cal.wanted = false)
include hq hop he hw

/-- BOOK with what its booking left: RESULT and, of a stake booked, SLOT are written. -/
theorem Dev.sbCmd_booking {f : SlotBook → SlotBook} {r : Except Nat SlotId}
    (h : (d.commanded p v).bookCore p q q.release = ((d.commanded p v).modSb p f, r, [])) :
    d.sbCmd p v = d.modSb p fun b =>
      let x := f { b with cmdSlot := fld v 0 8, cmdOp := 1, earliest := false }
      match r with
      | .ok n => { x with result := 2, cmdSlot := n.val }
      | .error c => { x with result := resultOf c } := by
  have cal (o : PortId) : ((d.commanded p v).ports[o]).cal = (d.ports[o]).cal := Dev.modSb_cal ..
  have plain : ((d.commanded p v).ports[p]).sb.earliest = false := by rw [Dev.commanded_port]; exact he
  have fields (b : SlotBook) : b.commanded v = { b with cmdSlot := fld v 0 8, cmdOp := 1, earliest := false } := by
    rw [SlotBook.commanded, hop, he]
  have book := Dev.book_of_bookCore h (fun o ho => (congrArg Cal.wanted (cal o)).trans (hw o ho)) fun o => Dev.modSb_cal ..
  rw [Dev.sbCmd_book hgo hop, Dev.sbBook_plain plain, Dev.commanded_judges.1, hq, book]
  cases r with
  | ok n => simp only [Dev.commanded, Dev.modSb_modSb, fields]
  | error c => simp only [Dev.commanded, Dev.modSb_modSb, fields]

/-- BOOK of a stake that a check refuses: RESULT, the flag and the count, and no entry. -/
theorem Dev.sbCmd_refused {a e c : Nat}
    (h : (d.commanded p v).bookCore p q q.release = ((d.commanded p v).modSb p fun b => b.countLate a, .error e, []))
    (hc : resultOf e = c) : d.sbCmd p v = d.modSb p fun x =>
      { x with cmdSlot := fld v 0 8, cmdOp := 1, earliest := false, result := c
               txLate := x.txLate || decide (a = 1), late := x.late || decide (a ≠ 1)
               cnt := if a = 1 then x.cnt.set SbCnt.txlate.ix (x.cnt[SbCnt.txlate.ix] + 1)
                      else x.cnt.set SbCnt.late.ix (x.cnt[SbCnt.late.ix] + 1) } := by
  rw [Dev.sbCmd_booking hgo hq hop he hw h]
  subst hc
  rfl

/-- BOOK of a stake that passes: RESULT, SLOT, the entry and the count. -/
theorem Dev.sbCmd_booked {n : SlotId} {k : Stake} (h : (d.commanded p v).bookCore p q q.release =
      (((d.commanded p v).setStake p n (some k)).countSb p .booked, .ok n, [])) : d.sbCmd p v = d.modSb p fun x =>
      { x with cmdSlot := n.val, cmdOp := 1, earliest := false, result := 2, stakes := x.stakes.set n (some k)
               cnt := x.cnt.set SbCnt.booked.ix (x.cnt[SbCnt.booked.ix] + 1) } := by
  simp only [Dev.setStake, Dev.countSb, Dev.modSb_modSb] at h
  exact Dev.sbCmd_booking hgo hq hop he hw h

end

/-! ### CANCEL (R203, R208) -/

/-- A command on an entry that is not BOOKED or READY is refused. -/
theorem Dev.sbCmd_cancelRefused (hop : fld v 8 2 = 2) {n : SlotId} (hn : n.val = fld v 0 8)
    (h : ∀ k, (d.ports[p]).sb.stakes[n] = some k → k.state = .armed ∨ k.state = .active) :
    d.sbCmd p v = d.modSb p fun x => { x with cmdSlot := n.val, cmdOp := 2, earliest := v.getLsbD 11, result := 8 } := by
  have fields (b : SlotBook) : b.commanded v = { b with cmdSlot := n.val, cmdOp := 2, earliest := v.getLsbD 11 } := by
    rw [SlotBook.commanded, hop, hn]
  have refused : (d.commanded p v).sbCancel p = (d.commanded p v).modSb p fun b => { b with result := 8 } := by
    cases hk : (d.ports[p]).sb.stakes[n] with
    | none => exact Dev.sbCancel_free hn ((Dev.commanded_stake n).trans hk)
    | some k =>
      have busy : ¬ (k.state = .booked ∨ k.state = .ready) := by
        obtain hs | hs := h k hk <;> simp [hs]
      exact (Dev.sbCancel_staked hn ((Dev.commanded_stake n).trans hk)).trans (if_neg busy)
  rw [Dev.sbCmd_cancel hgo hop, refused, Dev.commanded, Dev.modSb_modSb]
  simp only [fields]

/-- CANCEL of a stake at rest that is no HWCAL and that no link engine follows frees its entry. -/
theorem Dev.sbCmd_cancelFrees (hop : fld v 8 2 = 2) {n : SlotId} (hn : n.val = fld v 0 8) {k : Stake}
    (hk : (d.ports[p]).sb.stakes[n] = some k) (hs : k.state = .booked ∨ k.state = .ready) (ho : k.origin ≠ 6)
    (hl : k.link = none) (hw : ∀ o ∈ portsOf (regionOfPort p), (d.ports[o]).cal.wanted = false) :
    (d.sbCmd p v).resetDue = d.resetDue ∧ ((d.sbCmd p v).ports[p]).sb.stakes = (d.ports[p]).sb.stakes.set n none ∧
    ((d.sbCmd p v).ports[p]).sb.result = 2 ∧
    ((d.sbCmd p v).ports[p]).tx.buffer = (d.ports[p]).tx.buffer.filter fun b => b.slot ≠ n := by
  have rest : k.atRest = true := by
    obtain hs | hs := hs <;> simp [Stake.atRest, hl, hs]
  have freed : ((((d.commanded p v).setStake p n none).dropPrepared p n).modSb p fun b => b.countLate k.action).ports[p] =
      { d.ports[p] with
        tx := { (d.ports[p]).tx with buffer := (d.ports[p]).tx.buffer.filter fun b => b.slot ≠ n }
        sb := { (d.ports[p]).sb.commanded v with stakes := (d.ports[p]).sb.stakes.set n none }.countLate k.action } := by
    rw [Dev.modSb_port, Dev.dropPrepared, Dev.modTx_eq, Dev.modPort_ports_self, Dev.setStake, Dev.modSb_port,
      Dev.commanded_port]
    rfl
  have cal (o : PortId) : (((d.commanded p v).endLate p n k 10).ports[o]).cal = (d.ports[o]).cal := by
    rw [Dev.endLate_atRest _ _ _ _ rest ho, Dev.lateRecord_keeps _ _ _ _ _ Port.cal (fun _ _ _ => rfl), Dev.modSb_cal,
      Dev.dropPrepared, Dev.modTx_cal, Dev.setStake, Dev.modSb_cal, Dev.commanded, Dev.modSb_cal]
  have ends : d.sbCmd p v = ((d.commanded p v).endLate p n k 10).modSb p fun b => { b with result := 2 } := by
    rw [Dev.sbCmd_cancel hgo hop, Dev.sbCancel_staked hn ((Dev.commanded_stake n).trans hk)]
    exact (if_pos hs).trans (Dev.serveCal_keeps hw fun o => (Dev.modSb_cal ..).trans (cal o))
  have due := (StopsAt.endLate p (d.commanded p v) n rest 10).due
  rw [ends, Dev.modSb_port]
  refine ⟨due, ?_, rfl, ?_⟩
  · rw [Dev.endLate_atRest _ _ _ _ rest ho]
    refine (Dev.lateRecord_keeps _ _ _ _ _ (fun x => x.sb.stakes) (fun _ _ h => h) p).trans ?_
    rw [freed]
    rfl
  · rw [Dev.endLate_atRest _ _ _ _ rest ho]
    refine (Dev.lateRecord_keeps _ _ _ _ _ (fun x => x.tx.buffer) (fun _ _ _ => rfl) p).trans ?_
    rw [freed]

end

/-- What a command that calls for no reset answers: SRAM and the ports. -/
theorem answers_onDevW_ports {o : Host.Outcome State Fault Refusal} {f : Dev → Dev} {s : State} {post : State → Prop}
    (ho : o = .next (onDevW f s)) (hd : (f s.begun.d).resetDue = false)
    (h : ∀ t : State, t.ram = s.ram → t.d.ports = (f s.begun.d).ports → post t) : answers o post :=
  ⟨_, ho, h _ (onDevW_ram hd) (onDevW_ports hd)⟩

/-- Settles O11: BOOK ends at the check that fails or books the stake, CANCEL by the state of the entry that it names. -/
theorem bookAndCancelAnswerByTheChecks : Obligations.BookAndCancelAnswerByTheChecks := by
  intro s i p v hp hi hgo hw
  refine ⟨fun hop he hsw b q k hb hq hk => ?book, fun hop n hn => ⟨fun h => ?refused, fun k hk hs ho hl _ => ?freed⟩⟩
  case refused =>
    rw [exec_sbCancel_eq]
    exact rowWrite_sbCmd hp hi (Dev.sbCmd_cancelRefused hgo hop hn h)
  case freed =>
    obtain ⟨hdue, hstakes, hresult, hbuffer⟩ := Dev.sbCmd_cancelFrees (d := s.begun.d) hgo hop hn hk hs ho hl hw
    have now : exec (.sbCancel i p v) s = .next (onDevW (fun d => (d.sbCmd p v).answer i .done) s) := by
      rw [exec_sbCancel_eq]
      exact rowWrite_sbCmd hp hi rfl
    refine answers_onDevW_ports now hdue fun t hram hports => ?_
    rw [hports]
    exact ⟨hstakes, hresult, hbuffer, hram⟩
  case book =>
    have asks : s.begun.d.askedFor p = q := by subst hb hq; rfl
    obtain ⟨-, par, makes, used, blocked, free, ups⟩ := Dev.commanded_judges (d := s.begun.d) (p := p) (v := v)
    have up : (s.begun.d.commanded p v).portUp p = true := ups.trans (Dev.portUp_of_portAnswers (d := s.begun.d) hp)
    have stake : ((s.begun.d.commanded p v).ports[p]).mkStake q q.release s.d.now = k := by rw [makes, hk]; rfl
    have origin : q.origin = 0 := by rw [hq]; rfl
    have link : q.link = none := by rw [hq]; rfl
    rw [exec_sbBook_eq]
    subst hb
    refine ⟨fun c hc => rowWrite_sbCmd hp hi ?_, fun n hpo hd hs hr hn hlow => rowWrite_sbCmd hp hi ?_⟩
    · obtain ⟨rfl, hpo⟩ | ⟨hpo, ⟨rfl, hd⟩ | ⟨hd, ⟨rfl, hy⟩ | ⟨rfl, hs, hr, hf⟩⟩⟩ := hc
      · exact Dev.sbCmd_refused hgo asks hop he hw (Dev.bookCore_badParam origin link stake ((par q).trans hpo)) rfl
      · exact Dev.sbCmd_refused hgo asks hop he hw (Dev.bookCore_past origin link stake up ((par q).trans hpo) hd) rfl
      · exact Dev.sbCmd_refused hgo asks hop he hw
          (Dev.bookCore_conflict origin link stake up ((par q).trans hpo) hd (used ▸ hsw) (used ▸ hy)) rfl
      · have core := Dev.bookCore_clear origin link stake up ((par q).trans hpo) hd (used ▸ hs) (blocked ▸ hr)
        have full : (s.begun.d.ports[p]).sb.freeSlot = none := hf
        rw [free, full] at core
        exact Dev.sbCmd_refused hgo asks hop he hw core rfl
    · have core := Dev.bookCore_clear origin link stake up ((par q).trans hpo) hd (used ▸ hs) (blocked ▸ hr)
      have lowest : (s.begun.d.ports[p]).sb.freeSlot = some n := SlotBook.freeSlot_lowest hn hlow
      rw [free, lowest] at core
      exact Dev.sbCmd_booked hgo asks hop he hw core

end Sys2Proof.Machine
end

section
/-! The state right after reset (R182, R193, R331, R336, R349, R361): its queues, channels, cores and ports. -/

namespace Sys2Proof.Machine

theorem reset_regions (r : RegionId) : State.reset.d.regions[r] = {} := Vector.getElem_replicate r.isLt

theorem reset_dma (n : Fin 32) : State.reset.d.dma n = {} := by
  rw [Dev.dma, reset_regions]
  exact Vector.getElem_replicate _

/-- Each queue stands with 2^11 words from 2048 times its local number on (R349). -/
theorem reset_queue (q : QueueId) : State.reset.d.queue q = { base := 2048 * (localOfQueue q).val } := by
  rw [Dev.queue, reset_regions]
  exact Vector.getElem_ofFn _

/-- Core 0 alone is out of reset (R331, R336). -/
theorem reset_core (c : CoreId) : State.reset.d.cores[c] = { running := decide (c.val = 0) } := by
  have cores : State.reset.d.cores = (Vector.replicate 8 ({} : Core)).set (0 : Fin 8) { running := true } := rfl
  rw [cores]
  by_cases h : c = 0
  · subst h
    exact vset_self _ _ _
  · have held : c.val ≠ 0 := fun hv => h (Fin.ext hv)
    rw [vset_ne _ _ _ _ h, decide_eq_false held]
    exact Vector.getElem_replicate c.isLt

/-- Settles O58: each part of the machine by its own lemma, the registers as they are initialised. -/
theorem resetLeavesTheSpecsState : Obligations.ResetLeavesTheSpecsState := by
  refine ⟨rfl, rfl, rfl, rfl, rfl, rfl, rfl, rfl, rfl, rfl, rfl, rfl, fun c => ?cores, fun q => ?queues, fun n => ?channels,
    fun p => ?ports⟩
  case cores =>
    rw [reset_core]
    exact ⟨rfl, rfl, rfl⟩
  case queues =>
    rw [reset_queue]
    exact ⟨rfl, rfl, rfl, rfl⟩
  case channels => rw [reset_dma]
  case ports =>
    rw [reset_ports]
    exact ⟨rfl, rfl⟩

end Sys2Proof.Machine
end

section
/-! What a step keeps (R331, R406, and the memory's form): every operation that leaves a state leaves SRAM in canonical
form where it was, and the queue of commands as it was. One lemma for each operation, in the order of the model's chapters. -/

namespace Sys2Proof.Machine

/-- t is left of s: SRAM in canonical form stays so, and no command enters or leaves the queue. -/
structure KeepsForm (s t : State) : Prop where
  form : s.inv → t.inv
  queue : t.pending = s.pending

namespace KeepsForm
variable {s t u : State}

/-! ### The ways in which a state changes -/

theorem refl (s : State) : KeepsForm s s := ⟨id, rfl⟩

theorem trans (h : KeepsForm s t) (g : KeepsForm t u) : KeepsForm s u := ⟨g.form ∘ h.form, g.queue.trans h.queue⟩

/-- Whatever happens to the rest of the machine. -/
theorem withDev (h : KeepsForm s t) (e : Dev) : KeepsForm s { t with d := e } := ⟨h.form, h.queue⟩

/-- SRAM loses its content. -/
theorem cleared (h : KeepsForm s t) (e : Dev) : KeepsForm s { t with d := e, ram := [] } := ⟨fun _ => rfl, h.queue⟩

/-- SRAM takes a string of bytes. -/
theorem wrote (h : KeepsForm s t) (a : Nat) (l : List Byte) (e : Dev) :
    KeepsForm s { t with ram := memWrite 0 t.ram a l, d := e } := ⟨fun i => Memory.wf_memWrite (h.form i), h.queue⟩

theorem ite {p : Prop} [Decidable p] (h : KeepsForm s t) (g : KeepsForm s u) : KeepsForm s (if p then t else u) := by
  split
  · exact h
  · exact g

/-- The state that an operation leaves, where its result is known. -/
theorem fst {α : Type} {x : State × α} {a : α} (h : KeepsForm s x.1) (e : x = (u, a)) : KeepsForm s u := by
  subst e
  exact h

/-- The same of a choice between two results. -/
theorem iteFst {α : Type} {p : Prop} [Decidable p] {x y : State × α} (h : KeepsForm s x.1) (g : KeepsForm s y.1) :
    KeepsForm s (if p then x else y).1 := by
  split
  · exact h
  · exact g

/-! ### The start and the end of a command -/

theorem begun (h : KeepsForm s t) : KeepsForm s t.begun := h.withDev _

theorem finish (h : KeepsForm s t) : KeepsForm s (finish t) := by
  unfold Machine.finish
  exact (h.cleared _).ite (h.withDev _)

theorem onDev (h : KeepsForm s t) (f : Dev → Dev) : KeepsForm s (onDev f t) := h.withDev _

theorem onDevW (h : KeepsForm s t) (f : Dev → Dev) : KeepsForm s (onDevW f t) := (h.withDev _).finish

theorem upset (h : KeepsForm s t) (l : List BitErr) : KeepsForm s (t.upset l) := h.withDev _

/-! ### Memory -/

theorem eccRead (h : KeepsForm s t) (a : Nat) : KeepsForm s (t.eccRead a).1 := h.withDev _

theorem sramWrite (h : KeepsForm s t) (a : Nat) (l : List Byte) : KeepsForm s (t.sramWrite a l).1 := by
  unfold State.sramWrite
  exact iteFst h (iteFst (h.withDev _) (h.wrote _ _ _))

theorem ctxWrite (h : KeepsForm s t) (o : Nat) (v : Word) : KeepsForm s (t.ctxWrite o v).1 := by
  unfold State.ctxWrite
  exact iteFst h (h.withDev _)

theorem memLoad (h : KeepsForm s t) {a n : Nat} {f : Bool} {x : State × Rd} (e : t.memLoad a n f = some x) :
    KeepsForm s x.1 := by
  unfold State.memLoad at e
  split at e
  case h_1 => cases e; exact h
  case h_2 => cases e; exact h.withDev _
  case h_3 => cases e; exact h.eccRead _
  case h_4 =>
    split at e
    · cases e; exact h
    · cases e; exact h.eccRead _
  case h_5 =>
    split at e
    · cases e; exact h
    · cases e; exact h.eccRead _
  case h_6 => cases e

theorem memStore (h : KeepsForm s t) {a n : Nat} {v : Word} {x : State × Wr} (e : t.memStore a n v = some x) :
    KeepsForm s x.1 := by
  unfold State.memStore at e
  split at e
  case h_1 | h_2 => cases e; exact h
  case h_3 => cases e; exact h.sramWrite _ _
  case h_4 =>
    split at e
    · cases e; exact h
    · cases e; exact h.sramWrite _ _
  case h_5 =>
    split at e
    · cases e; exact h
    · cases e; exact h.ctxWrite _ _
  case h_6 => cases e

theorem load8 (h : KeepsForm s t) (a : Nat) : KeepsForm s (t.load8 a).1 := by
  unfold State.load8
  split
  case h_1 e =>
    have lo := h.memLoad e
    split
    case h_1 e | h_2 e | h_3 e => exact lo.memLoad e
    case h_4 => exact lo
  case h_2 e | h_3 e => exact h.memLoad e
  case h_4 => exact h

theorem store8 (h : KeepsForm s t) (a : Nat) (v : Word64) : KeepsForm s (t.store8 a v).1 := by
  unfold State.store8
  split
  case h_1 e =>
    have lo := h.memStore e
    split
    case h_1 e => exact lo.memStore e
    case h_2 => exact lo
  case h_2 => exact h

/-! ### DMA channels, ciphers, power and attestation -/

theorem dmaEnd (h : KeepsForm s t) (n : Fin 32) (e : DmaEnd) : KeepsForm s (dmaEnd n e t) := by
  unfold Machine.dmaEnd
  split
  · exact h
  · rename_i x _
    have closed := h.withDev (t.d.modDma n fun c => c.close e)
    have back : ∀ v, KeepsForm s (if x.wbOn then
        ({ t with d := t.d.modDma n fun c => c.close e } : State).store8 x.wb.toNat v
        else ({ t with d := t.d.modDma n fun c => c.close e }, true)).1 := fun v => iteFst (closed.store8 _ v) closed
    dsimp only
    split
    · exact (back _).withDev _
    · exact (back _).ite ((back _).withDev _)

theorem dmaAbort (h : KeepsForm s t) (n : Fin 32) : KeepsForm s (dmaAbort n t) := by
  unfold Machine.dmaAbort
  split
  · exact h
  · exact ((h.withDev _).dmaEnd n _).ite (h.withDev _)

theorem dmaWrite (h : KeepsForm s t) (r : RegionId) (o : Nat) (v : Word) : KeepsForm s (dmaWrite r o v t) := by
  unfold Machine.dmaWrite
  refine h.ite ?_
  dsimp only
  split
  case h_7 => exact (h.dmaAbort _).ite h
  case h_8 => exact h
  all_goals exact h.withDev _

theorem cipherOutput (h : KeepsForm s t) (r : RegionId) (n : Fin 2) (x : CiphRun) (st : Nat) (b : List Byte) :
    KeepsForm s (cipherOutput r n x st b t) := by
  unfold Machine.cipherOutput
  split
  case h_1 e | h_2 e => exact ((h.sramWrite _ _).fst e).withDev _

theorem cipherOpEnd (h : KeepsForm s t) (r : RegionId) (n : Fin 2) (mm : List Mismatch) : KeepsForm s (cipherOpEnd r n mm t) := by
  unfold Machine.cipherOpEnd
  split
  case h_2 => exact h
  case h_1 =>
    refine (h.withDev _).ite ((h.withDev _).ite ?_)
    split
    case h_1 => exact h.withDev _
    case h_2 =>
      split
      case h_2 => exact h.withDev _
      case h_1 =>
        refine (h.withDev _).ite ?_
        dsimp only
        split
        · exact h.withDev _
        · exact (h.withDev _).cipherOutput _ _ _ _ _

theorem pwrReq (h : KeepsForm s t) (v : Word) : KeepsForm s (pwrReq v t) := by
  unfold Machine.pwrReq
  refine h.ite ?_
  split
  case h_1 | h_2 => exact (h.withDev _).ite h
  case h_3 => exact h.withDev _
  case h_4 => exact (h.withDev _).ite (h.cleared _)
  case h_5 => exact h

theorem pwrWrite (h : KeepsForm s t) (o : Nat) (v : Word) : KeepsForm s (pwrWrite o v t) := by
  unfold Machine.pwrWrite
  dsimp only
  split
  case h_6 =>
    split
    case h_1 => exact h.pwrReq v
    case h_5 => exact h
    all_goals exact h.withDev _
  all_goals exact h.withDev _

theorem attSigned (h : KeepsForm s t) : KeepsForm s (attSigned t) := by
  unfold Machine.attSigned
  split
  · exact h
  · dsimp only
    split
    · exact ((h.withDev _).sramWrite _ _).withDev _
    · exact h.withDev _

theorem flashGoOn (h : KeepsForm s t) (ended : Option Bool) : KeepsForm s (t.flashGoOn ended) := h.withDev _

/-! ### Accesses -/

theorem regionWrite (h : KeepsForm s t) (i : Initiator) (r : RegionId) (k : Fin 4) (o : Nat) (v : Word) :
    KeepsForm s (regionWrite i r k o v t).1 := by
  unfold Machine.regionWrite
  split
  case h_2 => exact h.dmaWrite r o v
  all_goals exact h.withDev _

theorem chipWrite (h : KeepsForm s t) (i : Initiator) (k : Fin 12) (o : Nat) (v : Word) :
    KeepsForm s (chipWrite i k o v t).1 := by
  unfold Machine.chipWrite
  dsimp only
  split
  case h_1 => exact ((h.withDev _).flashGoOn _).ite (h.withDev _)
  case h_3 => exact h.pwrWrite o v
  case h_7 => exact iteFst h (h.withDev _)
  all_goals exact h.withDev _

theorem busRead (h : KeepsForm s t) (i : Initiator) (a n : Nat) (f : Bool) : KeepsForm s (t.busRead i a n f).1 := by
  unfold State.busRead
  split
  case h_1 e => exact h.memLoad e
  case h_2 =>
    refine iteFst h ?_
    split
    case h_1 => exact h.withDev _
    case h_2 | h_3 => split <;> exact h.withDev _
    case h_4 => exact h

theorem busWrite (h : KeepsForm s t) (i : Initiator) (a n : Nat) (v : Word) : KeepsForm s (t.busWrite i a n v).1 := by
  unfold State.busWrite
  split
  case h_1 e => exact h.memStore e
  case h_2 =>
    refine iteFst h ?_
    split
    case h_1 => exact h.chipWrite _ _ _ _
    case h_2 =>
      split
      · exact h.withDev _
      · exact (h.withDev _).regionWrite _ _ _ _ _
    case h_3 => split <;> exact h.withDev _
    case h_4 => exact h

theorem written {x : State × Wr} (h : KeepsForm s x.1) (i : Initiator) (a : Nat) (v : Word) : KeepsForm s (written i a v x) :=
  h.withDev _

theorem wasRead {x : State × Rd} (h : KeepsForm s x.1) (i : Initiator) (a : Nat) : KeepsForm s (wasRead i a x) := h.withDev _

theorem rowRead (h : KeepsForm s t) (i : Initiator) (a : Nat) : KeepsForm s (rowRead i a t) := by
  unfold Machine.rowRead
  exact h.ite ((h.withDev _).finish.ite ((h.begun.busRead _ _ _ _).wasRead _ _).finish)

theorem rowWrite (h : KeepsForm s t) (i : Initiator) (a : Nat) (v : Word) : KeepsForm s (rowWrite i a v t) := by
  unfold Machine.rowWrite
  exact h.ite ((h.withDev _).finish.ite ((h.begun.busWrite _ _ _ _).written _ _ _).finish)

end KeepsForm
end Sys2Proof.Machine
end

section
/-! What a step keeps: the dictionary and its messages, CAN, cores, DMA bursts, trunk requests, held accesses and starts. -/

namespace Sys2Proof.Machine
namespace KeepsForm
variable {s t u : State}

/-! ### The dictionary (chapter 9) -/

theorem dictLoad (h : KeepsForm s t) (a : Nat) : KeepsForm s (dictLoad a t).1 := by
  unfold Machine.dictLoad
  split
  case h_1 e | h_2 e => exact (h.busRead _ _ _ _).fst e

theorem dictStore (h : KeepsForm s t) (a : Nat) (v : Word) : KeepsForm s (dictStore a v t).1 := by
  unfold Machine.dictStore
  split
  case h_1 e | h_2 e => exact (h.busWrite _ _ _ _).fst e

theorem fieldStore (h : KeepsForm s t) (a lo len v : Nat) : KeepsForm s (fieldStore a lo len v t).1 := by
  unfold Machine.fieldStore
  split
  case h_1 e => exact ((h.dictLoad _).fst e).dictStore _ _
  case h_2 e => exact (h.dictLoad _).fst e

theorem objRead (h : KeepsForm s t) (o : Obj) (i : BitVec 16) (sub : Byte) : KeepsForm s (objRead o i sub t).1 := by
  unfold Machine.objRead
  dsimp only
  split
  case h_1 | h_2 | h_3 => exact h
  case h_4 =>
    split
    case h_4 | h_8 => split <;> rename_i e <;> exact (h.dictLoad _).fst e
    case h_7 =>
      split
      case h_1 e => exact (h.dictLoad _).fst e
      case h_2 e => split <;> rename_i g <;> exact (((h.dictLoad _).fst e).dictLoad _).fst g
    all_goals exact h

theorem objWrite (h : KeepsForm s t) (o : Obj) (c : Carrier) (i : BitVec 16) (sub : Byte) (l : List Byte) (ok : Bool) :
    KeepsForm s (objWrite o c i sub l ok t).1 := by
  unfold Machine.objWrite
  split
  case h_1 => exact h
  case h_2 =>
    split
    case h_1 => exact h
    case h_2 =>
      dsimp only
      split
      case h_1 => exact (h.withDev _).ite h
      case h_2 => exact h.withDev _
      case h_3 =>
        have stored := h.fieldStore
        exact iteFst ((h.withDev _).ite h) (iteFst h (iteFst (((stored _ _ _ _).withDev _).ite (stored _ _ _ _)) (stored _ _ _ _)))
      case h_4 => exact h

theorem pageStore (h : KeepsForm s t) (a : Nat) (v : Word) : KeepsForm s (pageStore a v t) := by
  unfold Machine.pageStore
  split
  case h_1 => exact h.chipWrite _ _ _ _
  case h_2 => exact h.regionWrite _ _ _ _ _
  case h_3 => exact h.withDev _
  case h_4 => exact h

theorem applyRwp (l : List (BitVec 16 × Byte × List Byte)) (h : KeepsForm s t) : KeepsForm s (applyRwp l t) := by
  induction l generalizing t with
  | nil => exact h
  | cons x l ih =>
    unfold Machine.applyRwp
    split
    case h_1 => exact ih h
    case h_2 =>
      split
      case h_1 => exact (ih h).ite (ih (h.pageStore _ _))
      case h_2 => exact ih h

theorem aborts (h : KeepsForm s t) (c : Carrier) (i : BitVec 16) (sub : Byte) (code : Nat) :
    KeepsForm s (aborts c i sub code t).1 := h.withDev _

theorem jobAnswer (h : KeepsForm s t) (c : Carrier) (m : List Byte) : KeepsForm s (jobAnswer c m t).1 := by
  unfold Machine.jobAnswer
  split
  · exact iteFst (h.withDev _) h
  · exact h

theorem tdpRead (h : KeepsForm s t) (c : Carrier) (i : BitVec 16) (sub : Byte) : KeepsForm s (tdpRead c i sub t).1 := by
  unfold Machine.tdpRead
  dsimp only
  split
  case h_1 => exact h.aborts _ _ _ _
  case h_2 =>
    split
    case h_1 =>
      refine iteFst (h.aborts _ _ _ _) (iteFst (iteFst (h.withDev _) (h.aborts _ _ _ _)) ?_)
      split
      · exact h.withDev _
      · exact h.aborts _ _ _ _
    case h_2 =>
      split
      case h_1 e => exact ((h.objRead _ _ _).fst e).aborts _ _ _ _
      case h_2 e => exact iteFst ((h.objRead _ _ _).fst e) (((h.objRead _ _ _).fst e).withDev _)

theorem tdpWriteExp (h : KeepsForm s t) (c : Carrier) (i : BitVec 16) (sub : Byte) (l : List Byte) (ok : Bool) :
    KeepsForm s (tdpWriteExp c i sub l ok t).1 := by
  unfold Machine.tdpWriteExp
  refine iteFst (h.aborts _ _ _ _) ?_
  split
  case h_1 => exact h.aborts _ _ _ _
  case h_2 =>
    split
    case h_1 => exact h.aborts _ _ _ _
    case h_2 =>
      refine iteFst (h.aborts _ _ _ _) ?_
      split
      case h_1 e => exact ((h.objWrite _ _ _ _ _ _).fst e).aborts _ _ _ _
      case h_2 e => exact ((h.objWrite _ _ _ _ _ _).fst e).jobAnswer _ _

theorem tdpWriteInit (h : KeepsForm s t) (c : Carrier) (i : BitVec 16) (sub : Byte) (n : Nat) :
    KeepsForm s (tdpWriteInit c i sub n t).1 := by
  unfold Machine.tdpWriteInit
  have no := h.aborts c i sub
  dsimp only
  refine iteFst (no _) ?_
  split
  case h_1 => exact no _
  case h_2 =>
    split
    case h_1 => exact no _
    case h_2 =>
      split
      case h_1 => exact iteFst (no _) (iteFst (no _) (h.withDev _))
      case h_2 => exact iteFst (no _) (h.withDev _)
      case h_3 =>
        split
        · exact no _
        · split
          · exact no _
          · exact h.withDev _
      case h_4 => exact iteFst (no _) (h.withDev _)

theorem ctxRead (k a : Nat) (h : KeepsForm s t) : KeepsForm s (ctxRead a k t).1 := by
  induction k generalizing a t with
  | zero => exact h
  | succ k ih =>
    unfold Machine.ctxRead
    split
    case h_1 e =>
      have rest := ih (a + 4) ((h.eccRead _).fst e)
      split <;> rename_i g <;> exact rest.fst g
    case h_2 e => exact (h.eccRead _).fst e

theorem ctxFill (n k next : Nat) (buf : List Byte) (h : KeepsForm s t) : KeepsForm s (ctxFill n k next buf t).1 := by
  induction k generalizing next buf t with
  | zero => exact h
  | succ k ih =>
    unfold Machine.ctxFill
    refine iteFst h ?_
    split
    case h_1 e => exact ih _ _ ((h.ctxRead _ _).fst e)
    case h_2 e => exact (h.ctxRead _ _).fst e

theorem tdpSegReq (h : KeepsForm s t) (c : Carrier) (q : Byte) : KeepsForm s (tdpSegReq c q t).1 := by
  unfold Machine.tdpSegReq
  split
  case h_1 =>
    split
    · exact h.withDev _
    · exact h
  case h_2 x _ =>
    refine iteFst (h.aborts _ _ _ _) (iteFst (h.withDev _) (iteFst (h.aborts _ _ _ _) ?_))
    dsimp only
    have filled := fun n next => iteFst (p := x.isCtx) (ctxFill n 5 next x.data h)
      (y := (t, some (x.data.drop x.pos))) h
    split
    case h_1 e => exact ((filled _ _).fst e).aborts _ _ _ _
    case h_2 e => exact ((filled _ _).fst e).withDev _

theorem ctxStore (k o : Nat) (l : List Byte) (h : KeepsForm s t) : KeepsForm s (ctxStore o l k t) := by
  induction k generalizing o l t with
  | zero => exact h
  | succ k ih =>
    unfold Machine.ctxStore
    exact ih _ _ (h.ctxWrite _ _)

theorem ctxDrain (k next : Nat) (l : List Byte) (h : KeepsForm s t) : KeepsForm s (ctxDrain k next l t).1 := by
  induction k generalizing next l t with
  | zero => exact h
  | succ k ih =>
    unfold Machine.ctxDrain
    exact iteFst h (ih _ _ (h.ctxStore _ _ _))

theorem tdpSeg (h : KeepsForm s t) (c : Carrier) (last : Bool) (q : Byte) (l : List Byte) (ok : Bool) :
    KeepsForm s (tdpSeg c last q l ok t).1 := by
  unfold Machine.tdpSeg
  split
  case h_1 =>
    split
    · exact h.withDev _
    · exact h
  case h_2 x _ =>
    refine iteFst (h.aborts _ _ _ _) (iteFst (h.withDev _) (iteFst (h.aborts _ _ _ _) (iteFst (h.aborts _ _ _ _) ?_)))
    dsimp only
    have drained := fun k l => h.ctxDrain 5 k l
    refine iteFst ((h.withDev _).jobAnswer _ _) (iteFst (iteFst ((drained _ _).aborts _ _ _ _)
      (iteFst ((drained _ _).withDev _) ((drained _ _).withDev _))) (iteFst (h.aborts _ _ _ _) (iteFst (h.withDev _) (iteFst ?_ ?_))))
    · split <;> exact h.withDev _
    · split
      case h_1 => exact h.aborts _ _ _ _
      case h_2 =>
        split
        case h_1 e => exact ((h.objWrite _ _ _ _ _ _).fst e).aborts _ _ _ _
        case h_2 e => exact ((h.objWrite _ _ _ _ _ _).fst e).withDev _

theorem forward (h : KeepsForm s t) (c : Carrier) (i : BitVec 16) (sub : Byte) (m : List Byte) :
    KeepsForm s (forward c i sub m t).1 := by
  unfold Machine.forward
  dsimp only
  split <;> exact h.withDev _

theorem routed (h : KeepsForm s t) (c : Carrier) (i : BitVec 16) (sub : Byte) (m : List Byte) {serve : State → Answer}
    (own : ∀ u, KeepsForm s u → KeepsForm s (serve u).1) : KeepsForm s (routed c i sub m serve t).1 := by
  unfold Machine.routed
  dsimp only
  split
  · exact own _ (h.withDev _)
  · exact (h.withDev _).forward _ _ _ _
  · exact h.withDev _

theorem inXfer (h : KeepsForm s t) (c : Carrier) (m : List Byte) {own : State → Answer} (g : KeepsForm s (own t).1) :
    KeepsForm s (inXfer c m own t).1 := by
  unfold Machine.inXfer
  split
  · exact iteFst (h.forward _ _ _ _) (h.aborts _ _ _ _)
  · exact g

theorem tdpAbort (h : KeepsForm s t) (c : Carrier) (i : BitVec 16) (sub code : Byte) :
    KeepsForm s (tdpAbort c i sub code t).1 := by
  unfold Machine.tdpAbort
  split
  · exact iteFst h (h.aborts _ _ _ _)
  · exact h

theorem tdpHandle (h : KeepsForm s t) (c : Carrier) (m : List Byte) (ok : Bool) : KeepsForm s (tdpHandle c m ok t).1 := by
  unfold Machine.tdpHandle
  extract_lets d e v
  have hv : KeepsForm s v := h.withDev e
  split
  case h_1 => exact hv.routed _ _ _ _ fun _ g => g.tdpWriteExp _ _ _ _ _
  case h_2 => exact hv.routed _ _ _ _ fun _ g => g.tdpRead _ _ _
  case h_3 => exact hv.routed _ _ _ _ fun _ g => g.tdpWriteInit _ _ _ _
  case h_4 => exact hv.inXfer _ _ (hv.tdpSegReq _ _)
  case h_5 => exact hv.inXfer _ _ (hv.tdpSeg _ _ _ _ _)
  case h_6 => exact hv.inXfer _ _ (hv.tdpAbort _ _ _ _)
  case h_7 => exact hv.aborts _ _ _ _

theorem tdpGive (h : KeepsForm s t) (c : Carrier) (m : List Byte) (ok : Bool) : KeepsForm s (tdpGive c m ok t) := by
  unfold Machine.tdpGive
  split
  · exact h.withDev _
  · split
    case h_1 e => exact ((h.tdpHandle _ _ _).fst e).withDev _
    case h_2 e => exact (h.tdpHandle _ _ _).fst e

theorem tdpServe (h : KeepsForm s t) (c : Carrier) (m : List Byte) (ok : Bool) : KeepsForm s (tdpServe c m ok t) :=
  (h.withDev _).tdpGive _ _ _

theorem canNext (h : KeepsForm s t) : KeepsForm s (canNext t) := by
  unfold Machine.canNext
  split
  · exact h.ite ((h.withDev _).tdpServe _ _ _)
  · exact h

/-- A run through a list, one step at a time. -/
theorem foldl {α : Type} {f : State → α → State} (l : List α) (step : ∀ u a, KeepsForm s u → KeepsForm s (f u a))
    (h : KeepsForm s t) : KeepsForm s (l.foldl f t) := by
  induction l generalizing t with
  | nil => exact h
  | cons a l ih => exact ih (step _ _ h)

theorem tdpResume (h : KeepsForm s t) : KeepsForm s (tdpResume t) := by
  unfold Machine.tdpResume
  refine (foldl _ (fun v c g => ?_) (h.withDev _)).canNext
  split
  · exact (g.withDev _).tdpGive _ _ _
  · exact g

theorem tdpRow (h : KeepsForm s t) (c : Carrier) (m : List Byte) (ok : Bool) : KeepsForm s (tdpRow c m ok t) := by
  unfold Machine.tdpRow
  exact h.ite (h.begun.tdpServe _ _ _).finish

theorem attestWrite (h : KeepsForm s t) (c : Carrier) (l : List Byte) : KeepsForm s (attestWrite c l t) := by
  have answered : ∀ a : Answer, KeepsForm s a.1 → KeepsForm s (match a with
      | (s, some m) => { s with d := s.d.respond c m }
      | (s, none) => s) := by
    intro a g
    split
    · exact g.withDev _
    · exact g
  unfold Machine.attestWrite
  refine h.ite (answered _ ?_).finish
  dsimp only
  split
  · exact h.withDev _
  · refine iteFst (h.withDev _) ?_
    split <;> exact h.withDev _

theorem attEnd (h : KeepsForm s t) : KeepsForm s (attEnd t) := by
  unfold Machine.attEnd
  dsimp only
  split
  · exact (h.withDev _).attSigned.withDev _
  · exact h.withDev _

/-! ### CAN (chapter 9) -/

theorem canFrameIn (h : KeepsForm s t) (x : CanArrival) (l : List Byte) (fd brs : Bool) :
    KeepsForm s (canFrameIn x l fd brs t) := by
  unfold Machine.canFrameIn
  exact h.ite ((h.withDev _).ite ((h.withDev _).ite (h.withDev _).canNext))

theorem canDone (h : KeepsForm s t) (sent : Bool) : KeepsForm s (canDone sent t) := by
  unfold Machine.canDone
  split
  · exact h
  · exact (h.withDev _).canNext

theorem canAfter (h : KeepsForm s t) : KeepsForm s (canAfter t) := h.withDev _

/-! ### Cores (chapter 11) -/

theorem prefetch (h : KeepsForm s t) (c : CoreId) (a : Nat) (w : Word) : KeepsForm s (t.prefetch c a w).1 := by
  unfold State.prefetch
  dsimp only
  split
  · exact h.withDev _
  · exact iteFst (iteFst h (h.withDev _)) (h.withDev _)

theorem coreHalf (h : KeepsForm s t) (c : CoreId) (a : Nat) : KeepsForm s (coreHalf c a t).1 := by
  unfold Machine.coreHalf
  refine iteFst ?_ h
  split
  case h_1 e => exact ((h.busRead _ _ _ _).fst e).prefetch _ _ _
  case h_2 => exact h.busRead _ _ _ _

theorem coreFetch (h : KeepsForm s t) (c : CoreId) : KeepsForm s (coreFetch c t).1 := by
  unfold Machine.coreFetch
  dsimp only
  split
  case h_1 e | h_2 e => exact (h.coreHalf _ _).fst e
  case h_3 e =>
    have lo := (h.coreHalf _ _).fst e
    refine iteFst lo ?_
    split <;> rename_i g <;> exact (lo.coreHalf _ _).fst g

theorem coreRetire (h : KeepsForm s t) (c : CoreId) (rd : Fin 32) (v pc : Word) : KeepsForm s (coreRetire c rd v pc t) :=
  h.withDev _

theorem coreExcept (h : KeepsForm s t) (c : CoreId) (code : Nat) (v : Word) : KeepsForm s (coreExcept c code v t) := h.withDev _

theorem coreStall (h : KeepsForm s t) (c : CoreId) (a n : Nat) (v : Option Word) : KeepsForm s (coreStall c a n v t) :=
  h.withDev _

theorem coreLoadStore (h : KeepsForm s t) (c : CoreId) (w next : Word) : KeepsForm s (coreLoadStore c w next t) := by
  unfold Machine.coreLoadStore
  dsimp only
  split
  · split
    case h_1 => exact h.coreExcept _ _ _
    case h_2 =>
      refine (h.coreExcept _ _ _).ite ((h.coreExcept _ _ _).ite ?_)
      split <;> rename_i e <;> exact ((h.busRead _ _ _ _).fst e).withDev _
  · refine (h.coreExcept _ _ _).ite ((h.coreExcept _ _ _).ite ?_)
    split <;> rename_i e <;> exact ((h.busWrite _ _ _ _).fst e).withDev _

theorem coreLr (h : KeepsForm s t) (c : CoreId) (w next : Word) : KeepsForm s (coreLr c w next t) := by
  unfold Machine.coreLr
  refine (h.coreExcept _ _ _).ite ((h.coreExcept _ _ _).ite ((h.coreExcept _ _ _).ite ?_))
  split <;> rename_i e <;> exact ((h.busRead _ _ _ _).fst e).withDev _

theorem coreSc (h : KeepsForm s t) (c : CoreId) (w next : Word) : KeepsForm s (coreSc c w next t) := by
  unfold Machine.coreSc
  refine (h.coreExcept _ _ _).ite ((h.coreExcept _ _ _).ite ?_)
  dsimp only
  refine ite ?_ (h.withDev _)
  split <;> rename_i e <;> exact (((h.withDev _).busWrite _ _ _ _).fst e).withDev _

theorem coreAmo (h : KeepsForm s t) (c : CoreId) (w next : Word) : KeepsForm s (coreAmo c w next t) := by
  unfold Machine.coreAmo
  refine (h.coreExcept _ _ _).ite ((h.coreExcept _ _ _).ite ?_)
  split
  case h_1 e =>
    have old := (h.busRead _ _ _ _).fst e
    split
    case h_1 => exact old.coreExcept _ _ _
    case h_2 => split <;> rename_i g <;> exact ((old.busWrite _ _ _ _).fst g).withDev _
  case h_2 e => exact ((h.busRead _ _ _ _).fst e).withDev _

theorem coreCsr (h : KeepsForm s t) (c : CoreId) (w next : Word) : KeepsForm s (coreCsr c w next t) := by
  unfold Machine.coreCsr
  dsimp only
  split
  case h_1 => exact h.coreExcept _ _ _
  case h_2 =>
    have retired := fun rd v pc p [Decidable p] e => (ite (p := p) (h.withDev e) h).coreRetire c rd v pc
    exact (h.coreExcept _ _ _).ite (((retired _ _ _ _ _).withDev _).ite (retired _ _ _ _ _))

theorem coreSystem (h : KeepsForm s t) (c : CoreId) (w next : Word) : KeepsForm s (coreSystem c w next t) := by
  unfold Machine.coreSystem
  exact (h.coreCsr _ _ _).ite ((h.coreExcept _ _ _).ite ((h.coreExcept _ _ _).ite ((h.withDev _).ite (h.coreExcept _ _ _))))

theorem coreWfi (h : KeepsForm s t) (c : CoreId) (w next : Word) : KeepsForm s (coreWfi c w next t) := by
  unfold Machine.coreWfi
  exact (h.coreExcept _ _ _).ite (h.withDev _)

theorem coreOther (h : KeepsForm s t) (c : CoreId) (w next : Word) : KeepsForm s (coreOther c w next t) := by
  unfold Machine.coreOther
  dsimp only
  split
  case h_4 => exact (h.coreRetire _ _ _ _).ite (h.coreExcept _ _ _)
  case h_8 => exact h.coreSystem _ _ _
  case h_5 | h_6 | h_7 => split <;> exact h.withDev _
  all_goals exact h.withDev _

theorem coreEffect (h : KeepsForm s t) (k : CoreClass) (c : CoreId) (w next : Word) : KeepsForm s (coreEffect k c w next t) := by
  cases k with
  | loadStore => exact h.coreLoadStore c w next
  | lr => exact h.coreLr c w next
  | sc => exact h.coreSc c w next
  | amo => exact h.coreAmo c w next
  | fence => exact h.coreRetire c 0 0 next
  | fenceI => exact (h.withDev _).coreRetire c 0 0 next
  | wfi => exact h.coreWfi c w next
  | time | timecmp | claim => exact h.coreCsr c w next
  | other => exact h.coreOther c w next

theorem coreStep (h : KeepsForm s t) (k : CoreClass) (c : CoreId) (l : List BitErr) : KeepsForm s (coreStep k c l t) := by
  unfold Machine.coreStep
  refine h.ite ?_
  have fetched := (h.withDev ((t.begun.d.upset l).modCore c fun x => { x with wfi := false })).coreFetch c
  dsimp only
  split
  · exact (fetched.coreEffect _ _ _ _).finish.ite h
  · exact (fetched.coreExcept _ _ _).finish.ite h
  · exact (fetched.coreStall _ _ _ _).finish.ite h

theorem coreNext (h : KeepsForm s t) (c : CoreId) : KeepsForm s (coreNext c t) := by
  unfold Machine.coreNext
  split <;> exact h.coreStep _ _ _

/-- What a core's rights are lent to keeps the form. -/
theorem asMachine {α : Type} (h : KeepsForm s t) (c : CoreId) {f : State → State × α}
    (g : ∀ u, KeepsForm s u → KeepsForm s (f u).1) : KeepsForm s (t.asMachine c f).1 := (g _ (h.withDev _)).withDev _

theorem debugRead (h : KeepsForm s t) (c : CoreId) (a : Nat) : KeepsForm s (debugRead c a t) := by
  unfold Machine.debugRead
  refine (h.withDev _).ite ?_
  split <;> rename_i e <;> exact ((h.asMachine c fun _ g => g.busRead _ _ _ _).fst e).withDev _

theorem debugWrite (h : KeepsForm s t) (c : CoreId) (a : Nat) (v : Word) : KeepsForm s (debugWrite c a v t) := by
  unfold Machine.debugWrite
  exact h.ite (h.asMachine c fun _ g => g.busWrite _ _ _ _)

/-! ### DMA bursts (chapter 12) -/

theorem elemRead (h : KeepsForm s t) (r : RegionId) (x : Desc) (k : Nat) : KeepsForm s (elemRead r x k t).1 := by
  unfold Machine.elemRead
  refine iteFst ?_ (iteFst ?_ ?_)
  · dsimp only
    split
    · exact h.withDev _
    · exact h
    · exact h
  · split <;> rename_i e <;> exact (h.load8 _).fst e
  · split <;> rename_i e <;> exact (h.busRead _ _ _ _).fst e

theorem dmaReads (r : RegionId) (n : Fin 32) (k : Nat) (h : KeepsForm s t) : KeepsForm s (dmaReads r n k t).1 := by
  induction k generalizing t with
  | zero => exact ((h.withDev _).dmaEnd _ _).ite (h.withDev _)
  | succ k ih =>
    unfold Machine.dmaReads
    split
    case h_1 => exact h
    case h_2 x _ =>
      split <;> rename_i e <;> have read := (h.elemRead _ _ _).fst e
      · exact read.withDev _
      · exact read.dmaEnd n (.err _ _ _)
      · exact ih (read.withDev _)

theorem dmaReadBurst (h : KeepsForm s t) (r : RegionId) : KeepsForm s (dmaReadBurst r t) := by
  unfold Machine.dmaReadBurst
  refine h.ite ?_
  dsimp only
  split
  · exact h
  · exact (h.dmaReads _ _ _).withDev _

theorem destWrite (h : KeepsForm s t) (r : RegionId) (x : Desc) (a n : Nat) (w : Word64) (eop fail : Bool) :
    KeepsForm s (destWrite r x a n w eop fail t).1 := by
  unfold Machine.destWrite
  exact iteFst h (iteFst (iteFst h (iteFst h (h.withDev _))) (iteFst (h.store8 _ _) (h.busWrite _ _ _ _)))

theorem dmaFinish (h : KeepsForm s t) (r : RegionId) (n : Fin 32) : KeepsForm s (dmaFinish r n t).1 := by
  unfold Machine.dmaFinish
  dsimp only
  split
  case h_1 => exact h
  case h_2 x _ =>
    refine iteFst h (iteFst ((h.dmaEnd _ _).ite h) ?_)
    have stop : ∀ b, KeepsForm s (if x.crcStore then
          match dmaCrcWrite r x (t.d.dma n) t with
          | (s, .done, _) => (Machine.dmaEnd n (.done b) s, true)
          | (s, .error, a) => (Machine.dmaEnd n (.err a (t.d.dma n).cnt false) s, true)
          | (s, .held, _) => (s, false)
        else (Machine.dmaEnd n (.done b) t, true)).1 := by
      intro b
      refine iteFst ?_ (h.dmaEnd n (.done b))
      split <;> rename_i e <;> have put := (h.destWrite _ _ _ _ _ _ _).fst e
      · exact put.dmaEnd n (.done b)
      · exact put.dmaEnd n (.err _ _ _)
      · exact put
    split
    · exact stop false
    · exact stop true
    · exact h

theorem dmaWrites (r : RegionId) (n : Fin 32) (k : Nat) (h : KeepsForm s t) : KeepsForm s (dmaWrites r n k t).1 := by
  induction k generalizing t with
  | zero => exact h.withDev _
  | succ k ih =>
    unfold Machine.dmaWrites
    dsimp only
    split
    case h_1 =>
      split <;> rename_i e <;> have put := ((h.withDev _).destWrite _ _ _ _ _ _ _).fst e
      · exact put.withDev _
      · exact put.dmaEnd _ _
      · exact ih (put.withDev _)
    case h_2 => exact h.withDev _

theorem dmaWriteBurst (h : KeepsForm s t) (r : RegionId) : KeepsForm s (dmaWriteBurst r t) := by
  unfold Machine.dmaWriteBurst
  refine h.ite ?_
  dsimp only
  split
  · exact h
  · have written := fun n k => h.dmaWrites r n k
    exact (iteFst ((written _ _).dmaFinish _ _) (written _ _)).withDev _

/-! ### Trunk requests (chapter 8) -/

theorem trunkReply (h : KeepsForm s t) (l : LinkId) (r : TrunkReq) (st aux : Nat) (b : List Byte) :
    KeepsForm s (trunkReply l r st aux b t) := h.withDev _

/-- A request is executed by a function that keeps the form. -/
theorem trunkExec (h : KeepsForm s t) (l : LinkId) (kind : TrunkReq → Bool) (gate : Bool) {f : TrunkReq → State → State}
    (g : ∀ r u, KeepsForm s u → KeepsForm s (f r u)) : KeepsForm s (trunkExec l kind gate f t) := by
  unfold Machine.trunkExec
  split
  · exact h
  · dsimp only
    split
    · exact (h.withDev _).finish
    · exact (g _ _ (h.withDev _)).finish

theorem memRead_ (l : LinkId) (r : TrunkReq) (n k : Nat) (out : List Byte) (h : KeepsForm s t) :
    KeepsForm s (memRead_ l r n k out t) := by
  induction n generalizing k out t with
  | zero => exact h.withDev _
  | succ n ih =>
    unfold Machine.memRead_
    split <;> rename_i e <;> have read := ((h.withDev _).busRead _ _ _ _).fst e
    · exact ih _ _ read
    · exact read.withDev _
    · exact read

theorem memWrite_ (l : LinkId) (r : TrunkReq) (n k : Nat) (h : KeepsForm s t) : KeepsForm s (memWrite_ l r n k t) := by
  induction n generalizing k t with
  | zero => exact h.withDev _
  | succ n ih =>
    unfold Machine.memWrite_
    split <;> rename_i e <;> have put := ((h.withDev _).busWrite _ _ _ _).fst e
    · exact ih _ put
    · exact put.withDev _
    · exact put

theorem trunkResume (h : KeepsForm s t) (l : LinkId) : KeepsForm s (trunkResume l t) := by
  unfold Machine.trunkResume
  split
  · exact (h.memRead_ _ _ _ _ _).ite (((h.withDev _).ite (h.memWrite_ _ _ _ _)).ite h)
  · exact h

theorem trunkDict (h : KeepsForm s t) (l : LinkId) : KeepsForm s (trunkDict l t) := by
  unfold Machine.trunkDict
  dsimp only
  split
  · exact h
  · refine h.ite ((h.withDev _).finish.ite ?_)
    split
    · exact (h.withDev _).finish
    · exact ((h.withDev _).tdpServe _ _ _).finish

/-! ### Held accesses (chapter 1) -/

theorem accessEnd (h : KeepsForm s t) (x : FaultTarget) (ok : Bool) (a : Access) : KeepsForm s (accessEnd x ok a t) := by
  unfold Machine.accessEnd
  refine h.ite ((h.withDev _).ite ?_)
  split
  · exact (h.busWrite _ _ _ _).written _ _ _
  · exact (h.busRead _ _ _ _).wasRead _ _

theorem coreRelease (h : KeepsForm s t) (c : CoreId) (a : HeldAcc) : KeepsForm s (coreRelease c a t) := by
  unfold Machine.coreRelease
  have free := h.withDev (t.d.modCore c fun x => { x with held := false })
  have made := (free.coreExcept c 7 a.addr).ite (p := a.failed) (free.coreNext c)
  exact (made.withDev _).ite made

theorem heldRetry (h : KeepsForm s t) (i : Initiator) (a : HeldAcc) : KeepsForm s (heldRetry i a t) := by
  unfold Machine.heldRetry
  have free := h.withDev { t.d with holds := t.d.holds.filter fun x => x.init ≠ i }
  have row : KeepsForm s (if a.failed then
      { t with d := ({ t.d with holds := t.d.holds.filter fun x => x.init ≠ i } : Dev).answer i .error }
      else match a.value with
        | some v => Machine.rowWrite i a.addr.toNat v { t with d := { t.d with holds := t.d.holds.filter fun x => x.init ≠ i } }
        | none => Machine.rowRead i a.addr.toNat { t with d := { t.d with holds := t.d.holds.filter fun x => x.init ≠ i } }) := by
    refine (h.withDev _).ite ?_
    split
    · exact free.rowWrite _ _ _
    · exact free.rowRead _ _
  dsimp only
  split
  · exact (free.coreRelease _ _).ite row
  · exact row

theorem releaseOne (h : KeepsForm s t) (i : Initiator) : KeepsForm s (releaseOne i t) := by
  unfold Machine.releaseOne
  refine h.tdpResume.ite ?_
  split
  · exact h.heldRetry _ _
  · split
    · exact h.trunkResume _
    · exact h

/-! ### Starts and wakes (chapter 14) -/

theorem unlessDead (h : KeepsForm s t) {f : State → State} (g : ∀ u, KeepsForm s u → KeepsForm s (f u)) :
    KeepsForm s (t.unlessDead f) := by
  unfold State.unlessDead
  split
  · exact h
  · exact g _ h

theorem devUnlessDead (h : KeepsForm s t) (f : Dev → Dev) : KeepsForm s (Dev.unlessDead f t) := by
  unfold Dev.unlessDead
  split
  · exact h
  · exact h.withDev _

theorem writeBack (h : KeepsForm s t) : KeepsForm s (writeBack t) := h.applyRwp _

theorem step5 (h : KeepsForm s t) (inp : StartInputs) : KeepsForm s (step5 inp t) := (h.withDev _).writeBack.withDev _

/-- The segments of an image are strings of bytes. -/
theorem segments {α : Type} (a : α → Nat) (b : α → List Byte) (l : List α) (e : Dev) (h : KeepsForm s t) :
    KeepsForm s { t with ram := l.foldl (fun m g => memWrite 0 m (a g) (b g)) t.ram, d := e } := by
  induction l generalizing t with
  | nil => exact h.withDev e
  | cons g l ih => exact ih (h.wrote (a g) (b g) e)

theorem step7 (h : KeepsForm s t) (inp : StartInputs) : KeepsForm s (step7 inp t).1 := by
  unfold Machine.step7
  refine iteFst (h.withDev _) ?_
  split
  · exact h.withDev _
  · exact iteFst (h.segments _ _ _ _) (h.withDev _)

theorem step8 (h : KeepsForm s t) (x : ImageHeader) : KeepsForm s (step8 x t) := h.wrote _ _ _

theorem startSequence (h : KeepsForm s t) (inp : StartInputs) : KeepsForm s (startSequence inp t) := by
  have ready := fun e => ((h.withDev e).unlessDead fun _ g => g.step5 inp).devUnlessDead Dev.step6
  unfold Machine.startSequence
  dsimp only
  split
  · exact ready _
  · split
    case h_1 e => exact ((ready _).step7 _).fst e
    case h_2 e => exact ((((ready _).step7 _).fst e).step8 _).devUnlessDead _

theorem powerUp (h : KeepsForm s t) (cause : Nat) (d : Dev) (inp : StartInputs) : KeepsForm s (powerUp cause d inp t) := by
  unfold Machine.powerUp
  exact (h.cleared _).ite ((h.cleared _).startSequence _)

theorem powerOff (h : KeepsForm s t) : KeepsForm s (powerOff t) := h.cleared _

theorem checkBackup (h : KeepsForm s t) (x : Rtc) : KeepsForm s (Dev.checkBackup t x) := h.withDev _

theorem wakeHold (h : KeepsForm s t) (src : Nat) : KeepsForm s (wakeHold src t) := (h.withDev _).writeBack.withDev _

theorem wakeStandby (h : KeepsForm s t) (src : Nat) (inp : StartInputs) : KeepsForm s (wakeStandby src inp t) := by
  unfold Machine.wakeStandby
  exact ((h.cleared _).ite ((h.cleared _).startSequence _)).withDev _

theorem wakeUp (h : KeepsForm s t) (src : Nat) : KeepsForm s (t.wakeUp src) := by
  unfold State.wakeUp
  split
  · exact h.withDev _
  · exact h.wakeHold _
  · exact h

theorem wake (h : KeepsForm s t) (src : Nat) (inp : StartInputs) : KeepsForm s (wake src inp t) := by
  unfold Machine.wake
  split
  · exact h.wakeStandby _ _
  · exact h.wakeUp _

theorem gpioEdge (h : KeepsForm s t) (g : Fin 16) (level : Bool) : KeepsForm s (gpioEdge g level t) := by
  unfold Machine.gpioEdge
  refine (h.withDev _).ite ?_
  split
  · exact (h.withDev _).wakeUp _
  · exact h.withDev _

end KeepsForm
end Sys2Proof.Machine
end

section
/-! The whole block (R234): every command but an open test-mode instruction answers a state that keeps the form. -/

namespace Sys2Proof.Machine

/-- A command answers a state that keeps the form of s. -/
def Keeping (s : State) (o : Host.Outcome State Fault Refusal) : Prop := answers o (KeepsForm s)

section
variable {s t : State}

theorem KeepsForm.next (h : KeepsForm s t) : Keeping s (.next t) := ⟨t, rfl, h⟩

/-! ### Commands that are more than one access or one change of the machine -/

theorem handshakeTimeout_keeping (x : Handshake) (ok : Bool) (s : State) : Keeping s (execHandshakeTimeout x ok s) := by
  have h := KeepsForm.refl s
  refine (h.ite (KeepsForm.finish ?_)).next
  split
  · exact (h.withDev _).accessEnd _ _ _
  · exact h.withDev _

theorem heldAccessRelease_keeping (i : Initiator) (s : State) : Keeping s (execHeldAccessRelease i s) := by
  have h := KeepsForm.refl s
  refine KeepsForm.next ?_
  split
  · exact h
  · exact (h.begun.releaseOne _).finish.ite ((h.withDev _).releaseOne _).finish

theorem tdpFwTimeout_keeping (c : Carrier) (s : State) : Keeping s (execTdpFwTimeout c s) := by
  have h := KeepsForm.refl s
  refine KeepsForm.next ?_
  split
  · exact (h.withDev _).canNext.finish
  · exact h

theorem flashProgramDone_keeping (s : State) : Keeping s (execFlashProgramDone s) := by
  have h := KeepsForm.refl s
  refine KeepsForm.next ?_
  split
  · exact ((h.withDev _).flashGoOn _).canNext.finish
  · exact h

theorem flashErasePulseEnd_keeping (ok : Bool) (s : State) : Keeping s (execFlashErasePulseEnd ok s) := by
  have h := KeepsForm.refl s
  refine KeepsForm.next ?_
  split
  · refine KeepsForm.finish ?_
    split
    · exact ((h.withDev _).flashGoOn _).canNext
    · exact h.withDev _
  · exact h

theorem runReached_keeping (inp : StartInputs) (s : State) : Keeping s (execRunReached inp s) := by
  have h := KeepsForm.refl s
  refine KeepsForm.next ?_
  split
  · exact (((h.begun.startSequence _).ite h.begun).devUnlessDead _).finish
  · exact h

theorem wakeEvent_keeping (x : WakeSource) (inp : StartInputs) (s : State) : Keeping s (execWakeEvent x inp s) := by
  have h := KeepsForm.refl s
  refine KeepsForm.next ?_
  split
  · exact (h.begun.wake _ _).finish
  · exact h

theorem rtcAlarm_keeping (inp : StartInputs) (s : State) : Keeping s (execRtcAlarm inp s) :=
  have h := KeepsForm.refl s
  (h.ite (((h.withDev _).wake _ _).ite (h.withDev _)).finish).next

/-- Every JTAG instruction answers but an open test-mode instruction (R234). -/
theorem jtagInstruction_keeping {x : JtagIns} {s : State} (ok : s.accepts (.jtagInstruction x) = true) :
    Keeping s (execJtagInstruction x s) := by
  have h := KeepsForm.refl s
  have onCore : ∀ (c : CoreId) {t : State} {f : Dev → Dev}, KeepsForm s t →
      Keeping s (if s.d.debugged c then .next (finish t) else .next (onDev f s)) := by
    intro c t f kept
    split
    · exact kept.finish.next
    · exact (h.onDev f).next
  cases x with
  | bypass | idcode | sample | extest => exact (h.onDev _).next
  | halt c | resume c => exact onCore c ((h.withDev _).withDev _)
  | stepCore c => exact onCore c ((h.withDev _).ite ((((h.withDev _).withDev _).coreNext c).withDev _))
  | readReg c | writeReg c => exact onCore c (((h.withDev _).withDev _).ite (h.withDev _))
  | busRead c => exact onCore c (((h.withDev _).debugRead _ _).ite (h.withDev _))
  | busWrite c => exact onCore c (((h.withDev _).debugWrite _ _ _).ite (h.withDev _))
  | testMode n =>
    have shut : s.d.dbg.opens 1 = false := by simpa [State.accepts] using ok
    have locked : execJtagInstruction (.testMode n) s = .next (onDev (fun d =>
        { d.shiftOut [0] with dbg := { (d.shiftOut [0]).dbg with extest := false } }) s) := by
      simp only [execJtagInstruction, shut]
      rfl
    rw [locked]
    exact (h.onDev _).next

/-! ### Requests of the trunk -/

theorem trunkPing_keeping (l : LinkId) (s : State) : Keeping s (execTrunkPing l s) :=
  ((KeepsForm.refl s).trunkExec l _ _ fun _ _ g => (g.trunkReply _ _ _ _ _).ite (g.trunkReply _ _ _ _ _)).next

theorem trunkMemrd_keeping (l : Meets LinkId BitErr) (s : State) : Keeping s (execTrunkMemrd l s) := by
  refine ((KeepsForm.refl s).trunkExec l.at_ _ _ fun _ _ g => ?_).next
  split
  · exact g.trunkReply _ _ _ _ _
  · exact (g.upset _).memRead_ _ _ _ _ _

theorem trunkMemwr_keeping (l : LinkId) (s : State) : Keeping s (execTrunkMemwr l s) := by
  refine ((KeepsForm.refl s).trunkExec l _ _ fun _ _ g => ?_).next
  split
  · exact g.trunkReply _ _ _ _ _
  · exact g.memWrite_ _ _ _ _

theorem trunkQrd_keeping (l : Meets LinkId BitErr) (s : State) : Keeping s (execTrunkQrd l s) := by
  refine ((KeepsForm.refl s).trunkExec l.at_ _ _ fun _ _ g => ?_).next
  split <;> exact g.withDev _

theorem trunkQwr_keeping (l : LinkId) (s : State) : Keeping s (execTrunkQwr l s) := by
  refine ((KeepsForm.refl s).trunkExec l _ _ fun _ _ g => ?_).next
  split
  · exact g.trunkReply _ _ _ _ _
  · split
    · exact g.withDev _
    · exact (g.trunkReply _ _ _ _ _).ite (g.withDev _)

theorem trunkSread_keeping (l : LinkId) (s : State) : Keeping s (execTrunkSread l s) := by
  refine ((KeepsForm.refl s).trunkExec l _ _ fun _ _ g => ?_).next
  split
  · exact g.trunkReply _ _ _ _ _
  · exact (g.withDev _).ite ((g.trunkReply _ _ _ _ _).ite (g.withDev _))

theorem trunkMbxPost_keeping (l : LinkId) (s : State) : Keeping s (execTrunkMbxPost l s) := by
  refine ((KeepsForm.refl s).trunkExec l _ _ fun _ _ g => ?_).next
  split <;> exact g.withDev _

theorem trunkMbxTake_keeping (l : LinkId) (s : State) : Keeping s (execTrunkMbxTake l s) := by
  refine ((KeepsForm.refl s).trunkExec l _ _ fun _ _ g => ?_).next
  split <;> exact g.withDev _

theorem trunkMbxPeek_keeping (l : LinkId) (s : State) : Keeping s (execTrunkMbxPeek l s) := by
  refine ((KeepsForm.refl s).trunkExec l _ _ fun _ _ g => ?_).next
  split
  · exact g.trunkReply _ _ _ _ _
  · exact (g.trunkReply _ _ _ _ _).ite (g.trunkReply _ _ _ _ _)

end

/-! ### Every command -/

/-- Every command that the state accepts answers a state that keeps the form. Those that no row names change the machine
outside SRAM alone. -/
theorem exec_keeping (s : State) (c : Instr) (ok : s.accepts c = true) : Keeping s (exec c s) := by
  have h := KeepsForm.refl s
  cases c with
  | portRxgainWrite | portAgcResume | portRxfreqWrite | portRxctlWrite | portWcfgWrite | portCntclr
  | portPlumbRunnow | gaugeRunnow | portBmFreqWrite | portBmctlFill | portBmctlInvall | portTuneWrite
  | portTuneResume | portTxpwrWrite | portTxcntclr | portCalRunnow | sbBook | sbCancel | ctxopInstall | ctxopRemove
  | ctxopFind | linkCntclr | linkAnchoridWrite | contextWordWrite | datumTrimWrite | datumPpsctlWrite | datumStepgo
  | datumDeclare | ciphCcmEnc | ciphCcmDec | ciphCmacGen | ciphCmacVer | ciphDerive | ciphKeyload | ciphKeysave
  | keyLoadplain | keyErase | keyEraseall | hashSha256 | hashLmsVerify | otpProgkey | otpRevoke | otpClearrootok
  | attRequest | dbgTokenSubmit | trkAttnsetWrite | trkCntclr | canCntclr | cfgClear | coreCtlWrite | coreMsipWrite
  | flashProgram | flashErase | flashSuspend | flashResume | flashWpWrite | queWrLo | queWrHi | queWrendHi
  | queFlush | queCtlEnWrite | queCfgWrite | dmaCommit | dmaAbort | mbxLockWrite | mbxMsgWrite | mbxTakenClear
  | evtFireWrite | tmrStart | tmrStop | tmrForce | tmrGoWrite | evtCtlClr | rtcHaltSet | rtcHaltClear | rtcBinary
  | rtcTimeWrite | pwrReqRun | pwrReqNap | pwrReqHold | pwrReqStandby | pwrDomsleepWrite | pwrVsetWrite
  | pwrPaceWrite | pwrVceilWrite | registerWrite => exact (h.rowWrite _ _ _).next
  | linkHashstatRead | datumNowRead | mbxLockRead | mbxTakeRead | tmrCaptRead | rtcFracRead | rtcDateRead => exact (h.rowRead _ _).next
  | flashRead | queRdLo => exact (((h.upset _).rowRead _ _).ite h).next
  | tdpRead | tdpWriteExp | tdpWriteInit | tdpSegReq | tdpSeg | tdpSegLast | tdpAbort | attnDetailClear
  | ctxOpChannel | clearret | updLockClaim | updLockRelease | updImageInit | updImageSegment | updCommit | updAbort => exact (h.tdpRow _ _ _).next
  | coreLoadStore | coreLrW | coreScW | coreAmo | coreFence | coreFenceI | coreWfi | coreTimeRead | mtimecmpWrite
  | mirqclaimWrite | coreInstruction => exact (h.coreStep _ _ _).next
  | plumbCheckVerdict | hopFail | framePrepared | linkUplink | downlinkPacket | hashDone | jtagToken | sreadServed
  | cfgRecordCommitted | otpOperationEnd => exact (h.onDevW _).next
  | downlinkExpired x => cases x <;> exact (h.onDev _).next
  | handshakeTimeout => exact handshakeTimeout_keeping _ _ s
  | heldAccessRelease => exact heldAccessRelease_keeping _ s
  | cipherOpEnd => exact (h.begun.cipherOpEnd _ _ _).finish.next
  | attSigned => exact h.begun.attEnd.canNext.finish.next
  | jtagInstruction => exact jtagInstruction_keeping ok
  | trunkPing => exact trunkPing_keeping _ s
  | trunkMemrd => exact trunkMemrd_keeping _ s
  | trunkMemwr => exact trunkMemwr_keeping _ s
  | trunkQrd => exact trunkQrd_keeping _ s
  | trunkQwr => exact trunkQwr_keeping _ s
  | trunkSread => exact trunkSread_keeping _ s
  | trunkDict => exact (h.trunkDict _).next
  | trunkMbxPost => exact trunkMbxPost_keeping _ s
  | trunkMbxTake => exact trunkMbxTake_keeping _ s
  | trunkMbxPeek => exact trunkMbxPeek_keeping _ s
  | tdpFwAnswer => exact (h.withDev _).canNext.finish.next
  | tdpFwTimeout => exact tdpFwTimeout_keeping _ s
  | attestWrite => exact (h.attestWrite _ _).next
  | canRequestFrame => exact ((h.withDev _).canFrameIn _ _ _ _).finish.next
  | canTxTimeout => exact (h.canAfter.canDone _).finish.next
  | canResponseSent => exact ((h.canAfter.canDone _).ite h.canAfter).finish.next
  | dmaReadBurst => exact ((h.begun.upset _).dmaReadBurst _).finish.next
  | dmaWriteBurst => exact (h.begun.dmaWriteBurst _).finish.next
  | flashProgramDone => exact flashProgramDone_keeping s
  | flashErasePulseEnd => exact flashErasePulseEnd_keeping _ s
  | gpioEdge => exact (h.begun.gpioEdge _ _).finish.next
  | vinValid => exact (((h.powerUp _ _ _).checkBackup _).finish.ite h).next
  | vinDrop => exact (h.withDev _).powerOff.finish.next
  | vinOvervoltage => exact (h.ite (h.withDev _).powerOff.finish).next
  | vinOvervoltageEnd => exact ((h.powerUp _ _ _).finish.ite h).next
  | resetnAssert => exact (h.ite (h.cleared _).finish).next
  | resetn => exact (h.ite (h.powerUp _ _ _).finish).next
  | runReached => exact runReached_keeping _ s
  | rtcAlarm => exact rtcAlarm_keeping _ s
  | wakeEvent => exact wakeEvent_keeping _ _ s
  | updLockExpired => exact ((h.withDev _).canNext.finish.ite h).next
  | _ => exact (h.onDev _).next

/-- The one command that a state turns away is refused (R234). -/
theorem exec_refused {s : State} {c : Instr} (no : s.accepts c = false) : exec c s = .refused .testMode := by
  match c, no with
  | .jtagInstruction (.testMode n), no =>
    have opened : s.d.dbg.opens 1 = true := by simpa [State.accepts] using no
    exact if_pos opened

/-- A command that answers was accepted. -/
theorem accepts_of_next {s t : State} {c : Instr} (h : exec c s = .next t) : s.accepts c = true := by
  cases ok : s.accepts c with
  | true => rfl
  | false => exact absurd (h.symm.trans (exec_refused ok)) (by simp)

/-- Settles O59: every operation keeps the form, and the step takes a command from the queue before it runs it. -/
theorem everyCommandAnswersAndKeepsTheForm : Obligations.EveryCommandAnswersAndKeepsTheForm := by
  refine ⟨fun s c hs ok => ?answers, fun s c no => exec_refused no, fun s t hs ht => ?step⟩
  case answers =>
    obtain ⟨t, ht, kept⟩ := exec_keeping s c ok
    exact ⟨t, ht, kept.form hs, kept.queue⟩
  case step =>
    unfold step at ht
    split at ht
    case h_1 empty =>
      cases ht
      exact ⟨hs, by rw [empty, List.tail_nil]; exact empty⟩
    case h_2 c rest queue =>
      obtain ⟨u, hu, kept⟩ := exec_keeping _ c (accepts_of_next ht)
      obtain rfl : u = t := Host.Outcome.next.inj (hu.symm.trans ht)
      exact ⟨kept.form hs, kept.queue.trans (by rw [queue, List.tail_cons])⟩

end Sys2Proof.Machine
end

section
/-! Authentication failures (R237, R238): the window of the SEC threshold, what its end leaves and what a failure counts. -/

namespace Sys2Proof.Machine

theorem Sec.window_pos (s : Sec) : 0 < s.window := lt_of_lt_of_le Nat.one_pos (le_max_left _ _)

/-- The present second lies in the window. -/
def Dev.inWindow (d : Dev) : Prop := d.sec.winStart ≤ d.datumSec ∧ d.datumSec < d.sec.winStart + d.sec.window

theorem Dev.authRoll_inWindow {d : Dev} (h : d.inWindow) : d.authRoll = d := if_pos h

/-- In the second after the window the next one begins. -/
theorem Dev.authRoll_windowEnd {d : Dev} (h : d.datumSec = d.sec.winStart + d.sec.window) :
    d.authRoll = { d with sec := { d.sec with winStart := d.sec.winStart + d.sec.window, cnt := 0, hit := false } } := by
  have next : d.sec.winStart + (d.sec.winStart + d.sec.window - d.sec.winStart) / d.sec.window * d.sec.window =
      d.sec.winStart + d.sec.window := by
    rw [Nat.add_sub_cancel_left, Nat.div_self d.sec.window_pos, Nat.one_mul]
  rw [Dev.authRoll, h, if_neg (by omega), next]

/-- The datum counts the ticks that pass. -/
theorem Dev.advance_datumNow {d : Dev} (h : d.datumCounts = true) (n : Nat) :
    (d.advance n).datum.now = d.datum.now + BitVec.ofNat 64 n := by
  simp only [Dev.advance, h, if_true]

/-- A datum that counts reaches a value ahead of it. -/
theorem Dev.untilDatum_datumNow {d : Dev} {t : Nat} (h : d.datumCounts = true) (le : d.datum.now.toNat ≤ t) (lt : t < 2 ^ 64) :
    (d.untilDatum t).datum.now.toNat = t := by
  have ahead : ((t : Int) - d.datum.now.toNat).toNat = t - d.datum.now.toNat := by omega
  rw [Dev.untilDatum, Dev.advance_datumNow h, ahead, BitVec.toNat_add, BitVec.toNat_ofNat]
  omega

/-- The window's end comes before the datum wraps: the count and its mark are fresh, the causes stand. -/
theorem Dev.authWindowEnd_of {d : Dev} (hw : d.inWindow) (hc : d.datumCounts = true)
    (hn : d.datum.now.toNat + d.sec.window * 200000000 < 2 ^ 64) :
    d.authWindowEnd.sec = { d.sec with winStart := d.sec.winStart + d.sec.window, cnt := 0, hit := false } ∧
      d.authWindowEnd.datum.now.toNat = (d.sec.winStart + d.sec.window) * 200000000 := by
  have inside := hw
  obtain ⟨lo, hi⟩ := hw
  simp only [Dev.datumSec, secTicks] at lo hi
  have reached := Dev.untilDatum_datumNow (t := (d.sec.winStart + d.sec.window) * secTicks) hc (by simp only [secTicks]; omega)
    (by simp only [secTicks]; omega)
  have second : (d.untilDatum ((d.sec.winStart + d.sec.window) * secTicks : Nat)).datumSec =
      d.sec.winStart + d.sec.window := by
    rw [Dev.datumSec, reached]
    exact Nat.mul_div_cancel _ (by decide)
  rw [Dev.authWindowEnd, Dev.authRoll_inWindow inside]
  dsimp only
  rw [Dev.authRoll_windowEnd second]
  exact ⟨rfl, reached⟩

/-- A failure in the window counts, up to 65 535 (R238). -/
theorem Dev.countAuth_cnt {d : Dev} (h : d.inWindow) : d.countAuth.sec.cnt = min 65535 (d.sec.cnt + 1) := by
  rw [Dev.countAuth, Dev.authRoll_inWindow h]
  dsimp only
  split <;> rfl

/-- The failure that reaches THRESH sets AUTH. -/
theorem Dev.countAuth_reaches {d : Dev} (h : d.inWindow) (hh : d.sec.hit = false)
    (ht : max 1 (fld d.sec.authctl 0 16) ≤ d.sec.cnt + 1) :
    d.countAuth.sec.stat = d.sec.stat ||| 1 ∧ d.countAuth.sec.hit = true := by
  rw [Dev.countAuth, Dev.authRoll_inWindow h]
  dsimp only
  rw [if_pos ⟨ht, by rw [hh]; rfl⟩]
  exact ⟨rfl, rfl⟩

/-- One below THRESH, or in a window that has set AUTH, leaves the causes. -/
theorem Dev.countAuth_below {d : Dev} (h : d.inWindow)
    (hn : d.sec.hit = true ∨ d.sec.cnt + 1 < max 1 (fld d.sec.authctl 0 16)) : d.countAuth.sec.stat = d.sec.stat := by
  have no : ¬ (max 1 (fld d.sec.authctl 0 16) ≤ d.sec.cnt + 1 ∧ (!d.sec.hit) = true) := by
    rintro ⟨ht, hh⟩
    rcases hn with hit | below
    · rw [hit] at hh
      cases hh
    · omega
  rw [Dev.countAuth, Dev.authRoll_inWindow h]
  dsimp only
  rw [if_neg no]

/-- Settles O33: the end of the present window, and the three ways in which a failure counts in it. -/
theorem authFailuresAreCountedByWindow : Obligations.AuthFailuresAreCountedByWindow := by
  refine ⟨fun s lo hi hn hc => ?windowEnd, fun d lo hi => ⟨Dev.countAuth_cnt ⟨lo, hi⟩,
    fun hh ht => Dev.countAuth_reaches ⟨lo, hi⟩ hh ht, fun hn => Dev.countAuth_below ⟨lo, hi⟩ hn⟩⟩
  obtain ⟨sec, now⟩ := Dev.authWindowEnd_of (d := s.d) ⟨lo, hi⟩ hc hn
  refine ⟨onDev Dev.authWindowEnd s, rfl, ?_⟩
  simp only [onDev, Dev.settle_sec, Dev.settle_datum, sec, now, and_self]

end Sys2Proof.Machine
end

section
/-! The key store (R217, R219, R221): what a write of KEY_CTL asks for, and how a commit ends. -/

namespace Sys2Proof.Machine

/-! ### A write of KEY_CTL -/

/-- KEY_CTL keeps the 19 bits of its fields. -/
theorem fld_ctl {v : Word} {lo len : Nat} (h : lo + len ≤ 19) : fld (v &&& 0x7FFFF) lo len = fld v lo len := by
  have masked : (v &&& 0x7FFFF).toNat = v.toNat % 2 ^ 19 := by
    rw [BitVec.toNat_and]
    exact Nat.and_two_pow_sub_one_eq_mod v.toNat 19
  rw [fld, masked]
  apply Nat.eq_of_testBit_eq
  intro i
  simp only [fld, Nat.testBit_mod_two_pow, Nat.testBit_shiftRight]
  by_cases hi : i < len
  · simp [hi, show lo + i < 19 by omega]
  · simp [hi]

theorem bit_ctl {v : Word} {i : Nat} (h : i < 19) : bit (v &&& 0x7FFFF) i = v.getLsbD i := by
  have mask : (0x7FFFF : Word).getLsbD i = true := by interval_cases i <;> rfl
  rw [bit, BitVec.getLsbD_and, mask, Bool.and_true]

section
variable (k : Keys) {v : Word}

/-- The slot write that a plain load spells: the slot, its key of 16 or 32 bytes, the role, whether it may leave (R221). -/
def Keys.plainLoad (v : Word) : KeyWrite :=
  .put ⟨fld v 0 13, (bytesOf32 k.load.toList).take (if v.getLsbD 13 then 32 else 16), fld v 14 2, v.getLsbD 16⟩

theorem Keys.asked_load (h : fld v 17 2 = 1) : ({ k with ctl := v &&& 0x7FFFF } : Keys).asked = some (k.plainLoad v) := by
  simp (disch := omega) only [Keys.asked, fld_ctl, bit_ctl, h, Keys.plainLoad]

theorem Keys.asked_erase (h : fld v 17 2 = 2) : ({ k with ctl := v &&& 0x7FFFF } : Keys).asked = some (.erase (fld v 0 13)) := by
  simp (disch := omega) only [Keys.asked, fld_ctl, h]

theorem Keys.asked_eraseAll (h : fld v 17 2 = 3) : ({ k with ctl := v &&& 0x7FFFF } : Keys).asked = some .eraseAll := by
  simp (disch := omega) only [Keys.asked, fld_ctl, h]

variable {k} (hgo : v.getLsbD 19 = true) (hs : k.status ≠ 1) {w : KeyWrite}
  (ha : ({ k with ctl := v &&& 0x7FFFF } : Keys).asked = some w)
include hgo hs ha

/-- An operation that GO starts is refused where it is a plain load of a reserved role, and else waits for its commit. -/
theorem Keys.command_go : k.command v =
    if fld v 17 2 = 1 ∧ 2 ≤ fld v 14 2 then ({ k with ctl := v &&& 0x7FFFF } : Keys).ended 3
    else { k with ctl := v &&& 0x7FFFF, status := 1, commits := k.commits ++ [(.keyPage, w)] } := by
  have go : ¬ ((!bit v 19) = true ∨ k.status = 1) := by
    rintro (h | h)
    · rw [bit, hgo] at h
      cases h
    · exact hs h
  unfold Keys.command
  dsimp only
  rw [if_neg go, ha]
  simp only [fld_ctl (v := v) (show 17 + 2 ≤ 19 by decide), fld_ctl (v := v) (show 14 + 2 ≤ 19 by decide)]

theorem Keys.command_waits (h : ¬ (fld v 17 2 = 1 ∧ 2 ≤ fld v 14 2)) : k.command v =
    { k with ctl := v &&& 0x7FFFF, status := 1, commits := k.commits ++ [(.keyPage, w)] } := by
  rw [Keys.command_go hgo hs ha, if_neg h]

theorem Keys.command_reserved (h : fld v 17 2 = 1 ∧ 2 ≤ fld v 14 2) : k.command v =
    { k with ctl := v &&& 0x7FFFF, status := 3, load := Vector.replicate 8 0 } := by
  rw [Keys.command_go hgo hs ha, if_pos h]
  rfl

end

/-- The three rows are a write of KEY_CTL. -/
theorem exec_keyCtl {i : Initiator} {v : Word} {c : Instr} (h : c ∈ [Instr.keyLoadplain i v, .keyErase i v, .keyEraseall i v])
    (s : State) : exec c s = .next (rowWrite i (chipPage 6 + 0x1020) v s) := by
  simp only [List.mem_cons, List.not_mem_nil, or_false] at h
  rcases h with rfl | rfl | rfl <;> rfl

theorem Dev.secWrite_keyCtl (d : Dev) (ram : Memory) (v : Word) :
    d.secWrite ram 0x1020 v = { d with keys := d.keys.command v } := rfl

/-- A core in machine mode that may write KEY_CTL does what the command says (R221). -/
theorem rowWrite_keyCtl {i : Initiator} {v : Word} {s : State} {k : Dev → Keys} (hi : s.d.mayWrite i (chipPage 6 + 0x1020))
    (hm : s.d.machineCore i = true) (h : s.d.keys.command v = k s.begun.d) :
    (Host.Outcome.next (rowWrite i (chipPage 6 + 0x1020) v s) : Host.Outcome State Fault Refusal) =
      .next (onDevW (fun d => ({ d with keys := k d } : Dev).answer i .done) s) :=
  rowWrite_security (g := fun d => { d with keys := k d }) rfl (by decide) hi (fun _ => hm)
    ((Dev.secWrite_keyCtl _ _ _).trans (congrArg (fun k : Keys => ({ s.begun.d with keys := k } : Dev)) h))

/-! ### The end of a commit -/

section
variable {d : Dev} {w : KeyWrite} {l : List (Committer × KeyWrite)}

theorem Dev.commitDone_plain (h : d.keys.commits = (.keyPage, w) :: l) : d.commitDone true =
    { d with keys := { d.keys.apply w with commits := l, status := 2, load := Vector.replicate 8 0 } } := by
  simp only [Dev.commitDone, h]
  rfl

theorem Dev.commitDone_plainFails (h : d.keys.commits = (.keyPage, w) :: l) : d.commitDone false =
    { d with keys := { d.keys with commits := l, status := 4, load := Vector.replicate 8 0 } } := by
  simp only [Dev.commitDone, h]
  rfl

theorem Dev.commitDone_cipher {r : RegionId} {n : Fin 2} (h : d.keys.commits = (.cipher r n, w) :: l) :
    d.commitDone true = ({ d with keys := { d.keys.apply w with commits := l } } : Dev).cipherEnd r n 2 := by
  simp only [Dev.commitDone, h]
  rfl

end

theorem exec_keyCommitDone_eq (ok : Bool) (s : State) :
    exec (.keyCommitDone ok) s = .next (onDev (fun d => d.commitDone ok) s) := rfl

/-- Settles O28: GO by what KEY_CTL spells, and the commit by who waits for it. -/
theorem keyStoreWritesCommit : Obligations.KeyStoreWritesCommit := by
  intro s
  refine ⟨fun i v c hi hm hs hgo hc => ?go, fun w l => ⟨fun h => ⟨?done, ?fails⟩, fun r n h => ?cipher⟩⟩
  case go =>
    rw [exec_keyCtl hc]
    refine ⟨fun h hr => ?load, fun h hr => ?reserved, fun h => ?erase, fun h => ?eraseAll⟩
    case load =>
      exact rowWrite_keyCtl hi hm (Keys.command_waits hgo hs (Keys.asked_load _ h) (by omega))
    case reserved =>
      exact rowWrite_keyCtl hi hm (Keys.command_reserved hgo hs (Keys.asked_load _ h) ⟨h, hr⟩)
    case erase => exact rowWrite_keyCtl hi hm (Keys.command_waits hgo hs (Keys.asked_erase _ h) (by omega))
    case eraseAll => exact rowWrite_keyCtl hi hm (Keys.command_waits hgo hs (Keys.asked_eraseAll _ h) (by omega))
  case done =>
    rw [exec_keyCommitDone_eq]
    exact onDev_next (Dev.commitDone_plain h)
  case fails =>
    rw [exec_keyCommitDone_eq]
    exact onDev_next (Dev.commitDone_plainFails h)
  case cipher =>
    rw [exec_keyCommitDone_eq]
    exact onDev_next (Dev.commitDone_cipher h)

end Sys2Proof.Machine
end

section
/-! One-time-programmable fields (R222, R223): what a write of OTP_CTL starts, and how an operation ends. -/

namespace Sys2Proof.Machine

/-- OTP_CTL with the operation and the field that a write names. -/
def Otp.named (o : Otp) (v : Word) : Otp := { o with op := fld v 0 2, sel := fld v 2 1 }

/-- The operation that a write starts. -/
def Otp.started (o : Otp) (v : Word) : Otp :=
  { o.named v with status := 1, run := some (fld v 0 2, Fin.ofNat 2 (fld v 2 1)), taken := none }

/-! ### The bytes of a PROGKEY (R223) -/

section
variable {d : Dev} {ram : Memory} {sel : Fin 2}

theorem Dev.otpTake_other {op : Nat} (hr : d.otp.run = some (op, sel)) (h : op ≠ 1) : d.otpTake ram = d := by
  unfold Dev.otpTake
  split
  next e _ =>
    rw [hr] at e
    exact absurd (congrArg Prod.fst (Option.some.inj e)) h
  next => rfl

theorem Dev.otpTake_taken {k : List Byte} (hr : d.otp.run = some (1, sel)) (ht : d.otp.taken = some k) : d.otpTake ram = d := by
  simp only [Dev.otpTake, hr, ht]

theorem Dev.otpTake_reads {e : Dev} {k : List Byte} (hr : d.otp.run = some (1, sel)) (ht : d.otp.taken = none)
    (h : d.strRead ram d.otp.src.toNat 56 = (e, .data k)) :
    d.otpTake ram = { e with otp := { e.otp with taken := some k } } := by
  simp only [Dev.otpTake, hr, ht, h]

end

/-! ### A write of OTP_CTL -/

section
variable {d : Dev} {ram : Memory} {v : Word}

theorem Dev.otpCommand_running (h : d.otp.run.isSome = true) : d.otpCommand ram v = { d with otp := d.otp.named v } := by
  unfold Dev.otpCommand
  exact if_pos (.inr (.inl h))

variable (hgo : v.getLsbD 3 = true) (hop : fld v 0 2 ≠ 0) (hr : d.otp.run = none)
include hgo hop hr

/-- GO with none running comes to the refusals of R223. -/
theorem Dev.otpCommand_go : d.otpCommand ram v =
    if d.otp.denied (fld v 0 2) (Fin.ofNat 2 (fld v 2 1)) then { d with otp := { d.otp.named v with status := 3 } }
    else Dev.otpTake { d with otp := d.otp.started v } ram := by
  have go : ¬ ((!bit v 3) = true ∨ d.otp.run.isSome = true ∨ fld v 0 2 = 0) := by
    simp [bit, hgo, hop, hr]
  exact if_neg go

theorem Dev.otpCommand_denied (h : d.otp.denied (fld v 0 2) (Fin.ofNat 2 (fld v 2 1)) = true) :
    d.otpCommand ram v = { d with otp := { d.otp.named v with status := 3 } } := by
  rw [Dev.otpCommand_go hgo hop hr, if_pos h]

variable (h : d.otp.denied (fld v 0 2) (Fin.ofNat 2 (fld v 2 1)) = false)
include h

theorem Dev.otpCommand_runs (h1 : fld v 0 2 ≠ 1) : d.otpCommand ram v = { d with otp := d.otp.started v } := by
  rw [Dev.otpCommand_go hgo hop hr, h]
  exact Dev.otpTake_other rfl h1

theorem Dev.otpCommand_progkey (h1 : fld v 0 2 = 1) {e : Dev} {k : List Byte}
    (hk : ({ d with otp := d.otp.started v } : Dev).strRead ram d.otp.src.toNat 56 = (e, .data k)) :
    d.otpCommand ram v = { e with otp := { e.otp with taken := some k } } := by
  rw [Dev.otpCommand_go hgo hop hr, h]
  exact Dev.otpTake_reads (sel := Fin.ofNat 2 (fld v 2 1)) (congrArg (fun n => some (n, _)) h1) rfl hk

end

/-! ### The end of an operation -/

section
variable {d : Dev} {ram : Memory} {sel : Fin 2}

/-- The operation is no longer under way. -/
def Otp.ended (o : Otp) (status : Nat) : Otp := { o with run := none, taken := none, status }

section
variable {k : List Byte} (hr : d.otp.run = some (1, sel)) (ht : d.otp.taken = some k)
include hr ht

theorem Dev.otpEnd_progkey : d.otpEnd ram true =
    ({ d with otp := { d.otp.ended 2 with cust := d.otp.cust.set sel (some (k, true)), provisioned := true } } : Dev).secCause
      3 := by
  simp only [Dev.otpEnd, Dev.otpTake_taken hr ht, hr, ht, Bool.or_true]
  rfl

theorem Dev.otpEnd_progkeyFails : d.otpEnd ram false =
    { d with otp := { d.otp.ended 4 with cust := d.otp.cust.set sel (some (k, false)) } } := by
  simp only [Dev.otpEnd, Dev.otpTake_taken hr ht, hr, ht, Bool.or_false]
  rfl

end

theorem Dev.otpEnd_revoke (hr : d.otp.run = some (2, sel)) : d.otpEnd ram true =
    ({ d with otp := { d.otp.ended 2 with rev := d.otp.rev.set sel true } } : Dev).secCause 3 := by
  simp only [Dev.otpEnd, Dev.otpTake_other hr (by decide), hr]
  rfl

theorem Dev.otpEnd_clear (hr : d.otp.run = some (3, sel)) : d.otpEnd ram true =
    ({ d with otp := { d.otp.ended 2 with rootok := false } } : Dev).secCause 3 := by
  simp only [Dev.otpEnd, Dev.otpTake_other hr (by decide), hr]
  rfl

/-- A revocation or a clear that fails leaves the fields. -/
theorem Dev.otpEnd_fails {op : Nat} (hop : op = 2 ∨ op = 3) (hr : d.otp.run = some (op, sel)) :
    d.otpEnd ram false = { d with otp := d.otp.ended 4 } := by
  rcases hop with rfl | rfl
  all_goals
    simp only [Dev.otpEnd, Dev.otpTake_other hr (by decide), hr]
    rfl

end

/-! ### The rows -/

/-- The three rows are a write of OTP_CTL. -/
theorem exec_otpCtl {i : Initiator} {v : Word} {c : Instr} (h : c ∈ [Instr.otpProgkey i v, .otpRevoke i v, .otpClearrootok i v])
    (s : State) : exec c s = .next (rowWrite i (chipPage 6 + 0x2004) v s) := by
  simp only [List.mem_cons, List.not_mem_nil, or_false] at h
  rcases h with rfl | rfl | rfl <;> rfl

theorem Dev.secWrite_otpCtl (d : Dev) (ram : Memory) (v : Word) : d.secWrite ram 0x2004 v = d.otpCommand ram v := rfl

/-- A core in machine mode that may write OTP_CTL does what the command says (R223). -/
theorem rowWrite_otpCtl {i : Initiator} {v : Word} {s : State} {g : Dev → Dev} (hi : s.d.mayWrite i (chipPage 6 + 0x2004))
    (hm : s.d.machineCore i = true) (h : s.begun.d.otpCommand s.ram v = g s.begun.d) :
    (Host.Outcome.next (rowWrite i (chipPage 6 + 0x2004) v s) : Host.Outcome State Fault Refusal) =
      .next (onDevW (fun d => (g d).answer i .done) s) :=
  rowWrite_security rfl (by decide) hi (fun _ => hm) ((Dev.secWrite_otpCtl _ _ _).trans h)

theorem exec_otpOperationEnd_eq (ok : Bool) (s : State) :
    exec (.otpOperationEnd ok) s = .next (onDevW (fun d => d.otpEnd s.ram ok) s) := rfl

/-- Settles O30: a write of OTP_CTL by the check that it comes to, and each operation's two ends. -/
theorem otpOperationsAreOneWay : Obligations.OtpOperationsAreOneWay := by
  intro s
  refine ⟨fun i v c hi hm hgo hop hc => ?write, fun sel => ?ends⟩
  case write =>
    have row := exec_otpCtl hc s
    refine ⟨fun h => row.trans ?running, fun hr => ⟨fun h => row.trans ?denied, fun h => ⟨fun h1 => row.trans ?runs,
      fun h1 d k hk => row.trans ?progkey⟩⟩⟩
    case running => exact rowWrite_otpCtl hi hm (Dev.otpCommand_running h)
    case denied => exact rowWrite_otpCtl hi hm (Dev.otpCommand_denied hgo hop hr h)
    case runs => exact rowWrite_otpCtl hi hm (Dev.otpCommand_runs hgo hop hr h h1)
    case progkey =>
      refine rowWrite_otpCtl (g := fun _ => { d with otp := { d.otp with taken := some k } }) hi hm
        (Dev.otpCommand_progkey (d := s.begun.d) (e := d) (k := k) hgo hop hr h h1 ?_)
      rw [Otp.started, Otp.named, h1]
      exact hk
  case ends =>
    have ends {ok : Bool} {g : Dev → Dev} (h : s.begun.d.otpEnd s.ram ok = g s.begun.d) :
        exec (.otpOperationEnd ok) s = .next (onDevW g s) := (exec_otpOperationEnd_eq ok s).trans (onDevW_next h)
    exact ⟨fun k hr ht => ⟨ends (Dev.otpEnd_progkey hr ht), ends (Dev.otpEnd_progkeyFails hr ht)⟩,
      fun hr => ⟨ends (Dev.otpEnd_revoke hr), ends (Dev.otpEnd_fails (.inl rfl) hr)⟩,
      fun hr => ⟨ends (Dev.otpEnd_clear hr), ends (Dev.otpEnd_fails (.inr rfl) hr)⟩⟩

end Sys2Proof.Machine
end

section
/-! Cipher requests (R211, R214 to R216): GO of a channel, and the grant of a pair of pipes to firmware. -/

namespace Sys2Proof.Machine

/-! ### Changes of a channel -/

theorem Dev.modChan_modChan (d : Dev) (r : RegionId) (n : Fin 2) (f g : CiphChan → CiphChan) :
    (d.modChan r n f).modChan r n g = d.modChan r n fun c => g (f c) := by
  simp only [Dev.modChan, Dev.modCiph_eq, Dev.modRegion_modRegion, vset_self]
  simp [-Fin.getElem_fin]

theorem Dev.modChan_congr {d : Dev} {r : RegionId} {n : Fin 2} {f g : CiphChan → CiphChan}
    (h : f (d.regions[r]).cipher.chans[n] = g (d.regions[r]).cipher.chans[n]) : d.modChan r n f = d.modChan r n g := by
  rw [Dev.modChan, Dev.modCiph_eq, Dev.modChan, Dev.modCiph_eq]
  exact Dev.modRegion_congr (by rw [h])

/-! ### GO (R216) -/

/-- A write of CIPH_CMD with GO: OP takes its value, and the channel asks. -/
theorem Dev.ciphWrite_go {v : Word} (hgo : v.getLsbD 3 = true) (d : Dev) (r : RegionId) (n : Fin 2) :
    d.ciphWrite r (0x40 * n.val + 0x20) v =
      (d.modChan r n fun c => { c with regs := { c.regs with op := fld v 0 3 } }).ciphGo r n := by
  match n with
  | 0 | 1 =>
    unfold Dev.ciphWrite
    exact if_pos hgo

/-- A channel that has no operation pending waits with a copy of its registers. -/
theorem Dev.ciphGo_waits {d : Dev} {r : RegionId} {n : Fin 2} {op : Nat} (hop : op ≠ 0)
    (hs : ((d.regions[r]).cipher.chans[n]).status ≠ 1) :
    (d.modChan r n fun c => { c with regs := { c.regs with op } }).ciphGo r n = d.modChan r n fun x =>
      { x with regs := { x.regs with op }, status := 1, ended := false, stage := .waiting { x.regs with op } } := by
  rw [Dev.ciphGo, Dev.modChan_modChan]
  exact Dev.modChan_congr (if_neg (not_or.mpr ⟨hs, hop⟩))

/-- The offsets of the cipher channels on their page. -/
theorem regionWrite_cipher (i : Initiator) (r : RegionId) {o : Nat} (v : Word) (s : State) (h : o < 0x200) :
    regionWrite i r 2 o v s = ({ s with d := s.d.ciphWrite r o v }, .done) := by
  have page : regionWrite i r 2 o v s =
      ({ s with d := if o < 0x200 then s.d.ciphWrite r o v else s.d.linkWrite r o v }, .done) := rfl
  rw [page, if_pos h]

/-- Every operation's row is a write of its channel's CIPH_CMD. -/
theorem exec_ciphCmd {i : Initiator} {r : RegionId} {n : Fin 2} {v : Word} {c : Instr}
    (h : c ∈ [Instr.ciphCcmEnc i r n v, .ciphCcmDec i r n v, .ciphCmacGen i r n v, .ciphCmacVer i r n v, .ciphDerive i r n v,
      .ciphKeyload i r n v, .ciphKeysave i r n v]) (s : State) :
    exec c s = .next (rowWrite i (regionPage r 2 + 0x40 * n.val + 0x20) v s) := by
  simp only [List.mem_cons, List.not_mem_nil, or_false] at h
  rcases h with rfl | rfl | rfl | rfl | rfl | rfl | rfl <;> rfl

/-! ### The grant (R211, R214, R215) -/

/-- With no link work waiting, firmware is granted what it asks. -/
theorem Dev.cipherGrant_firmware {d : Dev} {r : RegionId} (hr : (d.regions[r]).retired = false)
    (hw : (d.regions[r]).link.work = []) : d.cipherGrant r = d.grantFirmware r := by
  simp only [Dev.cipherGrant, hr, hw, true_or, Bool.false_eq_true, if_true, if_false]

/-- The channel whose turn it is runs on the next pair of the rotation, with its key or the reason why it has none. -/
theorem Dev.grantFirmware_runs {d : Dev} {r : RegionId} {n : Fin 2} {g : CiphRegs} {p : Fin 6}
    (hw : (d.regions[r]).cipher.waiter = some (n, g)) (hp : (d.regions[r]).cipher.nextPair = some p) :
    d.grantFirmware r = d.modCiph r fun c =>
      { c with rot := Fin.ofNat 6 (p.val + 1), turn := 1 - n, share := 0, chans := c.chans.set n { c.chans[n] with
          stage := .running { regs := g, key := match g.keyAt d.keys with | .ok k => some k | .error _ => none
                              bad := match g.keyAt d.keys with | .ok _ => none | .error e => some e
                              saved := if g.op = 7 then d.keys.slotOf (fld g.key 16 13) else none
                              pair := pairAt p, since := d.now } } } := by
  simp only [Dev.grantFirmware, hw, hp]
  rfl

theorem exec_cipherGrant_eq (r : RegionId) (s : State) :
    exec (.cipherGrant r) s = .next (onDev (fun d => d.cipherGrant r) s) := rfl

/-- Settles O25: GO is one access that makes the channel wait; the grant reads the key as it is then. -/
theorem cipherRequestsAreGranted : Obligations.CipherRequestsAreGranted := by
  intro s r
  refine ⟨fun i n v c hp hi hgo hop hs hc => ?go, fun n g p hr hl hw hn => ?grant⟩
  case go =>
    rw [exec_ciphCmd hc]
    have offset : 0x40 * n.val + 0x20 < 0x200 := by omega
    refine rowWrite_regionReg (k := 2) (Nat.add_assoc ..) (by omega) hp hi ?_
    rw [regionWrite_cipher _ _ _ _ offset, Dev.ciphWrite_go hgo, Dev.ciphGo_waits (d := s.begun.d) hop hs]
  case grant =>
    have granted := (Dev.cipherGrant_firmware hr hl).trans (Dev.grantFirmware_runs hw hn)
    refine ⟨fun key hk => ?_, fun e he => ?_⟩
    all_goals
      rw [exec_cipherGrant_eq]
      refine onDev_next (granted.trans ?_)
    · rw [hk]
    · rw [he]

end Sys2Proof.Machine
end

section
/-! The SHA-256 engine (R225) and the reads that its users make: who is served, what a check of stored words can change. -/

namespace Sys2Proof.Machine

/-! ### What a read of a string leaves (R329, R338) -/

/-- What a check of stored words alone can change: bit errors, the flash's flags, the fault units. -/
structure ChecksOnly (d e : Dev) : Prop where
  rest : e = { d with errs := e.errs, regions := e.regions, flash := e.flash, flt := e.flt }

namespace ChecksOnly

theorem refl (d : Dev) : ChecksOnly d d := ⟨rfl⟩

theorem trans {a b c : Dev} (h : ChecksOnly a b) (g : ChecksOnly b c) : ChecksOnly a c := ⟨by rw [g.rest, h.rest]⟩

theorem eng {d e : Dev} (h : ChecksOnly d e) : e.eng = d.eng := by rw [h.rest]

theorem regTflag (d : Dev) (r : RegionId) (i : Nat) : ChecksOnly d (d.regTflag r i) := ⟨rfl⟩

theorem chipTflag (d : Dev) (i : Nat) : ChecksOnly d (d.chipTflag i) := ⟨rfl⟩

theorem logFault (d : Dev) (k : Nat) (c : Charged) (cause n : Nat) : ChecksOnly d (d.logFault k c cause n) := ⟨rfl⟩

theorem transientFlag (d : Dev) {c : Charged} (cause : Nat) (h : ∀ u, c ≠ .unit u) : ChecksOnly d (d.transientFlag c cause) := by
  unfold Dev.transientFlag
  cases c with
  | unit u => exact absurd rfl (h u)
  | flash => exact chipTflag _ _
  | chipSram | regionSram r | ctxMem =>
    dsimp only
    split
    case h_2 | h_3 | h_4 | h_5 | h_6 | h_7 | h_8 | h_9 => exact regTflag _ _ _
    case h_1 | h_10 | h_11 | h_12 | h_13 => exact chipTflag _ _
    case h_14 => exact refl _

theorem track (d : Dev) (c : Charged) : ChecksOnly d (d.track c).1 := by
  unfold Dev.track
  dsimp only
  split
  all_goals
    dsimp only
    split <;> exact ⟨rfl⟩

/-- A failure of a memory is charged: it never becomes permanent by counting (R421). -/
theorem charge (d : Dev) {c : Charged} (cause : Nat) (h : ∀ u, c ≠ .unit u) : ChecksOnly d (d.charge c cause) := by
  have flagged := transientFlag d cause h
  unfold Dev.charge
  dsimp only
  generalize d.transientFlag c cause = e at flagged ⊢
  have counted : ChecksOnly e (match c.unitOf with
      | some r => ({ e with flt := { e.flt with cntTrans := e.flt.cntTrans + 1 } } : Dev).modRegFlt r fun f =>
          { f with cntTrans := f.cntTrans + 1 }
      | none => { e with flt := { e.flt with cntTrans := e.flt.cntTrans + 1 } }) := by
    split <;> exact ⟨rfl⟩
  have all := fun n => ((flagged.trans counted).trans (track _ c)).trans (logFault _ 1 c cause n)
  cases c with
  | unit u => exact absurd rfl (h u)
  | _ => exact all _

theorem sramUnit_memory (a : Nat) (u : FaultTarget) : sramUnit a ≠ .unit u := by
  unfold sramUnit
  split
  · exact nofun
  · split <;> exact nofun

theorem mend (d : Dev) (lo hi : Nat) : ChecksOnly d (d.mend lo hi) := ⟨rfl⟩

theorem check (d : Dev) (a : Nat) : ChecksOnly d (d.check a).1 := by
  unfold Dev.check
  split
  · exact refl d
  · exact (mend d _ _).trans (charge _ _ (sramUnit_memory a))
  · exact charge _ _ (sramUnit_memory a)

theorem checkAll (a n : Nat) (l : List (Nat × Bool)) (d : Dev) : ChecksOnly d (Dev.checkAll a n l d).1 := by
  induction l generalizing d with
  | nil => exact refl d
  | cons e l ih =>
    unfold Dev.checkAll
    split
    · exact ih d
    · exact (check d e.1).trans (ih _)

theorem flashErr (d : Dev) (a : Nat) (double : Bool) : ChecksOnly d (d.flashErr a double) := by
  have memory : ∀ u, Charged.flash ≠ .unit u := fun _ => nofun
  have flash (f : Flash) : ChecksOnly d { d with flash := f } := ⟨rfl⟩
  unfold Dev.flashErr
  dsimp only
  split
  · exact (flash _).trans (charge _ _ memory)
  · exact (flash _).trans (charge _ _ memory)

theorem flashAll (a n : Nat) (l : List (Nat × Bool)) (d : Dev) : ChecksOnly d (Dev.flashAll a n l d).1 := by
  induction l generalizing d with
  | nil => exact refl d
  | cons e l ih =>
    unfold Dev.flashAll
    split
    · exact ih d
    · exact (flashErr d _ _).trans (ih _)

/-- A read of a string changes nothing else, whatever it gives. -/
theorem strRead (d : Dev) (ram : Memory) (a n : Nat) : ChecksOnly d (d.strRead ram a n).1 := by
  have touched : ChecksOnly d { d with flash := d.flash.touch a n } := ⟨rfl⟩
  unfold Dev.strRead
  dsimp only
  split
  · exact checkAll a n _ d
  · split
    · split
      · exact refl d
      · exact touched.trans (flashAll a n _ _)
    · split
      · split
        · exact refl d
        · exact touched.trans (flashAll a n _ _)
      · exact refl d

/-- The same where the read's result is known. -/
theorem of_strRead {d e : Dev} {ram : Memory} {a n : Nat} {x : StrRd} (h : d.strRead ram a n = (e, x)) : ChecksOnly d e := by
  have read := strRead d ram a n
  rw [h] at read
  exact read

/-- The reads of a hash operation's operands. -/
theorem hashRun (d : Dev) (ram : Memory) (j : HashJob) : ChecksOnly d (d.hashRun ram j).1 := by
  unfold Dev.hashRun
  split
  · exact refl d
  · split
    case h_1 e => exact of_strRead e
    case h_3 e => exact of_strRead e
    case h_2 e =>
      split
      · exact of_strRead e
      · split
        case h_1 g => exact (of_strRead e).trans (of_strRead g)
        case h_3 g => exact (of_strRead e).trans (of_strRead g)
        case h_2 g =>
          have both := (of_strRead e).trans (of_strRead g)
          split
          · split <;> rename_i k <;> exact both.trans (of_strRead k)
          · exact both

end ChecksOnly

/-! ### The engine (R225) -/

section
variable {d : Dev} {ram : Memory}

theorem Dev.engUser_same {u : EngUser} (h : d.eng.user = some u) : { d with eng := { d.eng with user := some u } } = d := by
  rw [← h]

/-- A user that is no token keeps the engine until its operation has ended. -/
theorem Dev.engGo_busy {u : EngUser} (h : d.eng.user = some u) (hu : u ≠ .token) : d.engGo ram = d.engWork ram u := by
  have step : d.engGo ram = Dev.engServe ram (2 * d.eng.tokens.length + 3 + 1) d := rfl
  rw [step]
  cases u with
  | token => exact absurd rfl hu
  | hash | att => simp only [Dev.engServe, h]

/-- A signature is under way: the engine goes on with it. -/
theorem Dev.engGo_att (h : d.eng.user = some .att) : d.engGo ram = d :=
  (Dev.engGo_busy h nofun).trans (Dev.engUser_same h)

/-- A hash operation that has its result keeps it. -/
theorem Dev.engWork_hashed {x : Nat × List Byte} (h : d.eng.user = some .hash) (hx : d.hash.result = some x) :
    d.engWork ram .hash = d := by
  unfold Dev.engWork
  rw [Dev.engUser_same h]
  dsimp only
  split
  next e => rw [hx] at e; cases e
  next => rfl

theorem Dev.engGo_hashed {x : Nat × List Byte} (h : d.eng.user = some .hash) (hx : d.hash.result = some x) :
    d.engGo ram = d :=
  (Dev.engGo_busy h nofun).trans (Dev.engWork_hashed h hx)

/-- A free engine with no work does nothing. -/
theorem Dev.engServe_idle {n : Nat} (h : d.eng.user = none) (hw : ∀ u, d.engWaits u = false) : Dev.engServe ram n d = d := by
  cases n with
  | zero => rfl
  | succ n =>
    have none : d.eng.last.after.find? (fun u => d.engWaits u) = none := List.find?_eq_none.mpr fun u _ => by simp [hw u]
    simp only [Dev.engServe, h, none]

/-- A free engine takes the one user that waits, whomever it served last. -/
theorem Dev.engServe_only {n : Nat} {u : EngUser} (h : d.eng.user = none) (hu : d.engWaits u = true)
    (others : ∀ v, v ≠ u → d.engWaits v = false) : Dev.engServe ram (n + 1) d = (d.engWork ram u).engServe ram n := by
  have found : d.eng.last.after.find? (fun u => d.engWaits u) = some u := by
    cases d.eng.last <;> cases u <;> simp [EngUser.after, hu, others]
  simp only [Dev.engServe, h, found]

end

end Sys2Proof.Machine
end

section
/-! The hash engine's operations (R222, R224, R225): GO, the operands' reads, the end. -/

namespace Sys2Proof.Machine

/-- What GO of HASH_CMD asks of the engine. -/
def Dev.hashJob (d : Dev) (v : Word) : HashJob :=
  { op := fld v 0 2, keysel := fld v 8 2, src := d.hash.src, len := d.hash.len.toNat, sig := d.hash.sig, pub := d.hash.pub }

/-- The block with that operation pending. -/
def Dev.hashAsked (d : Dev) (v : Word) : Dev :=
  { d with hash := { d.hash with op := fld v 0 2, keysel := fld v 8 2, status := 1, ended := false, job := some (d.hashJob v)
                                 result := none } }

/-! ### GO -/

section
variable {d : Dev} {ram : Memory} {v : Word}

theorem Dev.hashCmd_go (hgo : v.getLsbD 2 = true) (hs : d.hash.status ≠ 1) (hop : fld v 0 2 = 1 ∨ fld v 0 2 = 2) :
    d.hashCmd ram v = (d.hashAsked v).engGo ram :=
  if_pos ⟨hgo, hs, hop⟩

/-- An operation that the engine begins reads its operands. -/
theorem Dev.engWork_hash {j : HashJob} {e : Dev} {x : Option (Nat × List Byte)} (hj : d.hash.job = some j)
    (hr : d.hash.result = none) (h : ({ d with eng := { d.eng with user := some .hash } } : Dev).hashRun ram j = (e, x)) :
    d.engWork ram .hash = { e with hash := { e.hash with result := x } } := by
  simp only [Dev.engWork, hj, hr, h]

/-- At a free engine with no other work the operation runs at once. -/
theorem Dev.engGo_hash {j : HashJob} {e : Dev} {x : Nat × List Byte} (hu : d.eng.user = none) (ha : d.att.run = none)
    (ht : d.eng.tokens = []) (hj : d.hash.job = some j) (hr : d.hash.result = none)
    (h : ({ d with eng := { d.eng with user := some .hash } } : Dev).hashRun ram j = (e, some x)) :
    d.engGo ram = { e with hash := { e.hash with result := some x } } := by
  have user : e.eng.user = some .hash := by
    have ran := ChecksOnly.hashRun { d with eng := { d.eng with user := some .hash } } ram j
    rw [h] at ran
    rw [ran.eng]
  have step : d.engGo ram = Dev.engServe ram (2 * d.eng.tokens.length + 3 + 1) d := rfl
  have only : ∀ u, u ≠ .hash → d.engWaits u = false := by
    intro u hne
    cases u with
    | hash => exact absurd rfl hne
    | att => simp [Dev.engWaits, ha]
    | token => simp [Dev.engWaits, ht]
  rw [step, Dev.engServe_only hu (by simp [Dev.engWaits, hj]) only, Dev.engWork_hash hj hr h]
  have goes : Dev.engServe ram (2 * d.eng.tokens.length + 2 + 1) { e with hash := { e.hash with result := some x } } =
      Dev.engWork { e with hash := { e.hash with result := some x } } ram .hash := by
    simp only [Dev.engServe, user]
  exact goes.trans (Dev.engWork_hashed user rfl)

end

/-- Both rows are a write of HASH_CMD. -/
theorem exec_hashCmd {i : Initiator} {v : Word} {c : Instr} (s : State)
    (h : (c = .hashSha256 i v ∧ fld v 0 2 = 1) ∨ (c = .hashLmsVerify i v ∧ fld v 0 2 = 2)) :
    exec c s = .next (rowWrite i (chipPage 6 + 0x8) v s) := by
  rcases h with ⟨rfl, -⟩ | ⟨rfl, -⟩ <;> rfl

theorem Dev.secWrite_hashCmd (d : Dev) (ram : Memory) (v : Word) : d.secWrite ram 0x8 v = d.hashCmd ram v := rfl

/-- GO leaves what the engine makes of the operation asked for. -/
theorem rowWrite_hashCmd {i : Initiator} {v : Word} {s : State} {g : Dev → Dev} (hi : s.d.mayWrite i (chipPage 6 + 0x8))
    (hs : s.d.hash.status ≠ 1) (hgo : v.getLsbD 2 = true) (hop : fld v 0 2 = 1 ∨ fld v 0 2 = 2)
    (h : (s.begun.d.hashAsked v).engGo s.ram = g s.begun.d) :
    (Host.Outcome.next (rowWrite i (chipPage 6 + 0x8) v s) : Host.Outcome State Fault Refusal) =
      .next (onDevW (fun d => (g d).answer i .done) s) :=
  rowWrite_security (g := g) rfl (by decide) hi nofun
    (((Dev.secWrite_hashCmd _ _ _).trans (Dev.hashCmd_go (d := s.begun.d) hgo hs hop)).trans h)

/-! ### The operands and the answer -/

section
variable {d e : Dev} {ram : Memory} {j : HashJob} {m : List Byte}

theorem Dev.hashRun_sha256 (hop : j.op = 1) (hm : d.strRead ram j.src.toNat j.len = (e, .data m)) :
    d.hashRun ram j = (e, some (2, sha256 m)) := by
  simp [Dev.hashRun, hop, hm]

theorem Dev.hashRun_revoked (hop : j.op = 2) (hk : j.keysel ≠ 3) (h : d.otp.usable j.keysel = none) :
    d.hashRun ram j = (d, some (5, [])) := by
  simp [Dev.hashRun, hop, hk, h]

theorem Dev.hashRun_badaddr (hop : j.op = 1)
    (hm : d.strRead ram j.src.toNat j.len = (e, .outside) ∨ d.strRead ram j.src.toNat j.len = (e, .error)) :
    d.hashRun ram j = (e, some (4, [])) := by
  rcases hm with hm | hm <;> simp [Dev.hashRun, hop, hm]

section
variable (hop : j.op = 2) (hm : d.strRead ram j.src.toNat j.len = (e, .data m)) {x : Dev}
include hop hm

theorem Dev.hashRun_verify {sg k : List Byte} (hk : j.keysel ≠ 3) (hs : e.strRead ram j.sig.toNat 2668 = (x, .data sg))
    (h : d.otp.usable j.keysel = some k) (ho : x.otp = d.otp) :
    d.hashRun ram j = (x, some (if lmsVerify k sg m then 2 else 3, [])) := by
  simp [Dev.hashRun, hop, hm, hs, hk, h, ho]

theorem Dev.hashRun_sigOutside (hs : e.strRead ram j.sig.toNat 2668 = (x, .outside))
    (h : (d.otp.usable j.keysel).isSome = true) : d.hashRun ram j = (x, some (4, [])) := by
  have key : (d.otp.usable j.keysel).isNone = false := by simpa [Option.isSome_iff_ne_none] using h
  simp [Dev.hashRun, hop, hm, hs, key]

theorem Dev.hashRun_verifyPub {sg k : List Byte} {y : Dev} (hk : j.keysel = 3)
    (hs : e.strRead ram j.sig.toNat 2668 = (x, .data sg)) (hp : x.strRead ram j.pub.toNat 56 = (y, .data k)) :
    d.hashRun ram j = (y, some (if lmsVerify k sg m then 2 else 3, [])) := by
  simp [Dev.hashRun, hop, hm, hs, hk, hp]

end

end

/-! ### The end -/

/-- The answer stands, and the engine goes on. -/
theorem Dev.hashDone_result {d : Dev} {ram : Memory} {st : Nat} {dg : List Byte} (hu : d.eng.user = some .hash)
    (hr : d.hash.result = some (st, dg)) :
    d.hashDone ram = (({ d with hash := { d.hash with
      status := st, job := none, result := none, ended := true
      digest := if dg = [] then d.hash.digest else Vector.ofFn fun i => (wordsOf 8 dg).getD i.val 0 } } : Dev).engFree
        .hash).engGo ram := by
  unfold Dev.hashDone
  rw [Dev.engGo_hashed hu hr]
  simp only [hu, hr]

theorem exec_hashDone_eq (s : State) : exec .hashDone s = .next (onDevW (fun d => d.hashDone s.ram) s) := rfl

/-- Settles O29: GO by who has the engine, the answer by the operands' reads, the end by the answer. -/
theorem hashOperationsAnswer : Obligations.HashOperationsAnswer := by
  refine ⟨fun s i v c hi hs hgo hc => ?go, fun d ram j => ⟨fun e m hm => ⟨?sha, fun hop hk => ⟨?verify, ?sigOutside⟩, ?pub⟩,
    Dev.hashRun_revoked, fun hop e => Dev.hashRun_badaddr hop⟩, fun s st dg hu hr => ?ends⟩
  case go =>
    have hop : fld v 0 2 = 1 ∨ fld v 0 2 = 2 := hc.imp And.right And.right
    rw [exec_hashCmd s hc]
    refine ⟨fun hu => ?waits, fun hu ha ht d o h => ?runs⟩
    case waits =>
      exact rowWrite_hashCmd (g := fun d => d.hashAsked v) hi hs hgo hop (Dev.engGo_att hu)
    case runs =>
      exact rowWrite_hashCmd (g := fun _ => { d with hash := { d.hash with result := some o } }) hi hs hgo hop
        (Dev.engGo_hash (d := s.begun.d.hashAsked v) hu ha ht rfl rfl h)
  case sha => exact fun hop => Dev.hashRun_sha256 hop hm
  case verify => exact fun x sg k hsg h ho => Dev.hashRun_verify hop hm hk hsg h ho
  case sigOutside => exact fun x hsg h => Dev.hashRun_sigOutside hop hm hsg h
  case pub => exact fun hop hk x sg y k hsg hp => Dev.hashRun_verifyPub hop hm hk hsg hp
  case ends =>
    rw [exec_hashDone_eq]
    exact onDevW_next (Dev.hashDone_result (d := s.begun.d) hu hr)

end Sys2Proof.Machine
end

section
/-! Attestation (R225 to R230): a request and its refusals, the index it takes, the signed report. -/

namespace Sys2Proof.Machine

/-! ### The request -/

section
variable {d : Dev} {ram : Memory}

/-- Whether a request's challenge and report lie in chip SRAM (R227). -/
def Att.addrOk (a : Att) : Bool := inChipSram a.src.toNat 32 && inChipSram a.dst.toNat (96 + 5236)

/-- A request comes before its spacing, or before the module is up (R228). -/
def Dev.attEarly (d : Dev) : Prop := d.pwr.phase ≠ .up ∨ d.rtc.count < d.att.last + 16 * 65536

/-! Its refusals: KEYLOST, SPENT, TOOSOON and BADADDR in that order (R227 to R229). -/

theorem Dev.attRefusal_lost {ok : Bool} (h : d.att.lost = true) : d.attRefusal ok = some 5 := by
  simp [Dev.attRefusal, h]

section
variable {ok : Bool} (hl : d.att.lost = false)
include hl

theorem Dev.attRefusal_spent (h : 33554432 ≤ d.att.c) : d.attRefusal ok = some 4 := by
  simp [Dev.attRefusal, attBudget, hl, h]

variable (hc : d.att.c < 33554432)
include hc

theorem Dev.attRefusal_early (h : d.attEarly) : d.attRefusal ok = some 3 := by
  unfold Dev.attRefusal attBudget attSpacing
  dsimp only
  rw [hl, if_neg Bool.false_ne_true, if_neg (Nat.not_le.mpr hc)]
  exact if_pos h

theorem Dev.attRefusal_late (h : ¬ d.attEarly) : d.attRefusal ok = if !ok then some 6 else none := by
  unfold Dev.attRefusal attBudget attSpacing
  dsimp only
  rw [hl, if_neg Bool.false_ne_true, if_neg (Nat.not_le.mpr hc)]
  exact if_neg h

end

/-- A refused request keeps its status; SPENT and LOST set the ATTLOST cause. -/
theorem Dev.attGo_refused {st : Nat} (hr : d.att.run = none) (h : d.attRefusal d.att.addrOk = some st) :
    d.attGo ram = d.attRefused st := by
  rw [Att.addrOk] at h
  simp only [Dev.attGo, hr, h]
  rfl

/-- One that is not refused takes the next index with the challenge that it reads. -/
theorem Dev.attGo_started {e : Dev} {ch : List Byte} (hr : d.att.run = none) (h : d.attRefusal d.att.addrOk = none)
    (hs : d.strRead ram d.att.src.toNat 32 = (e, .data ch)) :
    d.attGo ram = { e.attStart (.regs d.att.src d.att.dst) ch with
      att := { (e.attStart (.regs d.att.src d.att.dst) ch).att with status := 1 } } := by
  rw [Att.addrOk] at h
  simp only [Dev.attGo, hr, h, hs]
  rfl

/-- The index is consumed at once, and the last one sets the ATTLOST cause (R229). -/
theorem Dev.attStart_status {src : AttFrom} {ch : List Byte} {q now : Nat} (hq : d.att.c = q) (hn : d.rtc.count = now) :
    ({ d.attStart src ch with att := { (d.attStart src ch).att with status := 1 } } : Dev) =
      let e : Dev := { d with att := { d.att with c := q + 1, last := now, status := 1
                                                  run := some { from_ := src, challenge := ch, q } } }
      if 33554432 ≤ q + 1 then e.secCause 5 else e := by
  subst hq hn
  unfold Dev.attStart attBudget
  dsimp only
  split <;> rfl

end

theorem exec_attRequest_eq (i : Initiator) (v : Word) (s : State) :
    exec (.attRequest i v) s = .next (rowWrite i (chipPage 6 + 0x3000) v s) := rfl

theorem Dev.secWrite_attCtl {d : Dev} {ram : Memory} {v : Word} (h : v.getLsbD 0 = true) :
    d.secWrite ram 0x3000 v = (d.attGo ram).engGo ram := if_pos h

/-- GO answers with what the request comes to, and the engine goes on. -/
theorem exec_attRequest_next {i : Initiator} {v : Word} {s : State} {g : Dev → Dev} (hi : s.d.mayWrite i (chipPage 6 + 0x3000))
    (hv : v.getLsbD 0 = true) (h : s.begun.d.attGo s.ram = g s.begun.d) :
    exec (.attRequest i v) s = .next (onDevW (fun d => ((g d).engGo s.ram).answer i .done) s) := by
  rw [exec_attRequest_eq]
  exact rowWrite_security (g := fun d => (g d).engGo s.ram) rfl (by decide) hi nofun
    ((Dev.secWrite_attCtl hv).trans (congrArg (fun e : Dev => e.engGo s.ram) h))

/-- A request ends with a status, the ATTLOST cause set or not. -/
def Dev.attStopped (d : Dev) (st : Nat) (cause : Bool) : Dev :=
  let d := { d with att := { d.att with status := st } }
  if cause then d.secCause 5 else d

/-- SPENT and LOST set the cause (R229, R230). -/
theorem Dev.attRefused_eq (d : Dev) {st : Nat} {cause : Bool} (h : cause = true ↔ st = 4 ∨ st = 5) :
    d.attRefused st = d.attStopped st cause := by
  simp only [Dev.attRefused, Dev.attStopped, h]

theorem exec_attRequest_refused {i : Initiator} {v : Word} {s : State} {st : Nat} {cause : Bool}
    (hi : s.d.mayWrite i (chipPage 6 + 0x3000)) (hv : v.getLsbD 0 = true) (hr : s.d.att.run = none)
    (hc : cause = true ↔ st = 4 ∨ st = 5) (h : s.begun.d.attRefusal s.begun.d.att.addrOk = some st) :
    exec (.attRequest i v) s = .next (onDevW (fun d => ((d.attStopped st cause).engGo s.ram).answer i .done) s) :=
  exec_attRequest_next (g := fun d => d.attStopped st cause) hi hv
    ((Dev.attGo_refused (d := s.begun.d) hr h).trans (Dev.attRefused_eq _ hc))

/-! ### The signed report -/

/-- The engine's signature is complete: the user's turn ends and the engine goes on (R225). -/
theorem attEnd_regs {s : State} {u : AttRun} {src dst : Word} (he : s.d.eng.user = some .att) (hr : s.d.att.run = some u)
    (hf : u.from_ = .regs src dst) :
    attEnd s = { attSigned s with d := ((attSigned s).d.engFree .att).engGo (attSigned s).ram } := by
  have same : s.d.engGo s.ram = s.d := Dev.engGo_att he
  unfold attEnd
  dsimp only
  rw [same]
  simp only [he, hr, hf]

/-- Report and signature stand at the destination (R229). -/
theorem attSigned_regs {s : State} {u : AttRun} {src dst : Word} (hr : s.d.att.run = some u) (hf : u.from_ = .regs src dst) :
    attSigned s =
      let rep := s.d.report u.challenge u.q
      let x := ({ s with d := { s.d with att := { s.d.att with run := none } } } : State).sramWrite dst.toNat
        (rep ++ hssSign s.d.drv.attSeed u.q rep)
      { x.1 with d := { x.1.d with att := { x.1.d.att with status := if x.2 = .done then 2 else 6 } } } := by
  simp only [attSigned, hr, hf]

theorem exec_attSigned_eq (s : State) : exec .attSigned s = .next (finish (canNext (attEnd s.begun))) := rfl

/-- The two-level signature of R226: the number of levels less one, the upper tree's signature of the lower tree's key,
that key, and the lower tree's signature. -/
theorem hssSign_eq (seed msg : List Byte) (q : Nat) : hssSign seed q msg =
    [0#8, 0, 0, 1] ++ topTree.sign seed (q / 1024) ((lowTree (q / 1024)).pub seed) ++ (lowTree (q / 1024)).pub seed ++
      (lowTree (q / 1024)).sign seed (q % 1024) msg := by
  have levels : natBytesBE 4 1 = [0#8, 0, 0, 1] := by decide
  rw [hssSign, levels]

/-- Settles O31: a request by its refusal, the signature's end by the report, the signature by its form. -/
theorem attestationConsumesAnIndex : Obligations.AttestationConsumesAnIndex := by
  intro s
  refine ⟨fun i v hi hv hr => ?request, fun u src dst he hr hf => ?signed, fun seed msg q => hssSign_eq seed msg q⟩
  case request =>
    have refused {st : Nat} {cause : Bool} := exec_attRequest_refused (st := st) (cause := cause) hi hv hr
    refine ⟨fun hl => ?lost, fun hl hc => ?spent, fun hl hc early => ?early, fun hl hc early ha => ?badaddr,
      fun hl hc early ha d ch hs hd hrtc => ?started⟩
    case lost => exact refused (by decide) (Dev.attRefusal_lost hl)
    case spent => exact refused (by decide) (Dev.attRefusal_spent hl hc)
    case early => exact refused (by decide) (Dev.attRefusal_early hl hc early)
    case badaddr =>
      have outside : s.begun.d.att.addrOk = false := ha
      exact refused (by decide) ((Dev.attRefusal_late hl hc early).trans (by rw [outside]; rfl))
    case started =>
      have granted : s.begun.d.attRefusal s.begun.d.att.addrOk = none := by
        have inside : s.begun.d.att.addrOk = true := ha
        exact (Dev.attRefusal_late hl hc early).trans (by rw [inside]; rfl)
      have taken := (Dev.attGo_started (d := s.begun.d) (ram := s.ram) hr granted hs).trans
        (Dev.attStart_status (congrArg Att.c hd) (congrArg Rtc.count hrtc))
      exact exec_attRequest_next (g := fun _ => _) hi hv taken
  case signed =>
    rw [exec_attSigned_eq, attEnd_regs (s := s.begun) he hr hf, attSigned_regs (s := s.begun) hr hf]
    rfl

end Sys2Proof.Machine
end

section
/-! Debug (R225, R234 to R236): tokens at the engine, the JTAG instructions, the TESTEN ball. -/

namespace Sys2Proof.Machine

/-! ### Tokens -/

/-- The debug page once a token was checked (R235): its status, a fresh challenge, and the lock open once one was accepted. -/
def Dev.tokenChecked (d : Dev) (ok : Bool) : Dev :=
  let x := { d.dbg with status := if ok then 2 else 3, chal := d.freeCtr }
  let x := if ok then { x with unlocked := true } else x
  (({ d with dbg := x } : Dev).secCause (if ok then 1 else 2)).took

/-- The same with the engine free again (R225). -/
def Dev.tokenEnded (d : Dev) (ok : Bool) : Dev :=
  Dev.tokenChecked { d with eng := { d.eng with user := none, last := .token, tokens := [] } } ok

section
variable {d : Dev} {ram : Memory} {t : List Byte}

theorem Dev.submitToken_accepted (h : d.tokenOk t = true) :
    d.submitToken t = Dev.tokenChecked { d with dbg := { d.dbg with scope := d.dbg.scope ||| (byteAt t 2).toNat % 4 } } true := by
  unfold Dev.submitToken
  dsimp only
  rw [h]
  rfl

theorem Dev.submitToken_rejected (h : d.tokenOk t = false) : d.submitToken t = d.tokenChecked false := by
  unfold Dev.submitToken
  dsimp only
  rw [h]
  rfl

/-- A token that stands in the engine is checked at once. -/
theorem Dev.engWork_token {l : List Token} (h : d.eng.tokens = .bytes t :: l) : d.engWork ram .token =
    (({ d with eng := { d.eng with user := some .token, tokens := l } } : Dev).submitToken t).engFree .token := by
  unfold Dev.engWork
  dsimp only
  rw [h]
  rfl

/-- A check of a token leaves what waits for the engine. -/
theorem Dev.engWaits_submitToken (u : EngUser) : (d.submitToken t).engWaits u = d.engWaits u := by
  cases ok : d.tokenOk t with
  | true =>
    rw [Dev.submitToken_accepted ok]
    cases u <;> rfl
  | false =>
    rw [Dev.submitToken_rejected ok]
    cases u <;> rfl

/-- The block with nothing for its SHA-256 engine to do (R225). -/
structure Dev.EngIdle (d : Dev) : Prop where
  user : d.eng.user = none
  tokens : d.eng.tokens = []
  att : d.att.run = none
  hash : d.hash.job = none

theorem Dev.EngIdle.waits (h : d.EngIdle) (u : EngUser) : d.engWaits u = false := by
  cases u with
  | hash => simp [Dev.engWaits, h.hash]
  | att => simp [Dev.engWaits, h.att]
  | token => simp [Dev.engWaits, h.tokens]

/-- The block while its engine checks its only token. -/
def Dev.tokenTaken (d : Dev) : Dev :=
  { d with dbg := { d.dbg with status := 1 }, eng := { d.eng with user := some .token, tokens := [] } }

/-- The block with a token that waits for its engine. -/
def Dev.tokenAsked (d : Dev) (t : List Byte) : Dev :=
  { d with dbg := { d.dbg with status := 1 }, eng := { d.eng with tokens := [.bytes t] } }

/-- That token is the engine's only work. -/
theorem Dev.EngIdle.waits_others (h : d.EngIdle) {u : EngUser} (hu : u ≠ .token) : (d.tokenAsked t).engWaits u = false := by
  cases u with
  | token => exact absurd rfl hu
  | hash => exact h.waits .hash
  | att => exact h.waits .att

/-- Once the token was checked the engine has nothing to do. -/
theorem Dev.EngIdle.waits_checked (h : d.EngIdle) (u : EngUser) :
    ((d.tokenTaken.submitToken t).engFree .token).engWaits u = false := by
  have freed : ((d.tokenTaken.submitToken t).engFree .token).engWaits u = (d.tokenTaken.submitToken t).engWaits u := by
    cases u <;> rfl
  rw [freed, Dev.engWaits_submitToken]
  cases u with
  | token => rfl
  | hash => exact h.waits .hash
  | att => exact h.waits .att

/-- An idle engine checks a token in one go. -/
theorem Dev.tokenGo_idle (h : d.EngIdle) : d.tokenGo ram (.bytes t) = (d.tokenTaken.submitToken t).engFree .token := by
  have go : d.tokenGo ram (.bytes t) = Dev.engServe ram (5 + 1) (d.tokenAsked t) := by
    unfold Dev.tokenGo
    rw [h.tokens]
    rfl
  have served := Dev.engServe_only (d := d.tokenAsked t) (ram := ram) (n := 5) h.user rfl fun _ => h.waits_others
  rw [go, served, Dev.engWork_token (d := d.tokenAsked t) rfl]
  exact Dev.engServe_idle rfl h.waits_checked

/-- What the block is after the token: unlocked for its scope too where it was accepted (R235). -/
theorem Dev.tokenGo_accepted (h : d.EngIdle) (ok : d.tokenOk t = true) : d.tokenGo ram (.bytes t) =
    Dev.tokenEnded { d with dbg := { d.dbg with scope := d.dbg.scope ||| (byteAt t 2).toNat % 4 } } true := by
  have taken : d.tokenTaken.tokenOk t = true := ok
  rw [Dev.tokenGo_idle h, Dev.submitToken_accepted taken]
  rfl

theorem Dev.tokenGo_rejected (h : d.EngIdle) (ok : d.tokenOk t = false) :
    d.tokenGo ram (.bytes t) = d.tokenEnded false := by
  have taken : d.tokenTaken.tokenOk t = false := ok
  rw [Dev.tokenGo_idle h, Dev.submitToken_rejected taken]
  rfl

/-- While a signature is under way a token waits. -/
theorem Dev.tokenGo_att {k : Token} (h : d.eng.user = some .att) : d.tokenGo ram k =
    { d with dbg := { d.dbg with status := 1 }, eng := { d.eng with tokens := d.eng.tokens ++ [k] } } :=
  Dev.engGo_att h

end

/-- EXTEST is no longer in force (R234). -/
def Dev.scanOff (d : Dev) : Dev := { d with dbg := { d.dbg with extest := false } }

theorem exec_jtagToken_eq (t : List Byte) (s : State) :
    exec (.jtagToken t) s = .next (onDevW (fun d => d.scanOff.tokenGo s.ram (.bytes t)) s) := rfl

theorem exec_dbgTokenSubmit_eq (i : Initiator) (v : Word) (s : State) :
    exec (.dbgTokenSubmit i v) s = .next (rowWrite i (chipPage 6 + 0x4014) v s) := rfl

theorem Dev.secWrite_dbgCtl {d : Dev} {ram : Memory} {v : Word} (h : v.getLsbD 0 = true) :
    d.secWrite ram 0x4014 v = d.tokenGo ram (.at_ d.dbg.src) := if_pos h

/-! ### The debug module -/

section
variable {s : State} {c : CoreId}

/-- While the debug port is locked no instruction reaches a core. -/
theorem Dev.debugged_locked {d : Dev} (hl : d.dbg.locked = true) (hs : d.dbg.scope = 0) : d.debugged c = false := by
  simp [Dev.debugged, Dbg.opens, hl, hs]

theorem exec_halt_shut (h : s.d.debugged c = false) : exec (.jtagInstruction (.halt c)) s =
    .next (onDev (fun d => { d with dbg := { d.dbg with jtagOut := [0], extest := false } }) s) :=
  if_neg (by simp [h])

theorem exec_halt_open (h : s.d.debugged c = true) : exec (.jtagInstruction (.halt c)) s = .next (onDevW (fun d =>
    ({ d with dbg := { d.dbg with extest := false } } : Dev).modCore c fun x => { x with halted := true }) s) :=
  if_pos h

end

/-! ### TESTEN (R458) -/

section
variable {s : State} {high : Bool}

theorem exec_testenChange_eq : exec (.testenChange high) s = .next (onDev (fun d =>
    if d.dbg.testen && !high && d.pwr.now = .reset then
      ({ d with dbg := { d.dbg with testen := high } } : Dev).freshRtc.beginStart 1
    else { d with dbg := { d.dbg with testen := high } }) s) := rfl

theorem exec_testenChange_awake (h : s.d.pwr.now ≠ .reset) : exec (.testenChange high) s =
    .next (onDev (fun d => { d with dbg := { d.dbg with testen := high } }) s) := by
  rw [exec_testenChange_eq]
  exact onDev_next (if_neg (by simp [h]))

/-- Its fall in reset begins the start that it kept back. -/
theorem exec_testenChange_falls (h : s.d.pwr.now = .reset) (ht : s.d.dbg.testen = true) : exec (.testenChange false) s =
    .next (onDev (fun d => ({ d with dbg := { d.dbg with testen := false } } : Dev).freshRtc.beginStart 1) s) := by
  rw [exec_testenChange_eq]
  exact onDev_next (if_pos (by simp [h, ht]))

end

/-- Settles O32: a token by the engine's state and the check, each instruction by its row. -/
theorem debugOpensByToken : Obligations.DebugOpensByToken := by
  intro s
  refine ⟨fun t => ⟨fun idle ok => ?accepted, fun idle ok => ?rejected, fun busy => ?waits⟩, fun i v hi hv => ?submit,
    rfl, rfl, fun l => ⟨rfl, rfl⟩, fun c hl hs => exec_halt_shut (Dev.debugged_locked hl hs), fun c h => exec_halt_open h,
    fun high h => exec_testenChange_awake h, fun h ht => exec_testenChange_falls h ht⟩
  case accepted =>
    obtain ⟨user, tokens, att, hash⟩ := idle
    rw [exec_jtagToken_eq]
    exact onDevW_next (Dev.tokenGo_accepted (d := s.begun.d.scanOff) ⟨user, tokens, att, hash⟩ ok)
  case rejected =>
    obtain ⟨user, tokens, att, hash⟩ := idle
    rw [exec_jtagToken_eq]
    exact onDevW_next (Dev.tokenGo_rejected (d := s.begun.d.scanOff) ⟨user, tokens, att, hash⟩ ok)
  case waits =>
    rw [exec_jtagToken_eq]
    exact onDevW_next (Dev.tokenGo_att (d := s.begun.d.scanOff) busy)
  case submit =>
    rw [exec_dbgTokenSubmit_eq]
    exact rowWrite_security (g := fun d => d.tokenGo s.ram (.at_ s.d.dbg.src)) rfl (by decide) hi nofun
      (Dev.secWrite_dbgCtl hv)

end Sys2Proof.Machine
end

section
/-! The trunk link (R243 to R252): the states of a link, and what becomes of a frame that it receives. -/

namespace Sys2Proof.Machine

/-! ### Link states (R243, R249) -/

section
variable {d : Dev} {l : LinkId}

theorem Dev.trkSend_up {b : List Byte} (h : (d.links[l]).state = 2) :
    d.trkSend l b = d.modTrunk l fun k => { k with sent := b :: k.sent } := if_pos h

theorem Dev.trkOn_of (he : d.trk.ctl.getLsbD l.val = true) (hp : d.pwr.now = .on ∨ d.pwr.now = .nap) : d.trkOn l = true := by
  simp [Dev.trkOn, bit, he, hp]

theorem Dev.trkSignal_down (hon : d.trkOn l = true) (h : (d.links[l]).state = 0) :
    d.trkSignal l = d.modTrunk l fun k => { k with state := 1 } :=
  if_pos (by simp [hon, h, -Fin.getElem_fin])

/-- The link is UP, and the host gets its 128 units. -/
theorem Dev.trkUp_aligned (hon : d.trkOn l = true) (h : (d.links[l]).state = 1) (hf : (d.links[l]).freein = 128) :
    d.trkUp l = d.modTrunk l fun k => { k with state := 2, sent := creditSet 128 :: k.sent } := by
  have up : d.trkUp l = (d.modTrunk l fun k => { k with state := 2 }).trkSend l (creditSet 128) :=
    if_pos (by simp [hon, h, hf, -Fin.getElem_fin])
  rw [up, Dev.trkSend_up (by rw [Dev.modTrunk_links_self]), Dev.modTrunk_modTrunk]

/-- A link that still holds ingress units stays in ALIGN. -/
theorem Dev.trkUp_held (hf : (d.links[l]).freein ≠ 128) : d.trkUp l = d := if_neg (by simp [hf, -Fin.getElem_fin])

theorem Dev.trkDown_up (h : (d.links[l]).state = 2) : d.trkDown l = d.modTrunk l fun k =>
    { k with state := 0, linkdown := true, waiting := []
             freein := min 128 (k.freein + (k.waiting.map fun r => r.units).foldl (· + ·) 0)
             cnt := k.cnt.set TrkCnt.linkdown.ix (k.cnt[TrkCnt.linkdown.ix] + 1) } := by
  unfold Dev.trkDown Dev.countTrk
  dsimp only
  rw [if_pos h, Dev.modTrunk_modTrunk]
  exact Dev.modTrunk_congr rfl

end

theorem exec_trunkSignalPresent_eq (l : LinkId) (s : State) :
    exec (.trunkSignalPresent l) s = .next (onDev (fun d => d.trkSignal l) s) := rfl

theorem exec_trunkUp_eq (l : LinkId) (s : State) : exec (.trunkUp l) s = .next (onDev (fun d => d.trkUp l) s) := rfl

theorem exec_trunkDown_eq (l : LinkId) (s : State) : exec (.trunkDown l) s = .next (onDev (fun d => d.trkDown l) s) := rfl

/-- Settles O34: each event by the state that the link is in. -/
theorem trunkLinkStates : Obligations.TrunkLinkStates := by
  intro s l he hp
  have hon := Dev.trkOn_of he hp
  refine ⟨fun h => ?signal, fun h hf => ?up, fun _ hf => ?held, fun h => ?down⟩
  case signal =>
    rw [exec_trunkSignalPresent_eq]
    exact onDev_next (Dev.trkSignal_down hon h)
  case up =>
    rw [exec_trunkUp_eq]
    exact onDev_next (Dev.trkUp_aligned hon h hf)
  case held =>
    rw [exec_trunkUp_eq]
    exact onDev_next (Dev.trkUp_held hf)
  case down =>
    rw [exec_trunkDown_eq]
    exact onDev_next (Dev.trkDown_up h)

/-! ### Frames (R245, R248, R249, R252) -/

/-- A frame that is neither too long nor too short for a CRC, and whose CRC is right (R248). -/
def FrameSound (b : List Byte) : Prop :=
  b.length < 4200 ∧ 4 ≤ b.length ∧ bytesNat (b.drop (b.length - 4)) = (crc32 (b.take (b.length - 4))).toNat

/-- The length of a frame is what its header says (R253). -/
def FrameFits (b : List Byte) : Prop :=
  ∀ m, reqDataLen (frameReq b).opc (frameReq b).len (frameReq b).param = some m → b.length = 16 + m

/-- The same as the link finds it. -/
def frameMisfits (b : List Byte) : Bool :=
  b.length < 16 ||
    (match reqDataLen (frameReq b).opc (frameReq b).len (frameReq b).param with
    | some m => decide (b.length ≠ 16 + m)
    | none => false)

theorem frameMisfits_iff (b : List Byte) : frameMisfits b = true ↔ b.length < 16 ∨ ¬ FrameFits b := by
  unfold frameMisfits FrameFits
  cases reqDataLen (frameReq b).opc (frameReq b).len (frameReq b).param <;> simp

/-- The host gets the units of a frame back with a CREDIT set (R249). -/
def Dev.frameBack (d : Dev) (l : LinkId) (b : List Byte) : Dev := d.trkSend l (creditSet (frameReq b).units)

/-- What becomes of a frame of the right length (R252): a retry by the state of its tag; a new request waits. -/
def Dev.trkNew (d : Dev) (l : LinkId) (b : List Byte) : Dev :=
  let r := frameReq b
  let retry := r.flags.testBit 0
  if retry && (d.links[l]).active r.tag then d.frameBack l b
  else match retry, ((d.links[l]).tags[r.tag]).st with
    | true, .retained => ((d.trkReply l r.tag).countTrk l .resend).frameBack l b
    | true, .expired => (d.countTrk l .stale).trkBad l r 9
    | _, _ => d.trkWait l r

section
variable {d : Dev} {l : LinkId} {b : List Byte} (up : (d.links[l]).state = 2)
include up

theorem Dev.trkReceive_codeErr {e : Bool} (h : e = true ∨ 4200 ≤ b.length) :
    d.trkReceive l b e = (d.countTrk l .codeerr).frameBack l b := by
  unfold Dev.trkReceive
  dsimp only
  rw [if_neg (not_not.mpr up), if_pos h]
  rfl

theorem Dev.trkReceive_crcErr (hl : b.length < 4200) (h : ¬ FrameSound b) :
    d.trkReceive l b false = (d.countTrk l .crcerr).frameBack l b := by
  have bad : b.length < 4 ∨ bytesNat (b.drop (b.length - 4)) ≠ (crc32 (b.take (b.length - 4))).toNat := by
    by_contra hg
    rw [not_or, not_lt, not_not] at hg
    exact h ⟨hl, hg⟩
  unfold Dev.trkReceive
  dsimp only
  rw [if_neg (not_not.mpr up), if_neg (by simpa using hl), if_pos bad]
  rfl

section
variable (good : FrameSound b)
include good

/-- What a link that is UP makes of a sound frame (R248, R252). -/
theorem Dev.trkReceive_sound : d.trkReceive l b false =
    if (d.links[l]).freein < (frameReq b).units then d.countTrk l .overrun
    else if 32 ≤ (byteAt b 0).toNat ∨ (!(frameReq b).flags.testBit 0 ∧ (d.links[l]).active (frameReq b).tag) then
      (d.countTrk l .malformed).frameBack l b
    else if frameMisfits b then d.trkBad l (frameReq b) 2
    else d.trkNew l b := by
  obtain ⟨hlen, hmin, hcrc⟩ := good
  unfold Dev.trkReceive
  dsimp only
  rw [if_neg (not_not.mpr up), if_neg (by simpa using hlen), if_neg (not_or.mpr ⟨not_lt.mpr hmin, not_not.mpr hcrc⟩)]
  rfl

theorem Dev.trkReceive_overrun (h : (d.links[l]).freein < (frameReq b).units) :
    d.trkReceive l b false = d.countTrk l .overrun :=
  (Dev.trkReceive_sound up good).trans (if_pos h)

variable (free : (frameReq b).units ≤ (d.links[l]).freein)
include free

theorem Dev.trkReceive_malformed (h : 32 ≤ (byteAt b 0).toNat ∨
    ((frameReq b).flags.testBit 0 = false ∧ (d.links[l]).active (frameReq b).tag = true)) :
    d.trkReceive l b false = (d.countTrk l .malformed).frameBack l b := by
  rw [Dev.trkReceive_sound up good, if_neg (not_lt.mpr free), if_pos (by simpa using h)]

variable (ht : (byteAt b 0).toNat < 32)
  (ha : (frameReq b).flags.testBit 0 = true ∨ (d.links[l]).active (frameReq b).tag = false)
include ht ha

/-- A frame whose TAG it may use is judged by its length. -/
theorem Dev.trkReceive_named : d.trkReceive l b false =
    if frameMisfits b then d.trkBad l (frameReq b) 2 else d.trkNew l b := by
  have named : ¬ (32 ≤ (byteAt b 0).toNat ∨
      (!(frameReq b).flags.testBit 0 ∧ (d.links[l]).active (frameReq b).tag)) := by
    rintro (h | ⟨hf, hk⟩)
    · exact absurd ht (not_lt.mpr h)
    · rcases ha with ha | ha
      · exact absurd hf (by rw [ha]; exact Bool.false_ne_true)
      · exact absurd hk (by rw [ha]; exact Bool.false_ne_true)
  rw [Dev.trkReceive_sound up good, if_neg (not_lt.mpr free), if_neg named]

theorem Dev.trkReceive_badLen (h : b.length < 16 ∨ ¬ FrameFits b) : d.trkReceive l b false = d.trkBad l (frameReq b) 2 :=
  (Dev.trkReceive_named up good free ht ha).trans (if_pos ((frameMisfits_iff b).mpr h))

theorem Dev.trkReceive_fits (hl : 16 ≤ b.length) (fits : FrameFits b) : d.trkReceive l b false = d.trkNew l b :=
  (Dev.trkReceive_named up good free ht ha).trans (if_neg fun h =>
    ((frameMisfits_iff b).mp h).elim (not_lt.mpr hl) (not_not.mpr fits))

end

end

section
variable {d : Dev} {l : LinkId} {b : List Byte}

/-- A retry of a tag in use is ignored. -/
theorem Dev.trkNew_active (hr : (frameReq b).flags.testBit 0 = true) (ha : (d.links[l]).active (frameReq b).tag = true) :
    d.trkNew l b = d.frameBack l b := if_pos (by rw [hr, ha]; rfl)

section
variable (ha : (d.links[l]).active (frameReq b).tag = false)
include ha

theorem Dev.trkNew_retained (hr : (frameReq b).flags.testBit 0 = true)
    (hs : ((d.links[l]).tags[(frameReq b).tag]).st = .retained) :
    d.trkNew l b = ((d.trkReply l (frameReq b).tag).countTrk l .resend).frameBack l b := by
  simp only [Dev.trkNew, ha, hr, hs, Bool.and_false, Bool.false_eq_true, if_false]

theorem Dev.trkNew_expired (hr : (frameReq b).flags.testBit 0 = true)
    (hs : ((d.links[l]).tags[(frameReq b).tag]).st = .expired) :
    d.trkNew l b = (d.countTrk l .stale).trkBad l (frameReq b) 9 := by
  simp only [Dev.trkNew, ha, hr, hs, Bool.and_false, Bool.false_eq_true, if_false]

/-- Another request takes its units and waits. -/
theorem Dev.trkNew_waits (h : (frameReq b).flags.testBit 0 = false ∨ ((d.links[l]).tags[(frameReq b).tag]).st = .idle) :
    d.trkNew l b = d.trkWait l (frameReq b) := by
  unfold Dev.trkNew
  dsimp only
  rw [ha, Bool.and_false, if_neg Bool.false_ne_true]
  rcases h with h | h
  · rw [h]
  · rw [h]
    cases (frameReq b).flags.testBit 0 <;> rfl

end

/-- With a reply unit free a STATUS is given at once, and the host gets the frame's units back (R249, R250). -/
theorem Dev.trkBad_now {r : TrunkReq} {st : Nat} (h : (d.links[l]).resv + 1 ≤ 1024 + (d.links[l]).back r) :
    d.trkBad l r st = (d.trkRefuse l r st 0).trkSend l (creditSet r.units) := if_pos (decide_eq_true h)

/-- Without one it waits. -/
theorem Dev.trkBad_later {r : TrunkReq} {st : Nat} (h : 1024 + (d.links[l]).back r < (d.links[l]).resv + 1) :
    d.trkBad l r st = d.trkWait l { r with answer := some st, resv := 1 } :=
  if_neg (by simpa [Trunk.roomOne, -Fin.getElem_fin] using h)

end

section
variable {s : State} {l : LinkId} {b : List Byte}

theorem exec_trunkFrameRx_next {e : Bool} {f : Dev → Dev} (h : s.d.trkReceive l b e = f s.d) :
    exec (.trunkFrameRx l b e) s = .next (onDev f s) := onDev_next h

variable {f : Dev → Dev} {st : Nat} (h : s.d.trkReceive l b false = (f s.d).trkBad l (frameReq b) st)
  (tags : ((f s.d).links[l]).tags = (s.d.links[l]).tags)
include h tags

/-- A frame that gets a STATUS: at once, or when a reply unit is free. -/
theorem exec_trunkFrameRx_answered :
    ((s.d.links[l]).resv + 1 ≤ 1024 + (s.d.links[l]).back (frameReq b) → exec (.trunkFrameRx l b false) s =
      .next (onDev (fun d => ((f d).trkRefuse l (frameReq b) st 0).trkSend l (creditSet (frameReq b).units)) s)) ∧
    (1024 + (s.d.links[l]).back (frameReq b) < (s.d.links[l]).resv + 1 → exec (.trunkFrameRx l b false) s =
      .next (onDev (fun d => (f d).trkWait l { frameReq b with answer := some st, resv := 1 }) s)) := by
  have resv : ((f s.d).links[l]).resv = (s.d.links[l]).resv := by rw [Trunk.resv, tags]; rfl
  have back : ((f s.d).links[l]).back (frameReq b) = (s.d.links[l]).back (frameReq b) := by rw [Trunk.back, tags]; rfl
  rw [← resv, ← back]
  exact ⟨fun room => exec_trunkFrameRx_next (f := fun d => _) (h.trans (Dev.trkBad_now room)),
    fun full => exec_trunkFrameRx_next (f := fun d => _) (h.trans (Dev.trkBad_later full))⟩

end

/-- Settles O35: a frame by what is wrong with it, else a retry by its tag. -/
theorem trunkFramesAreChecked : Obligations.TrunkFramesAreChecked := by
  intro s l b up k body good r makes back count answered fits
  refine ⟨fun e h => ?codeErr, fun hl h => ?crcErr, fun hg h => ?overrun, fun hg free => ⟨fun h => ?malformed,
    fun ht ha => ⟨fun h => ?badLen, fun hl hf => ⟨fun hr act => ?active, fun act => ⟨fun hr hs => ?retained,
      fun hr hs => ?expired, fun h => ?waits⟩⟩⟩⟩⟩
  case codeErr => exact exec_trunkFrameRx_next (Dev.trkReceive_codeErr up h)
  case crcErr => exact exec_trunkFrameRx_next (Dev.trkReceive_crcErr up hl h)
  case overrun => exact exec_trunkFrameRx_next (Dev.trkReceive_overrun up hg h)
  case malformed => exact exec_trunkFrameRx_next (Dev.trkReceive_malformed up hg free h)
  case badLen => exact exec_trunkFrameRx_answered (f := id) (Dev.trkReceive_badLen up hg free ht ha h) rfl
  all_goals have taken := Dev.trkReceive_fits up hg free ht ha hl hf
  case active => exact exec_trunkFrameRx_next (taken.trans (Dev.trkNew_active hr act))
  case retained => exact exec_trunkFrameRx_next (taken.trans (Dev.trkNew_retained act hr hs))
  case expired =>
    refine exec_trunkFrameRx_answered (f := fun d => d.countTrk l .stale) (taken.trans (Dev.trkNew_expired act hr hs)) ?_
    rw [Dev.countTrk, Dev.modTrunk_links_self]
  case waits => exact exec_trunkFrameRx_next (taken.trans (Dev.trkNew_waits act h))

end Sys2Proof.Machine
end

section
/-! Tags of the trunk (R250, R252, R263): the admission of requests, the release and the expiry of a kept reply, and the
registers of the trunk page that set attention causes and clear counters. -/

namespace Sys2Proof.Machine

/-! ### Admission (R250) -/

/-- The link with a request taken in (R250): its tag ACTIVE, the requests `q` to be executed after those before. -/
def Dev.trkTakeIn (d : Dev) (l : LinkId) (r : TrunkReq) (q : List TrunkReq) : Dev :=
  (({ d with trk := { d.trk with admits := d.trk.admits + 1 } }).modTrunk l fun k =>
    { k with waiting := k.waiting.erase r, tags := k.tags.set r.tag { st := .active, opc := r.opc, resv := r.resv }
             admitted := k.admitted ++ q }).countTrk l .req

section
variable {d : Dev} {l : LinkId}

/-- Where no request can reserve its reply none is admitted. -/
theorem Dev.trkAdmit_none (h : (d.links[l]).nextAdmit = none) : d.trkAdmit l = d := by
  simp only [Dev.trkAdmit, h]

variable {r : TrunkReq} (h : (d.links[l]).nextAdmit = some r)
include h

/-- A frame that waits for a STATUS gets it. -/
theorem Dev.trkAdmit_answered {e : Nat} (ha : r.answer = some e) : d.trkAdmit l =
    Dev.trkRefuse (d.modTrunk l fun k => { k with waiting := k.waiting.erase r }) l r e r.units := by
  simp only [Dev.trkAdmit, h, ha]

theorem Dev.trkAdmit_known (ha : r.answer = none) (hk : r.known = true) :
    d.trkAdmit l = d.trkTakeIn l r [{ r with seq := d.trk.admits, at_ := d.now }] := by
  simp only [Dev.trkAdmit, h, ha, hk, if_true, Dev.trkTakeIn]

/-- An opcode or a flag that does not exist is answered BADOPC at once. -/
theorem Dev.trkAdmit_unknown (ha : r.answer = none) (hk : r.known = false) :
    d.trkAdmit l = (d.trkTakeIn l r []).trkDone l r 1 0 [] := by
  simp only [Dev.trkAdmit, h, ha, hk, Bool.false_eq_true, if_false, Dev.trkTakeIn, List.append_nil]

end

theorem TrunkReq.known_of {r : TrunkReq} (ho : r.opc < 8) (hf : r.flags < 8) : r.known = true := by
  simp [TrunkReq.known, ho, hf]

theorem TrunkReq.unknown_of {r : TrunkReq} (h : 8 ≤ r.opc ∨ 8 ≤ r.flags) : r.known = false := by
  simp only [TrunkReq.known, Bool.and_eq_false_iff, decide_eq_false_iff_not, not_lt]
  exact h

theorem exec_trunkAdmit_eq (l : LinkId) (s : State) :
    exec (.trunkAdmit l) s = .next (onDev (fun d => d.trkAdmit l) s) := rfl

/-! ### Release and expiry (R252) -/

section
variable {d : Dev} {l : LinkId} {t : Fin 32} (h : ((d.links[l]).tags[t]).st = .retained)
include h

/-- A RELEASE set frees the tag that it names. -/
theorem Dev.trkRelease_retained {b : Byte} (hb : Fin.ofNat 32 b.toNat = t) (hlt : b.toNat < 32)
    (up : (d.links[l]).state = 2) : d.trkRelease l b = d.modTrunk l fun k => { k with tags := k.tags.set t {} } := by
  subst hb
  unfold Dev.trkRelease
  dsimp only
  rw [if_neg (not_or.mpr ⟨not_not.mpr up, not_le.mpr hlt⟩), h]

theorem Dev.trkExpire_retained : d.trkExpire l t = (d.until_ ((d.links[l]).tags[t]).expires).modTrunk l fun k =>
    { k with tags := k.tags.set t { st := .expired } } := by
  simp only [Dev.trkExpire, h]

end

theorem toNat_ofNat_tag (t : Fin 32) : (BitVec.ofNat 8 t.val).toNat = t.val := by
  rw [BitVec.toNat_ofNat]
  omega

theorem exec_trunkRelease_eq (l : LinkId) (t : Byte) (s : State) :
    exec (.trunkRelease l t) s = .next (onDev (fun d => d.trkRelease l t) s) := rfl

theorem exec_trunkRetainExpired_eq (l : LinkId) (t : Fin 32) (s : State) :
    exec (.trunkRetainExpired l t) s = .next (onDev (fun d => d.trkExpire l t) s) := rfl

/-! ### The trunk page (R263) -/

/-- A write of the trunk page. -/
theorem rowWrite_trunkReg {i : Initiator} {o : Nat} {v : Word} {s : State} {g : Dev → Dev} (ho : o < 0x10000)
    (hi : s.d.mayWrite i (chipPage 7 + o)) (h : s.begun.d.trkWrite i o v = g s.begun.d) :
    (Host.Outcome.next (rowWrite i (chipPage 7 + o) v s) : Host.Outcome State Fault Refusal) =
      .next (onDevW (fun d => (g d).answer i .done) s) := by
  refine rowWrite_chipReg (k := 7) rfl ho hi ?_
  rw [← h]
  rfl

/-- TRK_ATTNSET sets causes of firmware's own bits alone. -/
theorem Dev.trkWrite_attnset (d : Dev) (i : Initiator) (v : Word) : d.trkWrite i 0x28 v =
    { d with trk := { d.trk with cause := d.trk.cause ||| (v &&& 0xFFFF0000) } } := rfl

/-- TRK_CNTCLR of both links. -/
theorem Dev.trkWrite_cntclr {d : Dev} {i : Initiator} {v : Word} (h0 : v.getLsbD 0 = true) (h1 : v.getLsbD 1 = true) :
    d.trkWrite i 0x30 v = (d.modTrunk 0 fun k => { k with cnt := Vector.replicate 9 0 }).modTrunk 1 fun k =>
      { k with cnt := Vector.replicate 9 0 } :=
  (if_pos h1).trans (congrArg (fun e : Dev => e.modTrunk 1 fun k => { k with cnt := Vector.replicate 9 0 }) (if_pos h0))

theorem exec_trkAttnsetWrite_eq (i : Initiator) (v : Word) (s : State) :
    exec (.trkAttnsetWrite i v) s = .next (rowWrite i (chipPage 7 + 0x28) v s) := rfl

theorem exec_trkCntclr_eq (i : Initiator) (v : Word) (s : State) :
    exec (.trkCntclr i v) s = .next (rowWrite i (chipPage 7 + 0x30) v s) := rfl

/-- Settles O36: admission by the request that is next, a tag by its state, each register by what a write does. -/
theorem trunkAdmissionAndTags : Obligations.TrunkAdmissionAndTags := by
  intro s l
  refine ⟨fun h => ?none, fun r e h ha => ?answered, fun r h ha => ⟨fun ho hf => ?known, fun hk => ?unknown⟩,
    fun t h => ⟨fun up => ?release, ?expire⟩, fun i v => ⟨fun hi => ?attnset, fun hi h0 h1 => ?cntclr⟩⟩
  case none =>
    rw [exec_trunkAdmit_eq]
    exact onDev_next (Dev.trkAdmit_none h)
  case answered =>
    rw [exec_trunkAdmit_eq]
    exact onDev_next (Dev.trkAdmit_answered h ha)
  case known =>
    rw [exec_trunkAdmit_eq]
    exact onDev_next (Dev.trkAdmit_known h ha (TrunkReq.known_of ho hf))
  case unknown =>
    rw [exec_trunkAdmit_eq]
    exact onDev_next (Dev.trkAdmit_unknown h ha (TrunkReq.unknown_of hk))
  case release =>
    rw [exec_trunkRelease_eq]
    have num := toNat_ofNat_tag t
    have tag : Fin.ofNat 32 (BitVec.ofNat 8 t.val).toNat = t := Fin.ext (by rw [num]; exact Nat.mod_eq_of_lt t.isLt)
    exact onDev_next (Dev.trkRelease_retained h tag (num.trans_lt t.isLt) up)
  case expire =>
    rw [exec_trunkRetainExpired_eq]
    exact onDev_next (Dev.trkExpire_retained h)
  case attnset =>
    rw [exec_trkAttnsetWrite_eq]
    exact rowWrite_trunkReg (by decide) hi (Dev.trkWrite_attnset _ i v)
  case cntclr =>
    rw [exec_trkCntclr_eq]
    exact rowWrite_trunkReg (by decide) hi (Dev.trkWrite_cntclr h0 h1)

end Sys2Proof.Machine
end

section
/-! Requests of the trunk that access memory (R253, R254, R259): how the request at the front of a link is executed, PING,
and the accesses of MEMRD and MEMWR. -/

namespace Sys2Proof.Machine

/-! ### The request at the front -/

/-- The state once the request at the front of a link has left the list. -/
def State.popped (s : State) (l : LinkId) : State := { s.begun with d := s.begun.d.popReq l }

theorem State.popped_notReady (s : State) (l : LinkId) : (s.popped l).d.notReady = s.d.notReady := rfl

theorem Dev.notReady_up {d : Dev} (h : d.pwr.phase = .up) : d.notReady = none := by simp only [Dev.notReady, h]

theorem Dev.notReady_starting {d : Dev} {j : Nat} (h : d.pwr.phase = .starting j) : d.notReady = some 10 := by
  simp only [Dev.notReady, h]

section
variable {l : LinkId} {kind : TrunkReq → Bool} {f : TrunkReq → State → State} {s : State} {r : TrunkReq}
  (h : s.d.frontReq l kind = some r)
include h

/-- It is executed, or gets the STATUS of a module that is not ready for it (R259). -/
theorem trunkExec_front {gate : Bool} : trunkExec l kind gate f s =
    (if gate then s.d.notReady else none).elim (finish (f r (s.popped l)))
      fun e => finish (trunkReply l r e 0 [] (s.popped l)) := by
  simp only [trunkExec, h]
  rw [← State.popped_notReady s l]
  change (match (if gate = true then (s.popped l).d.notReady else none) with | some _ => _ | none => _) = _
  cases (if gate = true then (s.popped l).d.notReady else none) <;> rfl

/-- A request that needs no RUN. -/
theorem trunkExec_ungated : trunkExec l kind false f s = finish (f r (s.popped l)) := trunkExec_front h

theorem trunkExec_up (hp : s.d.pwr.phase = .up) : trunkExec l kind true f s = finish (f r (s.popped l)) := by
  rw [trunkExec_front h, Dev.notReady_up hp]
  rfl

/-- The command that executes it ends in the state that its execution leaves. -/
theorem trunkExec_next {t : State} (hp : s.d.pwr.phase = .up) (e : f r (s.popped l) = t) :
    (Host.Outcome.next (trunkExec l kind true f s) : Host.Outcome State Fault Refusal) = done t := by
  rw [trunkExec_up h hp, e]
  rfl

/-- A module that is starting answers NOTREADY (R259). -/
theorem trunkExec_starting {j : Nat} (hp : s.d.pwr.phase = .starting j) :
    (Host.Outcome.next (trunkExec l kind true f s) : Host.Outcome State Fault Refusal) =
      done (trunkReply l r 10 0 [] (s.popped l)) := by
  rw [trunkExec_front h, Dev.notReady_starting hp]
  rfl

end

/-! ### PING, MEMRD and MEMWR (R253, R254) -/

section
variable {s : State} {l : LinkId} {r : TrunkReq}

section
variable (h : s.d.frontReq l (fun r => r.opc = 0) = some r)
include h

theorem exec_trunkPing_zero (ha : r.addr = 0) (hl : r.len = 0) (hp : r.param = 0) : exec (.trunkPing l) s =
    done (trunkReply l r 0 (s.popped l).d.stateCode [] (s.popped l)) :=
  congrArg Host.Outcome.next ((trunkExec_ungated h).trans (congrArg finish (if_neg (by simp [ha, hl, hp]))))

theorem exec_trunkPing_badLen (hb : r.addr ≠ 0 ∨ r.len ≠ 0 ∨ r.param ≠ 0) : exec (.trunkPing l) s =
    done (trunkReply l r 2 0 [] (s.popped l)) :=
  congrArg Host.Outcome.next ((trunkExec_ungated h).trans (congrArg finish (if_pos hb)))

end

theorem exec_trunkMemrd_reads {u : List BitErr} (h : s.d.frontReq l (fun r => r.opc = 1) = some r)
    (hp : s.d.pwr.phase = .up) (he : (s.popped l).d.memRefusal r = none) : exec (.trunkMemrd ⟨l, u⟩) s =
    done (memRead_ l r (r.len / 4) 0 [] ((s.popped l).upset u)) :=
  trunkExec_next h hp (by simp only [he])

theorem exec_trunkMemwr_writes (h : s.d.frontReq l (fun r => r.opc = 2) = some r) (hp : s.d.pwr.phase = .up)
    (he : (s.popped l).d.memRefusal r = none) : exec (.trunkMemwr l) s =
    done (memWrite_ l r (r.len / 4) 0 (s.popped l)) :=
  trunkExec_next h hp (by simp only [he])

end

/-! ### One access (R254) -/

section
variable {l : LinkId} {r : TrunkReq} {k : Nat} {out : List Byte} {t x : State}

theorem memRead_data {w : Word}
    (h : (trunkAt l r k out t).busRead (initOfLink l) (r.addr.toNat + 4 * k) 4 false = (x, .data w)) (n : Nat) :
    memRead_ l r (n + 1) k out t = memRead_ l r n (k + 1) (out ++ natBytes 4 w.toNat) x := by
  simp only [memRead_, h]

theorem memRead_error (h : (trunkAt l r k out t).busRead (initOfLink l) (r.addr.toNat + 4 * k) 4 false = (x, .error))
    (n : Nat) : memRead_ l r (n + 1) k out t = trunkOver l r 5 out x := by
  simp only [memRead_, h]

theorem memRead_held (h : (trunkAt l r k out t).busRead (initOfLink l) (r.addr.toNat + 4 * k) 4 false = (x, .held))
    (n : Nat) : memRead_ l r (n + 1) k out t = x := by
  simp only [memRead_, h]

/-- The write of a MEMWR's k-th word. -/
def memwrAccess (l : LinkId) (r : TrunkReq) (k : Nat) (t : State) : State × Wr :=
  (trunkAt l r k [] t).busWrite (initOfLink l) (r.addr.toNat + 4 * k) 4 (BitVec.ofNat 32 (bytesNat (slice r.data (4 * k) 4)))

theorem memWrite_done (h : memwrAccess l r k t = (x, .done)) (n : Nat) :
    memWrite_ l r (n + 1) k t = memWrite_ l r n (k + 1) x := by
  rw [memwrAccess] at h
  simp only [memWrite_, h]

theorem memWrite_error (h : memwrAccess l r k t = (x, .error)) (n : Nat) :
    memWrite_ l r (n + 1) k t = trunkOver l r 5 (natBytes 2 k) x := by
  rw [memwrAccess] at h
  simp only [memWrite_, h]

theorem memWrite_held (h : memwrAccess l r k t = (x, .held)) (n : Nat) : memWrite_ l r (n + 1) k t = x := by
  rw [memwrAccess] at h
  simp only [memWrite_, h]

end

/-- Settles O37: a request by its STATUS, else by its accesses, and each access by the bus's answer. -/
theorem trunkMemoryRequests : Obligations.TrunkMemoryRequests := by
  intro s l r u d0 s0 reply
  refine ⟨fun h => ⟨exec_trunkPing_zero h, exec_trunkPing_badLen h⟩, fun c k hc => ?notRead,
    fun hp he => ⟨fun h => exec_trunkMemrd_reads h hp he, fun h => exec_trunkMemwr_writes h hp he⟩,
    fun t x k out n => ⟨fun w h => memRead_data h 0, fun w h => memRead_data h n, fun h => memRead_error h n,
      fun h => memRead_held h n, fun h => memWrite_done h 0, fun h => memWrite_done h n, fun h => memWrite_error h n,
      fun h => memWrite_held h n⟩⟩
  case notRead =>
    have refused : ∀ e, d0.memRefusal r = some e → (s.popped l).d.memRefusal r = some e := fun _ => id
    rcases hc with ⟨rfl, rfl⟩ | ⟨rfl, rfl⟩ <;>
    exact fun h => ⟨fun j hp => trunkExec_starting h hp, fun hp e he => trunkExec_next h hp (by simp only [refused e he]; rfl)⟩

end Sys2Proof.Machine
end

section
/-! Requests of the trunk on queues (R251, R255, R256): QRD, QWR and SREAD as they are executed, and the parked ones. -/

namespace Sys2Proof.Machine

section
variable {s : State} {l : LinkId} {r : TrunkReq} {u : List BitErr}

/-! ### Requests that are executed -/

theorem exec_trunkQrd_reads (h : s.d.frontReq l (fun r => r.opc = 3) = some r) (hp : s.d.pwr.phase = .up)
    (he : (s.popped l).d.queueRefusal r = none) : exec (.trunkQrd ⟨l, u⟩) s =
      done { s.popped l with d := ((s.popped l).d.upset u).qrd l r (r.flags.testBit 2) } :=
  trunkExec_next h hp (by simp only [he])

/-! QWR (R255). -/

/-- The block with a QWR's words in its queue, and the request answered. -/
def Dev.qwrWritten (d : Dev) (l : LinkId) (r : TrunkReq) : Dev :=
  ((d.wakeDomain (regionOfQueue r.queue) 8).modQueue r.queue fun q => q.pushAll r.words).trkDone l r 0 0 []

theorem Dev.qwr_space {d : Dev} (h : r.len / 8 ≤ (d.queue r.queue).free) : d.qwr l r = some (d.qwrWritten l r) := if_pos h

theorem Dev.qwr_full {d : Dev} (h : (d.queue r.queue).free < r.len / 8) : d.qwr l r = none := if_neg (not_le.mpr h)

theorem Dev.qwaitTicks_eq_zero {d : Dev} : d.qwaitTicks = 0 ↔ fld d.trk.ctl 8 8 = 0 := by
  simp [Dev.qwaitTicks, msTicks]

section
variable (h : s.d.frontReq l (fun r => r.opc = 4) = some r) (hp : s.d.pwr.phase = .up)
include h hp

variable (he : (s.popped l).d.queueRefusal r = none)
include he

theorem exec_trunkQwr_writes (hs : r.len / 8 ≤ (s.d.queue r.queue).free) : exec (.trunkQwr l) s =
    done { s.popped l with d := (s.popped l).d.qwrWritten l r } := by
  have space : (s.popped l).d.qwr l r = _ := Dev.qwr_space hs
  exact trunkExec_next h hp (by simp only [he, space])

variable (hs : (s.d.queue r.queue).free < r.len / 8)
include hs

theorem exec_trunkQwr_parks (hq : fld s.d.trk.ctl 8 8 ≠ 0) : exec (.trunkQwr l) s =
    done { s.popped l with d := (s.popped l).d.park l r (s.d.now + s.d.qwaitTicks) } := by
  have full : (s.popped l).d.qwr l r = none := Dev.qwr_full hs
  have wait : (s.popped l).d.qwaitTicks ≠ 0 := Dev.qwaitTicks_eq_zero.not.mpr hq
  exact trunkExec_next h hp (by simp only [he, full, wait, if_false]; rfl)

theorem exec_trunkQwr_full (hq : fld s.d.trk.ctl 8 8 = 0) : exec (.trunkQwr l) s =
    done (trunkReply l r 6 0 [] (s.popped l)) := by
  have full : (s.popped l).d.qwr l r = none := Dev.qwr_full hs
  have wait : (s.popped l).d.qwaitTicks = 0 := Dev.qwaitTicks_eq_zero.mpr hq
  exact trunkExec_next h hp (by simp only [he, full, wait, if_true])

end

/-! SREAD (R256). -/

theorem State.popped_standing (s : State) (l : LinkId) : ((s.popped l).d.links[l]).standing = (s.d.links[l]).standing := by
  have popped : (s.popped l).d.links[l] = _ := Dev.modTrunk_links_self s.begun.d l _
  rw [popped]
  rfl

section
variable (h : s.d.frontReq l (fun r => r.opc = 7) = some r) (hp : s.d.pwr.phase = .up)
  (he : (s.popped l).d.queueRefusal r = none)
include h hp he

theorem exec_trunkSread_served (hq : 0 < (s.d.queue r.queue).pktcnt) (ho : (s.popped l).d.olderSread r = false) :
    exec (.trunkSread l) s = done { s.popped l with d := (s.popped l).d.qrd l r true } := by
  refine trunkExec_next h hp ?_
  simp only [he]
  exact if_pos ⟨hq, by rw [ho]; rfl⟩

/-- Without a packet for it it parks, or is refused where eight stand. -/
theorem exec_trunkSread_waits (hq : (s.d.queue r.queue).pktcnt = 0 ∨ (s.popped l).d.olderSread r = true) :
    exec (.trunkSread l) s = done (if 8 ≤ (s.d.links[l]).standing then trunkReply l r 8 0 [] (s.popped l)
      else { s.popped l with d := (s.popped l).d.park l r (r.at_ + r.param * 20000) }) := by
  have none : ¬ (0 < ((s.popped l).d.queue r.queue).pktcnt ∧ !(s.popped l).d.olderSread r) := by
    rintro ⟨hpos, hold⟩
    rcases hq with hq | hq
    · exact absurd hpos (Nat.not_lt.mpr (Nat.le_of_eq hq))
    · rw [hq] at hold
      exact Bool.false_ne_true hold
  refine trunkExec_next h hp ?_
  simp only [he]
  rw [if_neg none, State.popped_standing]

end

end

/-! ### Parked requests -/

section
variable {s : State} {l : LinkId} {t : Fin 32} {p : Parked}

section
variable (h : (s.d.links[l]).parkedTag t 4 = some p)
include h

theorem exec_qwrResume_badQueue (hu : s.d.queueUsable p.req.queue = false) : exec (.qwrResume l t) s =
    .next (onDev (fun d => (d.unpark l p).trkDone l p.req 12 0 []) s) :=
  onDev_next (by simp only [h, hu]; rfl)

/-- Without space it stays parked. -/
theorem exec_qwrResume_full (hu : s.d.queueUsable p.req.queue = true)
    (hs : (s.d.queue p.req.queue).free < p.req.len / 8) : exec (.qwrResume l t) s = .next (onDev id s) := by
  have full : (s.d.unpark l p).qwr l p.req = none := Dev.qwr_full hs
  exact onDev_next (by simp only [h, hu, full]; rfl)

theorem exec_qwrResume_writes (hu : s.d.queueUsable p.req.queue = true)
    (hs : p.req.len / 8 ≤ (s.d.queue p.req.queue).free) : exec (.qwrResume l t) s =
      .next (onDev (fun d => (d.unpark l p).qwrWritten l p.req) s) := by
  have space : (s.d.unpark l p).qwr l p.req = _ := Dev.qwr_space hs
  exact onDev_next (by simp only [h, hu, space]; rfl)

theorem exec_qwrParkTimeout_parked : exec (.qwrParkTimeout l t) s =
    .next (onDev (fun d => ((d.until_ p.until_).unpark l p).trkDone l p.req 6 0 []) s) :=
  onDev_next (by simp only [h])

end

section
variable (h : (s.d.links[l]).parkedTag t 7 = some p)
include h

theorem exec_sreadServed_badQueue (hu : s.d.queueUsable p.req.queue = false) : exec (.sreadServed l t) s =
    .next (onDevW (fun d => (d.unpark l p).trkDone l p.req 12 0 []) s) := by
  have parked : (s.begun.d.links[l]).parkedTag t 7 = some p := h
  have bad : s.begun.d.queueUsable p.req.queue = false := hu
  exact onDevW_next (by simp only [parked, bad]; rfl)

section
variable (hu : s.d.queueUsable p.req.queue = true)
include hu

/-- Without a packet for it it stays parked. -/
theorem exec_sreadServed_waits (hq : (s.d.queue p.req.queue).pktcnt = 0 ∨ s.d.olderSread p.req = true) :
    exec (.sreadServed l t) s = .next (onDevW id s) := by
  have parked : (s.begun.d.links[l]).parkedTag t 7 = some p := h
  have usable : s.begun.d.queueUsable p.req.queue = true := hu
  refine onDevW_next ?_
  simp only [parked, usable]
  exact (if_neg (by decide)).trans (if_pos hq)

theorem exec_sreadServed_serves (hq : 0 < (s.d.queue p.req.queue).pktcnt) (ho : s.d.olderSread p.req = false) :
    exec (.sreadServed l t) s = .next (onDevW (fun d => (d.unpark l p).qrd l p.req true) s) := by
  have parked : (s.begun.d.links[l]).parkedTag t 7 = some p := h
  have usable : s.begun.d.queueUsable p.req.queue = true := hu
  have mine : ¬ ((s.begun.d.queue p.req.queue).pktcnt = 0 ∨ s.begun.d.olderSread p.req = true) := by
    rintro (hz | hold)
    · exact absurd hz (Nat.pos_iff_ne_zero.mp hq)
    · exact Bool.false_ne_true (ho.symm.trans hold)
  refine onDevW_next ?_
  simp only [parked, usable]
  exact (if_neg (by decide)).trans (if_neg mine)

end

theorem exec_sreadTimeout_parked : exec (.sreadTimeout l t) s =
    .next (onDev (fun d => ((d.until_ p.until_).unpark l p).trkDone l p.req 7 0 []) s) :=
  onDev_next (by simp only [h])

end

end

/-- Settles O38: a request by its STATUS, its queue and what waits there, a parked one by its queue and its time. -/
theorem trunkQueueRequests : Obligations.TrunkQueueRequests := by
  intro s l r u d0 go
  refine ⟨fun hp e he c k hc => ?refused, fun hp he => ⟨fun h => exec_trunkQrd_reads h hp he, fun h => ?qwr, fun h => ?sread⟩,
    fun t p => ⟨fun h => ?parkedQwr, fun h => ?parkedSread⟩⟩
  case refused =>
    have refused : (s.popped l).d.queueRefusal r = some e := he
    rcases hc with ⟨rfl, rfl⟩ | ⟨rfl, rfl⟩ | ⟨rfl, rfl⟩ <;> exact fun h => trunkExec_next h hp (by simp only [refused]; rfl)
  case qwr =>
    exact ⟨exec_trunkQwr_writes h hp he, exec_trunkQwr_parks h hp he, exec_trunkQwr_full h hp he⟩
  case sread =>
    refine ⟨exec_trunkSread_served h hp he, fun hq hs => ?parks, fun hq hs => ?eight⟩
    case parks => exact (exec_trunkSread_waits h hp he hq).trans (congrArg done (if_neg (not_le.mpr hs)))
    case eight => exact (exec_trunkSread_waits h hp he hq).trans (congrArg done (if_pos hs))
  case parkedQwr =>
    exact ⟨exec_qwrResume_badQueue h, exec_qwrResume_full h, exec_qwrResume_writes h, exec_qwrParkTimeout_parked h⟩
  case parkedSread =>
    exact ⟨exec_sreadServed_badQueue h, exec_sreadServed_waits h, exec_sreadServed_serves h, exec_sreadTimeout_parked h⟩

end Sys2Proof.Machine
end

section
/-! Requests of the trunk to the dictionary and to mailboxes (R253, R257, R259, R372 to R374). -/

namespace Sys2Proof.Machine

section
variable {s : State} {l : LinkId} {r : TrunkReq}

/-! ### DICT (R257, R259) -/

/-- The request is handed to the dispatcher: it is in progress until the dictionary answers. -/
def State.dictServed (s : State) (l : LinkId) (r : TrunkReq) : State :=
  tdpServe (carrierOf l) r.data true
    { s.popped l with d := (s.popped l).d.modTrunk l fun k => { k with run := some (r, 0, []) } }

/-- The fields of a DICT request are out of range (R253). -/
def TrunkReq.dictBad (r : TrunkReq) : Prop := r.addr ≠ 0 ∨ r.param ≠ 0 ∨ r.len < 1 ∨ 256 < r.len

section
variable (h : s.d.frontReq l (fun r => r.opc = 5) = some r) (ho : s.d.owed (carrierOf l) = false)
include h ho

theorem exec_trunkDict_badLen (hb : r.dictBad) : exec (.trunkDict l) s = done (trunkReply l r 2 0 [] (s.popped l)) := by
  refine congrArg Host.Outcome.next ?_
  unfold trunkDict
  simp only [h, ho]
  exact (if_neg (by decide)).trans (if_pos hb)

variable (hb : ¬ r.dictBad)
include hb

/-- One in range gets the STATUS of a module that does not serve it, or goes to the dispatcher. -/
theorem exec_trunkDict_inRange : exec (.trunkDict l) s = done ((dictNotReady (s.popped l).d r.data).elim (s.dictServed l r)
    fun e => trunkReply l r e 0 [] (s.popped l)) := by
  refine congrArg Host.Outcome.next ?_
  unfold trunkDict
  simp only [h, ho]
  refine ((if_neg (by decide)).trans (if_neg hb)).trans ?_
  change (match dictNotReady (s.popped l).d r.data with | some _ => _ | none => _) = _
  cases dictNotReady (s.popped l).d r.data <;> rfl

end

/-! ### Mailboxes (R257) -/

theorem mbxOf_noMailbox (h : r.addr.toNat < 12 ∨ 16 ≤ r.addr.toNat) : mbxOf r = .error 13 := if_pos h

theorem mbxOf_ok (h12 : 12 ≤ r.addr.toNat) (h16 : r.addr.toNat < 16) (hl : r.len = 0 ∨ r.len = 4) :
    mbxOf r = .ok (Fin.ofNat 16 r.addr.toNat) :=
  (if_neg (by omega)).trans (if_neg (by omega))

end

/-- Settles O39: a DICT request by its fields and the module's state, an MBX request by its mailbox. -/
theorem trunkDictionaryAndMailboxRequests : Obligations.TrunkDictionaryAndMailboxRequests := by
  intro s l r d0 reply m
  refine ⟨fun h ho => ⟨fun hb => exec_trunkDict_badLen h ho hb, fun ha hp h1 h256 => ?inRange⟩, fun c k hc hp => ?noMailbox,
    fun hp h12 h16 => ⟨fun h hl => ?post, fun h hl => ?take, fun h hl h3 => ?peek⟩⟩
  case inRange =>
    have inRange : ¬ r.dictBad := by
      rintro (h | h | h | h)
      · exact h ha
      · exact h hp
      · omega
      · omega
    have served := exec_trunkDict_inRange h ho inRange
    refine ⟨fun e he => ?notReady, fun he => ?serves⟩
    case notReady =>
      have status : dictNotReady (s.popped l).d r.data = some e := he
      rw [served, status]
      rfl
    case serves =>
      have ready : dictNotReady (s.popped l).d r.data = none := he
      rw [served, ready]
      rfl
  case noMailbox =>
    rcases hc with ⟨rfl, rfl⟩ | ⟨rfl, rfl⟩ <;>
    exact fun h hn => trunkExec_next h hp (by simp only [mbxOf_noMailbox hn]; rfl)
  case post => exact trunkExec_next h hp (by simp only [mbxOf_ok h12 h16 hl]; rfl)
  case take => exact trunkExec_next h hp (by simp only [mbxOf_ok h12 h16 hl]; rfl)
  case peek => exact trunkExec_next h hp (by simp only [mbxOf_ok h12 h16 hl]; exact if_neg (not_not.mpr h3))

end Sys2Proof.Machine
end

section
/-! Expedited writes at the dictionary (R267, R270, R271): the message, the object that it names and what the object does
with the value, down to the response. -/

namespace Sys2Proof.Machine

/-! ### The message (R270) -/

/-- A WRITE_EXP of up to 60 bytes is read as the request that it stands for. -/
theorem parseTdp_msgWrite (lim : TdpLimits) (i : BitVec 16) (b : Byte) {l : List Byte} (h : l.length ≤ 60) :
    parseTdp lim (msgWrite i b l) = .writeExp i b l := by
  have cmd : (byteAt (msgWrite i b l) 0).toNat = l.length := by
    have : (BitVec.ofNat 8 (min 0x3D l.length)).toNat = l.length := by
      rw [BitVec.toNat_ofNat]
      omega
    exact this
  have len : (msgWrite i b l).length = 4 + l.length := by
    simp [msgWrite]
    omega
  have index : BitVec.ofNat 16 (bytesNat (slice (msgWrite i b l) 1 2)) = i := by
    have : slice (msgWrite i b l) 1 2 = natBytes 2 i.toNat := rfl
    rw [this, bytesNat_natBytes]
    exact BitVec.eq_of_toNat_eq (by rw [BitVec.toNat_ofNat]; omega)
  have sub : byteAt (msgWrite i b l) 3 = b := rfl
  have data : slice (msgWrite i b l) 4 l.length = l := List.take_length
  unfold parseTdp
  dsimp only
  rw [cmd, len, index, sub, data, if_neg (by omega), if_pos (by omega), if_pos le_rfl]

/-! ### What the dispatcher leaves of the block before it serves the request -/

/-- Closing a transfer changes the carrier, and the update's state where the transfer was the image's. -/
theorem Dev.closeXfer_eq (d : Dev) (c : Carrier) : ∃ n, d.closeXfer c =
    ({ d with upd := { d.upd with state := n } } : Dev).modCarrier c fun k => { k with xfer := none, fwXfer := none } := by
  unfold Dev.closeXfer Dev.updCut
  dsimp only
  split
  · split
    · split
      · exact ⟨3, rfl⟩
      · exact ⟨d.upd.state, rfl⟩
    · exact ⟨d.upd.state, rfl⟩
  · exact ⟨d.upd.state, rfl⟩

/-- Where an index is served depends on the state of the module and of region 0, and on TDP_FWCTL. -/
theorem Dev.route_congr {d e : Dev} (hp : e.pwr.phase = d.pwr.phase) (hr : e.regions = d.regions)
    (ht : e.tdp.fwctl = d.tdp.fwctl) (i : Nat) : e.route i = d.route i := by
  rw [Dev.route, Dev.route, Dev.fwOn, Dev.fwOn, hp, hr, ht]

theorem Dev.route_responder {d : Dev} {i : Nat} (h : responder i = true) : d.route i = .hw := if_pos h

/-- In RUN the hardware serves every index below firmware's. -/
theorem Dev.route_up {d : Dev} {i : Nat} (hp : d.pwr.phase = .up) (h1 : 0x1000 ≤ i) (hA : i < 0xA000) : d.route i = .hw := by
  unfold Dev.route
  rw [hp]
  dsimp only
  rw [if_neg (not_le.mpr hA), if_pos h1, ite_self]

theorem Dev.closeXfer_route (d : Dev) (c : Carrier) (i : Nat) : (d.closeXfer c).route i = d.route i := by
  obtain ⟨n, h⟩ := Dev.closeXfer_eq d c
  rw [h]
  exact Dev.route_congr rfl rfl rfl i

section
variable (s : State) (c : Carrier)

theorem State.asked_route (i : Nat) : (s.asked c).d.route i = s.d.route i :=
  (Dev.route_congr (d := s.heard.d.closeXfer c) rfl rfl rfl i).trans
    ((Dev.closeXfer_route s.heard.d c i).trans (Dev.route_congr rfl rfl rfl i))

theorem State.asked_op : (s.asked c).d.tdp.op = s.d.tdp.op := by
  obtain ⟨n, h⟩ := Dev.closeXfer_eq s.heard.d c
  rw [State.asked, h]
  rfl

theorem State.asked_job : (s.asked c).d.upd.job = s.d.upd.job := by
  obtain ⟨n, h⟩ := Dev.closeXfer_eq s.heard.d c
  rw [State.asked, h]
  rfl

end

/-- A carrier that owes no answer has no work at the update engine. -/
theorem Dev.carrierFree_job {d : Dev} {c : Carrier} (h : d.carrierFree c = true) : ∀ j, d.upd.job = some j → j.carrier ≠ c := by
  intro j hj hc
  simp [Dev.carrierFree, Dev.owed, hj, hc] at h

/-- Every carrier takes four bytes in an expedited write (R269). -/
theorem Dev.four_le_exp (d : Dev) (c : Carrier) : 4 ≤ (d.tdpLimits c).exp := by
  unfold Dev.tdpLimits
  split
  · decide
  · split
    · split <;> decide
    · decide

/-! ### The object -/

theorem objAt_of_indexMax {d : Dev} {i sub m : Nat} (h : indexMax i = some m) (hm : sub ≤ m) (h0 : sub = 0 → m = 0) :
    objAt d i sub = .ok (objOf d i sub) := by
  unfold objAt
  rw [h]
  cases m with
  | zero =>
    have zero : sub = 0 := Nat.le_zero.mp hm
    simp only [zero, if_true]
  | succ m =>
    have pos : ¬ sub = 0 := fun e => Nat.succ_ne_zero m (h0 e)
    simp only [pos, hm, if_false, if_true]

section
variable {o : Obj} {c : Carrier} {i : BitVec 16} {b : Byte} {l : List Byte} {ok : Bool} {t : State}

/-- A special object does with an allowed value what is its own. -/
theorem objWrite_special {k : Special} {f : Dev → Nat} (hs : o.src = .special k f) (hn : o.noWrite = none)
    (hr : o.refuses l = none) : objWrite o c i b l ok t =
      ({ t with d := (specialWrite k c (o.ty.decode l) ok t.d).1 }, (specialWrite k c (o.ty.decode l) ok t.d).2) := by
  simp only [objWrite, hs, hn, hr]

theorem objWrite_noWrite {e : Nat} (hn : o.noWrite = some e) : objWrite o c i b l ok t = (t, some e) := by
  simp only [objWrite, hn]

theorem objWrite_refused {e : Nat} (hn : o.noWrite = none) (hr : o.refuses l = some e) :
    objWrite o c i b l ok t = (t, some e) := by
  simp only [objWrite, hn, hr]

/-! ### The request (R271) -/

/-- The write of an object that is no DOMAIN and stands where the module takes writes. -/
theorem tdpWriteExp_special {k : Special} {f : Dev → Nat} (hd : t.d.deadWrite i = false)
    (ho : objAt t.d i.toNat b.toNat = .ok o) (hs : o.src = .special k f) (hl : l.length ≤ 4) {u : State} {e : Option Nat}
    (hw : objWrite o c i b l ok t = (u, e)) :
    tdpWriteExp c i b l ok t = e.elim (jobAnswer c [0x44#8] u) fun e => aborts c i b e u := by
  have fits : ¬ (t.d.tdpLimits c).exp < l.length := not_lt.mpr (hl.trans (Dev.four_le_exp t.d c))
  simp only [tdpWriteExp, hd, ho, hs, hw, Bool.false_eq_true, if_false, fits]
  cases e <;> rfl

/-- With no work of the carrier's at the update engine the answer is the write's. -/
theorem jobAnswer_own {m : List Byte} (h : ∀ j, t.d.upd.job = some j → j.carrier ≠ c) : jobAnswer c m t = (t, some m) := by
  unfold jobAnswer
  split
  · next j hj => exact if_neg (h j hj)
  · rfl

end

section
variable {s : State} {c : Carrier} {i : BitVec 16} {b : Byte} {l : List Byte} {o : Obj} {k : Special} {f : Dev → Nat}
  (hready : s.tdpReady c (msgWrite i b l)) (hroute : s.d.route i.toNat = .hw) (hi : i.toNat < 0x9000)
  (ho : objAt (s.asked c).d i.toNat b.toNat = .ok o) (hs : o.src = .special k f) (hl : l.length ≤ 4)
include hready hroute hi ho hs hl

/-- A write of a special object below the update's: its answer by what the object does with the value. -/
theorem tdpRow_writeSpecial {u : State} {e : Option Nat} (hw : objWrite o c i b l true (s.asked c) = (u, e)) :
    (Host.Outcome.next (tdpRow c (msgWrite i b l) true s) : Host.Outcome State Fault Refusal) =
      answered c (e.elim (jobAnswer c [0x44#8] u) fun e => aborts c i b e u) := by
  have route := (State.asked_route s c i.toNat).trans hroute
  have alive : (s.asked c).d.deadWrite i = false := by
    simp only [Dev.deadWrite, Bool.and_eq_false_iff, decide_eq_false_iff_not]
    exact .inl (.inr (not_le.mpr hi))
  rw [tdpRow_parse hready, parseTdp_msgWrite _ _ _ (hl.trans (by decide))]
  dsimp only
  rw [routed_hw route, tdpWriteExp_special alive ho hs hl hw]

theorem tdpRow_writeSpecial_done {d : Dev} (hw : objWrite o c i b l true (s.asked c) = ({ s.asked c with d := d }, none))
    (hjob : d.upd.job = s.d.upd.job) :
    (Host.Outcome.next (tdpRow c (msgWrite i b l) true s) : Host.Outcome State Fault Refusal) =
      replied c [0x44#8] { s.asked c with d := d } := by
  obtain ⟨free, -⟩ := id hready
  rw [tdpRow_writeSpecial hready hroute hi ho hs hl hw]
  exact congrArg (answered c) (jobAnswer_own fun j hj => Dev.carrierFree_job free j (hjob.symm.trans hj))

theorem tdpRow_writeSpecial_refused {e : Nat} (hw : objWrite o c i b l true (s.asked c) = (s.asked c, some e)) :
    (Host.Outcome.next (tdpRow c (msgWrite i b l) true s) : Host.Outcome State Fault Refusal) = abortedBy c i b e (s.asked c) :=
  tdpRow_writeSpecial hready hroute hi ho hs hl hw

end
end Sys2Proof.Machine
end

section
/-! Commands of the dictionary (R262, R311, R313, R315): what the ATTN detail objects, the context operation, an attestation
request and the emptying of the retirement list do. -/

namespace Sys2Proof.Machine

/-! ### ATTN detail objects (R262) -/

section
variable {α : Type} {f : Dev → α → Dev}

/-- A chain of changes of the block that each leave the update alone. -/
theorem upd_foldl (hf : ∀ d x, (f d x).upd = d.upd) (l : List α) (d : Dev) : (l.foldl f d).upd = d.upd := by
  induction l generalizing d with
  | nil => rfl
  | cons x l ih => exact (ih _).trans (hf d x)

end

theorem Dev.fltWrite_upd (d : Dev) (o : Nat) (v : Word) : (d.fltWrite o v).upd = d.upd := by
  unfold Dev.fltWrite
  dsimp only
  split <;> rfl

/-- The clearing of cause flags gives the update engine no work and takes none. -/
theorem Dev.clearDetail_job (d : Dev) (b sub v : Nat) : (d.clearDetail b sub v).upd.job = d.upd.job := by
  have each (f : RegFault → RegFault) : (((List.finRange 4).foldl (fun (d : Dev) r =>
      if bit (BitVec.ofNat 32 v) r.val then d.modRegFlt r f else d) d)).upd = d.upd :=
    upd_foldl (fun d r => by split <;> rfl) _ d
  have gauges (f : Gauge → Gauge) : (((List.finRange 24).foldl (fun (d : Dev) p =>
      if bit (BitVec.ofNat 32 v) p.val then d.modGauge p f else d) d)).upd = d.upd :=
    upd_foldl (fun d p => by split <;> rfl) _ d
  unfold Dev.clearDetail
  dsimp only
  split
  case h_2 | h_3 =>
    split
    · rw [Dev.fltWrite_upd]
    · rw [each]
  case h_4 => split <;> rfl
  case h_5 =>
    split
    · rw [gauges]
    · rw [gauges]
  all_goals rfl

theorem toNat_detailIndex (b : Fin 14) : (BitVec.ofNat 16 (0x1010 + b.val)).toNat = 0x1010 + b.val := by
  rw [BitVec.toNat_ofNat]
  omega

theorem objAt_detail {d : Dev} {b : Fin 14} {sub m : Nat} (h : indexMax (0x1010 + b.val) = some m) (hm : sub ≤ m)
    (h0 : sub = 0 → m = 0) : objAt d (0x1010 + b.val) sub = .ok (detailObj b.val sub) := by
  have obj : objOf d (0x1010 + b.val) sub = detailObj b.val sub := by
    unfold objOf
    rw [if_neg (by omega), if_pos (by omega), Nat.add_sub_cancel_left]
  rw [objAt_of_indexMax h hm h0, obj]

theorem detailSize_le (b sub : Nat) : detailSize b sub ≤ 4 := by
  unfold detailSize
  split
  case h_3 | h_4 => split <;> decide
  all_goals decide

/-- Its value is of the type's size, and every value is allowed. -/
theorem detailObj_takes (b sub : Nat) {l : List Byte} (h : l.length = detailSize b sub) : (detailObj b sub).refuses l = none := by
  simp [Obj.refuses, detailObj, Ty.size, h]

theorem detailObj_noWrite (b sub : Nat) : (detailObj b sub).noWrite = if b < 2 then some 4 else none := by
  by_cases h : b < 2 <;> simp [Obj.noWrite, detailObj, h]

/-- Bits 2 to 13: a write clears flags. -/
theorem objWrite_detail {b sub : Nat} {c : Carrier} {i : BitVec 16} {x : Byte} {l : List Byte} {ok : Bool} {t : State}
    (hb : 2 ≤ b) (hl : l.length = detailSize b sub) : objWrite (detailObj b sub) c i x l ok t =
      ({ t with d := t.d.clearDetail b sub (bytesNat l) }, none) :=
  objWrite_special (k := .detail b sub) rfl ((detailObj_noWrite b sub).trans (if_neg (not_lt.mpr hb))) (detailObj_takes b sub hl)

/-- The detail of bits 0 and 1 takes no write. -/
theorem objWrite_detail_live {b sub : Nat} {c : Carrier} {i : BitVec 16} {x : Byte} {l : List Byte} {ok : Bool} {t : State}
    (hb : b < 2) : objWrite (detailObj b sub) c i x l ok t = (t, some 4) :=
  objWrite_noWrite ((detailObj_noWrite b sub).trans (if_pos hb))

/-! ### Context operations (R311) -/

/-- The object that a write of OP starts an operation through. -/
def opObj : Obj := { acc := .wo, ty := .nat 1, src := .special .opGo fun _ => 0, ok := within 1 3 }

theorem objAt_op (d : Dev) : objAt d 0x5101 4 = .ok opObj := objAt_of_indexMax (m := 5) rfl (by decide) (by decide)

theorem opObj_takes {op : Byte} (h1 : 1 ≤ op.toNat) (h3 : op.toNat ≤ 3) : opObj.refuses [op] = none := by
  have range : within 1 3 (op.toNat : Int) = true := by
    simp only [within, Bool.and_eq_true, decide_eq_true_eq]
    omega
  simp [Obj.refuses, opObj, Ty.size, Ty.decode, bytesNat, range]

theorem opObj_decode (op : Byte) : (opObj.ty.decode [op]).toNat = op.toNat := by
  simp [opObj, Ty.decode, bytesNat]

/-! A context operation gives the update engine no work and takes none. -/

theorem Dev.noteWalk_upd (d : Dev) (r : Option RegionId) (k : Nat) : (d.noteWalk r k).upd = d.upd := by
  cases r with
  | some r => rfl
  | none =>
    refine upd_foldl ?_ _ d
    exact fun _ _ => rfl

theorem Dev.producePacket_upd {d e : Dev} {q : QueueId} {ws : List Word64} (h : d.producePacket q ws = some e) :
    e.upd = d.upd := by
  unfold Dev.producePacket at h
  split at h
  · cases h
    unfold Dev.wakeDomain
    split <;> rfl
  · cases h

theorem Dev.dnStatus_upd (d : Dev) (r : RegionId) (tag ctx result fcnt : Nat) :
    (d.dnStatus r tag ctx result fcnt).upd = d.upd := by
  unfold Dev.dnStatus
  dsimp only
  split
  next h => exact Dev.producePacket_upd h
  next => rfl

theorem Dev.endPacket_upd (d : Dev) (n : CtxId) (p : DnPacket) (result : Nat) : (d.endPacket n p result).upd = d.upd := by
  unfold Dev.endPacket
  split
  · rfl
  · rw [Dev.dnStatus_upd]
    rfl

theorem Dev.emptyChain_upd (d : Dev) (n : CtxId) : (d.emptyChain n).upd = d.upd := rfl

theorem Dev.ctxInstall_upd (d : Dev) (r : Option RegionId) (n : CtxId) : (d.ctxInstall r n).1.upd = d.upd := by
  have walked := upd_foldl (f := fun (d : Dev) (k : Bool × Nat) =>
    d.noteWalk r (d.bucket (hashBucket (hashKey k.1 k.2))).length) (fun _ _ => Dev.noteWalk_upd _ _ _) (d.keysOf n) d
  unfold Dev.ctxInstall
  split
  · rfl
  · split
    · rfl
    · dsimp only
      split
      · exact walked
      · refine (upd_foldl ?_ _ _).trans ?_
        · intro d q
          split <;> rfl
        · rw [Dev.emptyChain_upd]
          exact walked

theorem Dev.ctxRemove_upd (d : Dev) (r : Option RegionId) (n : CtxId) : (d.ctxRemove r n).1.upd = d.upd := by
  unfold Dev.ctxRemove
  split
  · rfl
  · split
    · rfl
    · unfold Dev.ctxRemoveNow
      dsimp only
      rw [Dev.emptyChain_upd]
      exact upd_foldl (f := fun d p => d.endPacket n p 8) (fun _ _ => Dev.endPacket_upd _ _ _ _) (d.packets n) d

theorem Dev.ctxRun_upd (d : Dev) (r : Option RegionId) (o : CtxOp) : (d.ctxRun r o).1.upd = d.upd := by
  unfold Dev.ctxRun
  dsimp only
  split
  · exact Dev.ctxInstall_upd ..
  · split
    · exact Dev.ctxRemove_upd ..
    · split
      · have found : (d.ctxFind r o.short o.key).1.upd = d.upd := Dev.noteWalk_upd ..
        split <;> next h => rw [h] at found; exact found
      · rfl

/-! ### CLEARRET (R315) -/

/-- The object that empties the retirement list. -/
def clearRetObj : Obj := { acc := .wo, ty := .bool, src := .special .clearRet fun _ => 0, ok := within 0 1 }

theorem objAt_clearRet (d : Dev) : objAt d 0x8003 0 = .ok clearRetObj := objAt_of_indexMax (m := 0) rfl (by decide) (by decide)

theorem clearRetObj_decode (v : Byte) : clearRetObj.ty.decode [v] = v.toNat := by
  simp [clearRetObj, Ty.decode, bytesNat]

theorem clearRetObj_refuses (v : Byte) : clearRetObj.refuses [v] = if v.toNat ≤ 1 then none else some 7 := by
  have range : clearRetObj.ok (v.toNat : Int) = decide (v.toNat ≤ 1) := by
    simp [clearRetObj, within]
  have one : clearRetObj.ty.size = some 1 := rfl
  unfold Obj.refuses
  rw [clearRetObj_decode, range, one, if_neg (by simp)]
  by_cases h : v.toNat ≤ 1 <;> simp [h]

/-- 1 arms the emptying, 0 does nothing, and no other value is taken. -/
theorem objWrite_clearRet {c : Carrier} {i : BitVec 16} {x v : Byte} {ok : Bool} {t : State} :
    (v = 1 → objWrite clearRetObj c i x [v] ok t =
      ({ t with d := { t.d with flt := { t.d.flt with clearRet := true } } }, none)) ∧
    (v = 0 → objWrite clearRetObj c i x [v] ok t = ({ t with d := t.d }, none)) ∧
    (2 ≤ v.toNat → objWrite clearRetObj c i x [v] ok t = (t, some 7)) := by
  have allowed (h : v.toNat ≤ 1) : clearRetObj.refuses [v] = none := (clearRetObj_refuses v).trans (if_pos h)
  refine ⟨fun h => ?_, fun h => ?_, fun h => objWrite_refused rfl ((clearRetObj_refuses v).trans (if_neg (by omega)))⟩
  · subst h
    exact objWrite_special rfl rfl (allowed (by decide))
  · subst h
    exact objWrite_special rfl rfl (allowed (by decide))

/-! ### Attestation through the dictionary (R313) -/

/-- The dictionary's attestation object with a status and no report. -/
def Dev.attNoted (d : Dev) (st : Nat) : Dev := { d with att := { d.att with dictStatus := st, dictReport := none } }

section
variable {d : Dev} {ram : Memory} {c : Carrier} {ch : List Byte}

/-- While a request is under way there is no other. -/
theorem Dev.attDict_busy {a : AttRun} (h : d.att.run = some a) : d.attDict ram c ch = (d, some 0x0F) :=
  if_pos (by rw [h]; rfl)

section
variable (hr : d.att.run = none)
include hr

/-- A refused request ends with STATE and keeps its status; SPENT and LOST set the ATTLOST cause (R229, R230). -/
theorem Dev.attDict_refused {e : Nat} (h : d.attRefusal true = some e) : d.attDict ram c ch =
    (if e = 4 ∨ e = 5 then (d.attNoted e).secCause 5 else d.attNoted e, some 0x0F) := by
  unfold Dev.attDict
  dsimp only
  rw [if_neg (by rw [hr]; exact Bool.false_ne_true), h]
  rfl

/-- One that is not refused takes the next index and waits for the engine. -/
theorem Dev.attDict_started (h : d.attRefusal true = none) : d.attDict ram c ch =
    (((d.attStart (.dict c) ch).attNoted 1).engGo ram, none) := by
  unfold Dev.attDict
  dsimp only
  rw [if_neg (by rw [hr]; exact Bool.false_ne_true), h]
  rfl

end

/-- An index that is not the last is consumed without a cause. -/
theorem Dev.attStart_inBudget {src : AttFrom} (h : d.att.c + 1 < 33554432) : d.attStart src ch =
    { d with att := { d.att with c := d.att.c + 1, last := d.rtc.count
                                 run := some { from_ := src, challenge := ch, q := d.att.c } } } :=
  if_neg (not_le.mpr h)

end

/-- What the dispatcher does with a whole challenge. -/
def attestServe (c : Carrier) (ch : List Byte) (u : State) : Answer :=
  if ch.length ≠ 32 then aborts c 0x6010 1 6 u
  else match u.d.attDict u.ram c ch with
    | (d, some e) => aborts c 0x6010 1 e { u with d := d }
    | (d, none) => ({ u with d := d }, none)

/-- The state once the carrier's transfer is closed for it. -/
def State.closed (s : State) (c : Carrier) : State := { s with d := s.begun.d.closeXfer c }

theorem State.closed_att (s : State) (c : Carrier) : (s.closed c).d.att = s.d.att := by
  obtain ⟨n, h⟩ := Dev.closeXfer_eq s.begun.d c
  rw [State.closed, h]
  rfl

section
variable {s : State} {c : Carrier} {ch : List Byte} (hfree : s.d.carrierFree c = true) (hp : s.d.pwr.phase = .up)
include hfree hp

theorem exec_attestWrite_served : exec (.attestWrite c ch) s = answered c (attestServe c ch (s.closed c)) := by
  have route : (s.begun.d.closeXfer c).route 0x6010 = .hw :=
    (Dev.closeXfer_route s.begun.d c 0x6010).trans (Dev.route_up (d := s.begun.d) hp (by decide) (by decide))
  have ready : ¬ (!s.d.carrierFree c || (c ≠ 0 && s.d.notReady.isSome)) = true := by
    rw [hfree, Dev.notReady_up hp, Option.isSome_none, Bool.and_false]
    exact Bool.false_ne_true
  refine congrArg Host.Outcome.next ((if_neg ready).trans ?_)
  dsimp only
  rw [route]
  rfl

theorem exec_attestWrite_length (hl : ch.length ≠ 32) : exec (.attestWrite c ch) s = abortedBy c 0x6010 1 6 (s.closed c) :=
  (exec_attestWrite_served hfree hp).trans (congrArg (answered c) (if_pos hl))

variable (hl : ch.length = 32) {d : Dev}
include hl

/-- A request that waits for the engine is answered later. -/
theorem exec_attestWrite_waits (h : (s.closed c).d.attDict s.ram c ch = (d, none)) :
    exec (.attestWrite c ch) s = done { s.closed c with d := d } := by
  have served : attestServe c ch (s.closed c) = ({ s.closed c with d := d }, none) := by
    have here : (s.closed c).d.attDict (s.closed c).ram c ch = (d, none) := h
    simp only [attestServe, hl, here, ne_eq, not_true_eq_false, if_false]
  rw [exec_attestWrite_served hfree hp, served]
  rfl

theorem exec_attestWrite_ends {e : Nat} (h : (s.closed c).d.attDict s.ram c ch = (d, some e)) :
    exec (.attestWrite c ch) s = abortedBy c 0x6010 1 e { s.closed c with d := d } := by
  have served : attestServe c ch (s.closed c) = aborts c 0x6010 1 e { s.closed c with d := d } := by
    have here : (s.closed c).d.attDict (s.closed c).ram c ch = (d, some e) := h
    simp only [attestServe, hl, here, ne_eq, not_true_eq_false, if_false]
  rw [exec_attestWrite_served hfree hp, served]
  rfl

end

/-- The three outcomes of R313 of a request that none is before. -/
theorem Dev.attDict_outcomes {d : Dev} {ram : Memory} {c : Carrier} {ch : List Byte} (hr : d.att.run = none)
    (hp : d.pwr.phase = .up) :
    (d.att.lost = false → d.att.c + 1 < 33554432 → d.att.last + 16 * 65536 ≤ d.rtc.count →
      d.attDict ram c ch = (({ d with att := { d.att with
        c := d.att.c + 1, last := d.rtc.count, dictStatus := 1, dictReport := none
        run := some { from_ := .dict c, challenge := ch, q := d.att.c } } }).engGo ram, none)) ∧
    (d.att.lost = true → d.attDict ram c ch = ((d.attNoted 5).secCause 5, some 0x0F)) ∧
    (d.att.lost = false → d.att.c < 33554432 → d.rtc.count < d.att.last + 16 * 65536 →
      d.attDict ram c ch = (d.attNoted 3, some 0x0F)) := by
  refine ⟨fun hl hc ht => ?started, fun hl => ?lost, fun hl hc ht => ?early⟩
  case started =>
    have late : ¬ d.attEarly := fun h => h.elim (· hp) (not_lt.mpr ht)
    rw [Dev.attDict_started hr (Dev.attRefusal_late hl (Nat.lt_of_succ_lt hc) late), Dev.attStart_inBudget hc]
    rfl
  case lost => exact Dev.attDict_refused hr (Dev.attRefusal_lost hl)
  case early => exact Dev.attDict_refused hr (Dev.attRefusal_early hl hc (.inr ht))

/-! ### The commands -/

theorem exec_attnDetailClear_eq (c : Carrier) (b : Fin 14) (x : Byte) (l : List Byte) (s : State) :
    exec (.attnDetailClear c b x l) s = .next (tdpRow c (msgWrite (BitVec.ofNat 16 (0x1010 + b.val)) x l) true s) := rfl

theorem exec_ctxOpChannel_eq (c : Carrier) (op : Byte) (s : State) :
    exec (.ctxOpChannel c op) s = .next (tdpRow c (msgWrite 0x5101 4 [op]) true s) := rfl

theorem exec_clearret_eq (c : Carrier) (v : Byte) (s : State) :
    exec (.clearret c v) s = .next (tdpRow c (msgWrite 0x8003 0 [v]) true s) := rfl

/-- Settles O43: each write by the object that it names; an attestation by what the request comes to. -/
theorem dictionaryCommandsAct : Obligations.DictionaryCommandsAct := by
  intro s c t
  have jobKept : (s.asked c).d.upd.job = s.d.upd.job := State.asked_job s c
  refine ⟨fun b x l hready hm hl => ?detail, fun op hready hp h1 h3 => ?op, fun ch hfree hp => ?attest, fun v hready => ?clearret⟩
  case detail =>
    obtain ⟨m, hmax, hsub, hzero⟩ := hm
    have index := toNat_detailIndex b
    have route : s.d.route (BitVec.ofNat 16 (0x1010 + b.val)).toNat = .hw := by
      rw [index]
      exact Dev.route_responder (by simp [responder]; omega)
    have obj : objAt (s.asked c).d (BitVec.ofNat 16 (0x1010 + b.val)).toNat x.toNat = .ok (detailObj b.val x.toNat) := by
      rw [index]
      exact objAt_detail hmax hsub hzero
    have low : (BitVec.ofNat 16 (0x1010 + b.val)).toNat < 0x9000 := by omega
    have short : l.length ≤ 4 := hl.trans_le (detailSize_le _ _)
    rw [exec_attnDetailClear_eq]
    exact ⟨fun hb => tdpRow_writeSpecial_done hready route low obj rfl short (objWrite_detail hb hl)
        ((Dev.clearDetail_job _ _ _ _).trans jobKept),
      fun hb => tdpRow_writeSpecial_refused hready route low obj rfl short (objWrite_detail_live hb)⟩
  case op =>
    have route : s.d.route (0x5101 : BitVec 16).toNat = .hw := Dev.route_up hp (by decide) (by decide)
    have written := objWrite_special (o := opObj) (c := c) (i := 0x5101) (b := 4) (ok := true) (t := s.asked c) rfl rfl
      (opObj_takes h1 h3)
    rw [exec_ctxOpChannel_eq]
    refine ⟨fun hs => ?runs, fun hs => ?busy⟩
    case runs =>
      have acts : specialWrite .opGo c (opObj.ty.decode [op]) true (s.asked c).d =
          (let x := (s.asked c).d.ctxRun none { s.d.tdp.op with op := op.toNat }
           ({ x.1 with tdp := { x.1.tdp with op := x.2 } }, none)) := by
        rw [specialWrite, State.asked_op, opObj_decode]
        exact if_neg hs
      rw [acts] at written
      exact tdpRow_writeSpecial_done hready route (by decide) (objAt_op _) rfl (by simp) written
        ((congrArg Update.job (Dev.ctxRun_upd _ _ _)).trans jobKept)
    case busy =>
      have acts : specialWrite .opGo c (opObj.ty.decode [op]) true (s.asked c).d = ((s.asked c).d, some 0x0F) := by
        rw [specialWrite, State.asked_op]
        exact if_pos hs
      rw [acts] at written
      exact tdpRow_writeSpecial_refused hready route (by decide) (objAt_op _) rfl (by simp) written
  case attest =>
    refine ⟨exec_attestWrite_length hfree hp, fun hl => ⟨fun d h => exec_attestWrite_waits hfree hp hl h,
      fun d e h => exec_attestWrite_ends hfree hp hl h⟩, fun d hr hup => Dev.attDict_outcomes hr hup, fun a ha hl => ?busy⟩
    case busy =>
      exact exec_attestWrite_ends hfree hp hl (Dev.attDict_busy ((congrArg Att.run (State.closed_att s c)).trans ha))
  case clearret =>
    have route : s.d.route (0x8003 : BitVec 16).toNat = .hw := Dev.route_responder (by decide)
    have written := objWrite_clearRet (c := c) (i := 0x8003) (x := 0) (v := v) (ok := true) (t := s.asked c)
    rw [exec_clearret_eq]
    refine ⟨fun hv => ?empties, fun hv => ?stands, fun hv => ?range⟩
    case empties =>
      exact tdpRow_writeSpecial_done hready route (by decide) (objAt_clearRet _) rfl (by simp) (written.1 hv) jobKept
    case stands =>
      exact tdpRow_writeSpecial_done hready route (by decide) (objAt_clearRet _) rfl (by simp) (written.2.1 hv) jobKept
    case range =>
      exact tdpRow_writeSpecial_refused hready route (by decide) (objAt_clearRet _) rfl (by simp) (written.2.2 hv)

end Sys2Proof.Machine
end

section
/-! Request messages (R270): the fields of a message that names an object, and what the reader makes of a message of each
kind with bytes behind it. -/

namespace Sys2Proof.Machine

/-! ### The fields of a message that names an object -/

/-- A message that names an object: command, index, subindex, and what follows. -/
def msgNamed (cmd : Byte) (i : BitVec 16) (b : Byte) (rest : List Byte) : List Byte :=
  [cmd] ++ natBytes 2 i.toNat ++ [b] ++ rest

section
variable (lim : TdpLimits) (cmd : Byte) (i : BitVec 16) (b : Byte) (rest : List Byte)

@[simp] theorem msgNamed_length : (msgNamed cmd i b rest).length = 4 + rest.length := by
  simp [msgNamed]
  omega

@[simp] theorem msgNamed_cmd : byteAt (msgNamed cmd i b rest) 0 = cmd := rfl

@[simp] theorem msgNamed_index : BitVec.ofNat 16 (bytesNat (slice (msgNamed cmd i b rest) 1 2)) = i := by
  have : slice (msgNamed cmd i b rest) 1 2 = natBytes 2 i.toNat := rfl
  rw [this, bytesNat_natBytes]
  exact BitVec.eq_of_toNat_eq (by rw [BitVec.toNat_ofNat]; omega)

@[simp] theorem msgNamed_sub : byteAt (msgNamed cmd i b rest) 3 = b := rfl

@[simp] theorem msgNamed_next : byteAt (msgNamed cmd i b rest) 4 = byteAt rest 0 := rfl

@[simp] theorem msgNamed_rest (n : Nat) : slice (msgNamed cmd i b rest) 4 n = rest.take n := rfl

theorem bytesNat_word (t : Word) : bytesNat (natBytes 4 t.toNat) = t.toNat := by
  rw [bytesNat_natBytes]
  exact Nat.mod_eq_of_lt t.isLt

/-! ### The kinds of messages -/

theorem parseTdp_read : parseTdp lim (msgNamed 0x40 i b rest) = .read i b := by
  simp [parseTdp]

theorem parseTdp_writeExp {l : List Byte} (h : l.length ≤ 60) :
    parseTdp lim (msgNamed (BitVec.ofNat 8 l.length) i b (l ++ rest)) = .writeExp i b l := by
  have cmd : l.length % 256 = l.length := Nat.mod_eq_of_lt (by omega)
  simp [parseTdp, cmd, h]

theorem parseTdp_writeLong : parseTdp lim (msgNamed 0x3D i b rest) = .bad i b := by
  simp [parseTdp]

theorem parseTdp_writeInit (t : Word) :
    parseTdp lim (msgNamed 0x41 i b (natBytes 4 t.toNat ++ rest)) = .writeInit i b t.toNat := by
  have enough : 8 ≤ 4 + (4 + rest.length) := by omega
  simp [parseTdp, List.take_left', bytesNat_word, enough]

theorem parseTdp_abort (e : Byte) : parseTdp lim (msgNamed 0xC0 i b (e :: rest)) = .abort i b e := by
  have enough : 5 ≤ 4 + (rest.length + 1) := by omega
  have code : byteAt (e :: rest) 0 = e := rfl
  simp [parseTdp, code, enough]

theorem parseTdp_segReq (q : Byte) : parseTdp lim ([0x42#8, q] ++ rest) = .segReq q := by
  simp [parseTdp, byteAt]

end

section
variable (lim : TdpLimits) (last : Bool) (q : Byte) {l : List Byte} (pad : List Byte) (h255 : l.length ≤ 255)
include h255

theorem parseTdp_msgSeg (h1 : 1 ≤ l.length) (hw : l.length ≤ lim.wseg) :
    parseTdp lim (msgSeg last q l ++ pad) = .seg last q l := by
  have len : l.length % 256 = l.length := Nat.mod_eq_of_lt (by omega)
  cases last <;> simp [parseTdp, msgSeg, byteAt, slice, h255, len, h1, hw] <;> omega

theorem parseTdp_msgSeg_long (hw : lim.wseg < l.length) : parseTdp lim (msgSeg last q l ++ pad) = .bad 0 0 := by
  have len : l.length % 256 = l.length := Nat.mod_eq_of_lt (by omega)
  cases last <;> simp [parseTdp, msgSeg, byteAt, slice, h255, len, hw]

end

/-! ### The messages that the commands bring -/

theorem msgInit_eq (i : BitVec 16) (b : Byte) (t : Word) : msgInit i b t = msgNamed 0x41 i b (natBytes 4 t.toNat) := rfl

theorem msgWrite_eq (i : BitVec 16) (b : Byte) (l : List Byte) :
    msgWrite i b l = msgNamed (BitVec.ofNat 8 (min 0x3D l.length)) i b l := rfl

theorem msgNamed_append (cmd : Byte) (i : BitVec 16) (b : Byte) (l pad : List Byte) :
    msgNamed cmd i b l ++ pad = msgNamed cmd i b (l ++ pad) := List.append_assoc _ l pad

/-- Settles O40: each kind of message by its fields. -/
theorem messagesParseBack : Obligations.MessagesParseBack := by
  intro lim i b e q t l pad last
  have write (h : l.length ≤ 60) : parseTdp lim (msgWrite i b l ++ pad) = .writeExp i b l := by
    rw [msgWrite_eq, min_eq_right (by omega), msgNamed_append]
    exact parseTdp_writeExp lim i b pad h
  have long (h : 60 < l.length) : parseTdp lim (msgWrite i b l) = .bad i b := by
    rw [msgWrite_eq, min_eq_left (by omega)]
    exact parseTdp_writeLong lim i b l
  have init : parseTdp lim (msgInit i b t ++ pad) = .writeInit i b t.toNat := by
    rw [msgInit_eq, msgNamed_append]
    exact parseTdp_writeInit lim i b pad t
  exact ⟨parseTdp_read lim i b pad, write, long, init, parseTdp_segReq lim pad q,
    fun h1 h255 hw => parseTdp_msgSeg lim last q pad h255 h1 hw, fun h255 hw => parseTdp_msgSeg_long lim last q pad h255 hw,
    fun code => parseTdp_abort lim i b pad _, parseTdp_abort lim i b pad e⟩

end Sys2Proof.Machine
end

section
/-! Requests for the objects of the HV2448 (R267, R271, R273, R274, R299, R310, R313): what a READ, a WRITE_EXP and a
WRITE_INIT are answered, by the object that they name. -/

namespace Sys2Proof.Machine

/-! ### From the command to the request -/

theorem State.asked_can (s : State) (c : Carrier) : (s.asked c).d.can = s.d.can := by
  obtain ⟨n, h⟩ := Dev.closeXfer_eq s.heard.d c
  rw [State.asked, h]
  rfl

theorem Dev.tdpLimits_congr {d e : Dev} (h : e.can = d.can) (c : Carrier) : e.tdpLimits c = d.tdpLimits c := by
  rw [Dev.tdpLimits, Dev.tdpLimits, h]

theorem State.asked_tdpLimits (s : State) (c : Carrier) : (s.asked c).d.tdpLimits c = s.d.tdpLimits c :=
  Dev.tdpLimits_congr (State.asked_can s c) c

theorem State.asked_ctxCount (s : State) (c : Carrier) : (s.asked c).d.tdp.ctxCount = s.d.tdp.ctxCount := by
  obtain ⟨n, h⟩ := Dev.closeXfer_eq s.heard.d c
  rw [State.asked, h]
  rfl

section
variable {s : State} {c : Carrier} {i : BitVec 16} {b : Byte} (hroute : (s.asked c).d.route i.toNat = .hw)
include hroute

theorem exec_tdpRead_served (h : s.tdpReady c (msgRead i b)) :
    exec (.tdpRead c i b) s = answered c (tdpRead c i b (s.asked c)) := by
  have parsed : parseTdp (s.d.tdpLimits c) (msgRead i b) = .read i b := parseTdp_read _ i b []
  refine (tdpRow_parse h).trans ?_
  rw [parsed]
  exact congrArg (answered c) (routed_hw hroute)

theorem exec_tdpWriteExp_served {l : List Byte} (hl : l.length ≤ 60) (h : s.tdpReady c (msgWrite i b l)) :
    exec (.tdpWriteExp c i b l) s = answered c (tdpWriteExp c i b l true (s.asked c)) := by
  refine (tdpRow_parse h).trans ?_
  rw [parseTdp_msgWrite _ i b hl]
  exact congrArg (answered c) (routed_hw hroute)

theorem exec_tdpWriteInit_served {total : Word} (h : s.tdpReady c (msgInit i b total)) :
    exec (.tdpWriteInit c i b total) s = answered c (tdpWriteInit c i b total.toNat (s.asked c)) := by
  have parsed : parseTdp (s.d.tdpLimits c) (msgInit i b total) = .writeInit i b total.toNat := by
    rw [msgInit_eq, ← List.append_nil (natBytes 4 _)]
    exact parseTdp_writeInit _ i b [] total
  refine (tdpRow_parse h).trans ?_
  rw [parsed]
  exact congrArg (answered c) (routed_hw hroute)

end

/-! ### READ (R271, R273) -/

/-- A segmented read opens with its value, and READ_INIT names the length (R273). -/
def opensRead (c : Carrier) (i : BitVec 16) (b : Byte) (total : Nat) (l : List Byte) (u : State) : Answer :=
  ({ u with d := u.d.openXfer c { write := false, index := i, sub := b, total := some total, data := l, last := none
                                  lastResp := [], pos := 0, at_ := u.d.now, ctxSel := u.d.tdp.ctxSel } },
   some ([0x43#8] ++ natBytes 4 total))

/-- The value of an object that is no DOMAIN leaves expedited, or a transfer opens with it. -/
def sendsValue (c : Carrier) (i : BitVec 16) (b : Byte) (l : List Byte) (lim : Nat) (u : State) : Answer :=
  if l.length ≤ lim then (u, some ([BitVec.ofNat 8 l.length] ++ l)) else opensRead c i b l.length l u

/-- What stands in a DOMAIN opens a transfer; CTXDATA is read with its window (R310). -/
def sendsDomain (c : Carrier) (i : BitVec 16) (b : Byte) (k : Dom) (o : Obj) (t : State) : Answer :=
  if o.acc = .wo then aborts c i b 5 t
  else if k = .ctxData then
    if t.d.ctxWindow then opensRead c i b (64 * t.d.tdp.ctxCount) [] t else aborts c i b 7 t
  else ((t.d.deadVal o i b).or (t.d.domBytes k)).elim (aborts c i b 0x0F t) fun l => opensRead c i b l.length l t

section
variable {c : Carrier} {i : BitVec 16} {b : Byte} {t u : State} {o : Obj}

theorem tdpRead_missing {e : Nat} (h : objAt t.d i.toNat b.toNat = .error e) : tdpRead c i b t = aborts c i b e t := by
  simp only [tdpRead, h]

variable (ho : objAt t.d i.toNat b.toNat = .ok o)
include ho

theorem tdpRead_refused (hs : ∀ k, o.src ≠ .dom k) {e : Nat} (h : objRead o i b t = (u, .error e)) :
    tdpRead c i b t = aborts c i b e u := by
  unfold tdpRead
  rw [ho]
  dsimp only
  split
  · next k hk => exact absurd hk (hs k)
  · rw [h]

theorem tdpRead_value (hs : ∀ k, o.src ≠ .dom k) {l : List Byte} (h : objRead o i b t = (u, .ok l)) :
    tdpRead c i b t = sendsValue c i b l (t.d.tdpLimits c).exp u := by
  unfold tdpRead
  rw [ho]
  dsimp only
  split
  · next k hk => exact absurd hk (hs k)
  · rw [h]
    rfl

theorem tdpRead_domain {k : Dom} (hs : o.src = .dom k) : tdpRead c i b t = sendsDomain c i b k o t := by
  unfold tdpRead sendsDomain
  rw [ho]
  dsimp only
  rw [hs]
  dsimp only
  cases t.d.deadVal o i b with
  | some l => rfl
  | none => cases t.d.domBytes k <;> rfl

end

/-! ### WRITE_EXP (R271) -/

section
variable {c : Carrier} {i : BitVec 16} {b : Byte} {l : List Byte} {ok : Bool} {t u : State} {o : Obj}
  (hd : t.d.deadWrite i = false)
include hd

theorem tdpWriteExp_missing {e : Nat} (h : objAt t.d i.toNat b.toNat = .error e) :
    tdpWriteExp c i b l ok t = aborts c i b e t := by
  simp only [tdpWriteExp, hd, h, Bool.false_eq_true, if_false]

variable (ho : objAt t.d i.toNat b.toNat = .ok o)
include ho

theorem tdpWriteExp_domain {k : Dom} (hs : o.src = .dom k) : tdpWriteExp c i b l ok t = aborts c i b 1 t := by
  simp only [tdpWriteExp, hd, ho, hs, Bool.false_eq_true, if_false]

variable (hs : ∀ k, o.src ≠ .dom k)
include hs

theorem tdpWriteExp_long (hl : (t.d.tdpLimits c).exp < l.length) : tdpWriteExp c i b l ok t = aborts c i b 1 t := by
  simp only [tdpWriteExp, hd, ho, hl, Bool.false_eq_true, if_false, if_true]

theorem tdpWriteExp_value (hl : l.length ≤ (t.d.tdpLimits c).exp) {e : Option Nat} (h : objWrite o c i b l ok t = (u, e)) :
    tdpWriteExp c i b l ok t = e.elim (jobAnswer c [0x44#8] u) fun e => aborts c i b e u := by
  unfold tdpWriteExp
  rw [hd, ho]
  dsimp only
  rw [if_neg Bool.false_ne_true]
  split
  · next k hk => exact absurd hk (hs k)
  · rw [if_neg (not_lt.mpr hl), h]
    cases e <;> rfl

end

/-! ### WRITE_INIT (R274, R310, R313) -/

/-- A segmented write opens, and WRITE_READY names the carrier's segment limit (R274). -/
def opensWrite (c : Carrier) (i : BitVec 16) (b : Byte) (total : Nat) (u : State) : Answer :=
  ({ u with d := u.d.openXfer c { write := true, index := i, sub := b, total := some total, data := [], last := none
                                  lastResp := [], pos := 0, at_ := u.d.now, ctxSel := u.d.tdp.ctxSel } },
   some [0x45#8, BitVec.ofNat 8 (u.d.tdpLimits c).wseg])

section
variable {c : Carrier} {i : BitVec 16} {b : Byte} {total : Nat} {t : State} {o : Obj} (hd : t.d.deadWrite i = false)
include hd

theorem tdpWriteInit_missing {e : Nat} (h : objAt t.d i.toNat b.toNat = .error e) :
    tdpWriteInit c i b total t = aborts c i b e t := by
  simp only [tdpWriteInit, hd, h, Bool.false_eq_true, if_false]

variable (ho : objAt t.d i.toNat b.toNat = .ok o)
include ho

theorem tdpWriteInit_noWrite {e : Nat} (h : o.noWrite = some e) : tdpWriteInit c i b total t = aborts c i b e t := by
  simp only [tdpWriteInit, hd, ho, h, Bool.false_eq_true, if_false]

variable (hn : o.noWrite = none)
include hn

theorem tdpWriteInit_value (hs : ∀ k, o.src ≠ .dom k) : tdpWriteInit c i b total t =
    if o.ty.size ≠ some total then aborts c i b 6 t else opensWrite c i b total t := by
  unfold tdpWriteInit
  rw [hd, ho]
  dsimp only
  rw [if_neg Bool.false_ne_true, hn]
  dsimp only
  split
  case h_4 => rfl
  all_goals next k => exact absurd k (hs _)

/-- A write of CTXDATA brings its whole window (R310). -/
theorem tdpWriteInit_ctxData (hs : o.src = .dom .ctxData) : tdpWriteInit c i b total t =
    if !t.d.ctxWindow then aborts c i b 7 t
    else if total ≠ 64 * t.d.tdp.ctxCount then aborts c i b 6 t
    else opensWrite c i b total t := by
  simp only [tdpWriteInit, hd, ho, hn, hs, Bool.false_eq_true, if_false]
  rfl

/-- A write of ATTEST brings a challenge of 32 bytes (R313). -/
theorem tdpWriteInit_attest (hs : o.src = .dom .attest) : tdpWriteInit c i b total t =
    if total ≠ 32 then aborts c i b 6 t else opensWrite c i b total t := by
  simp only [tdpWriteInit, hd, ho, hn, hs, Bool.false_eq_true, if_false]
  rfl

end

/-- Settles O41: each request by the object that it names. -/
theorem dictionaryRequestsAreServed : Obligations.DictionaryRequestsAreServed := by
  intro s c i b t lim opens hroute
  have limits : t.d.tdpLimits c = lim := State.asked_tdpLimits s c
  have count : t.d.tdp.ctxCount = s.d.tdp.ctxCount := State.asked_ctxCount s c
  refine ⟨fun hready => ?read, fun l hl hready alive => ?writeExp, fun total hready alive => ?writeInit⟩
  case read =>
    rw [exec_tdpRead_served hroute hready]
    refine ⟨fun e h => congrArg (answered c) (tdpRead_missing h), fun o ho hs =>
      ⟨fun u e h => congrArg (answered c) (tdpRead_refused ho hs h), fun u l h => ?value⟩, fun o k ho hs => ?domain⟩
    case value =>
      rw [tdpRead_value ho hs h, limits]
      exact ⟨fun hl => congrArg (answered c) (if_pos hl), fun hl => congrArg (answered c) (if_neg (not_le.mpr hl))⟩
    case domain =>
      rw [tdpRead_domain ho hs, sendsDomain, count]
      refine ⟨fun ha => congrArg (answered c) (if_pos ha), fun ha hk => ?_, fun ha hk => ?_⟩
      · rw [if_neg ha, if_pos hk]
        exact ⟨fun hw => congrArg (answered c) (if_pos hw),
          fun hw => congrArg (answered c) (if_neg (Bool.eq_false_iff.mp hw))⟩
      · rw [if_neg ha, if_neg hk]
        refine ⟨fun l hv => ?_, fun l hv hb => ?_, fun hv hb => ?_⟩
        · rw [hv]
          rfl
        · rw [hv, hb]
          rfl
        · rw [hv, hb]
          rfl
  case writeExp =>
    rw [exec_tdpWriteExp_served hroute hl hready]
    refine ⟨fun e h => congrArg (answered c) (tdpWriteExp_missing alive h),
      fun o k ho hs => congrArg (answered c) (tdpWriteExp_domain alive ho hs), fun o ho hs =>
      ⟨fun long => congrArg (answered c) (tdpWriteExp_long alive ho hs (limits.symm ▸ long)), fun fits =>
        ⟨fun u e h => ?refused, fun u h own => ?written⟩⟩⟩
    case refused =>
      rw [tdpWriteExp_value alive ho hs (limits.symm ▸ fits) h]
      rfl
    case written =>
      rw [tdpWriteExp_value alive ho hs (limits.symm ▸ fits) h, Option.elim_none, jobAnswer_own own]
      rfl
  case writeInit =>
    intro ready
    have opened : answered c (opensWrite c i b total.toNat t) = ready := by
      rw [opensWrite, limits]
      rfl
    rw [exec_tdpWriteInit_served hroute hready]
    refine ⟨fun e h => congrArg (answered c) (tdpWriteInit_missing alive h),
      fun o e ho hn => congrArg (answered c) (tdpWriteInit_noWrite alive ho hn),
      fun o ho hn => ⟨fun hs => ?value, fun hs => ?ctxData, fun hs => ?attest⟩⟩
    case value =>
      rw [tdpWriteInit_value alive ho hn hs]
      exact ⟨fun h => congrArg (answered c) (if_pos h),
        fun h => (congrArg (answered c) (if_neg (not_not.mpr h))).trans opened⟩
    case ctxData =>
      rw [tdpWriteInit_ctxData alive ho hn hs, count]
      refine ⟨fun hw => ?_, fun hw h => ?_, fun hw h => ?_⟩
      · rw [hw]
        rfl
      · rw [hw, if_pos h]
        rfl
      · rw [hw, if_neg (not_not.mpr h)]
        exact opened
    case attest =>
      rw [tdpWriteInit_attest alive ho hn hs]
      exact ⟨fun h => congrArg (answered c) (if_pos h),
        fun h => (congrArg (answered c) (if_neg (not_not.mpr h))).trans opened⟩

end Sys2Proof.Machine
end

section
/-! The CAN FD port and the writing of config-memory records (R280 to R287, R292 to R297): what the errors on the bus leave
of the port, frames and their answers, and the record at the head of the queue. -/

namespace Sys2Proof.Machine

/-! ### Errors on the bus (R284) -/

/-- What frames on the bus and their errors change: the counters and the mode of the port, and what is taken of the free
values. -/
structure ErrorsOnly (d e : Dev) : Prop where
  rest : e = { d with can := e.can, freeCtr := e.freeCtr }
  can : e.can = { d.can with mode := e.can.mode, tec := e.can.tec, rec_ := e.can.rec_, cnt := e.can.cnt }

namespace ErrorsOnly
variable {d e f : Dev}

theorem refl (d : Dev) : ErrorsOnly d d := ⟨rfl, rfl⟩

theorem trans (h : ErrorsOnly d e) (g : ErrorsOnly e f) : ErrorsOnly d f := by
  refine ⟨?_, ?_⟩
  · rw [g.rest, h.rest]
  · rw [g.can, h.can]

theorem err (d : Dev) (x : CanErr) : ErrorsOnly d { d with can := d.can.err x } := by
  cases x <;> exact ⟨rfl, rfl⟩

theorem confine (d : Dev) : ErrorsOnly d { d with can := d.can.confine } := by
  refine ⟨rfl, ?_⟩
  unfold Can.confine
  split <;> rfl

theorem canErrs (l : List CanErr) (d : Dev) : ErrorsOnly d (d.canErrs l) := by
  induction l generalizing d with
  | nil => exact refl d
  | cons x l ih =>
    unfold Dev.canErrs
    split
    · exact refl d
    · dsimp only
      split
      · exact (err d x).trans ⟨rfl, rfl⟩
      · exact ((err d x).trans (confine _)).trans (ih _)

theorem canHeard (d : Dev) : ErrorsOnly d d.canHeard := by
  unfold Dev.canHeard
  split
  · exact (show ErrorsOnly d { d with can := { d.can with rec_ := d.can.rec_ - 1 } } from ⟨rfl, rfl⟩).trans (confine _)
  · exact ((show ErrorsOnly d { d with can := { d.can with rec_ := 119 + d.freeNow % 9 } } from ⟨rfl, rfl⟩).trans
      (confine _)).trans ⟨rfl, rfl⟩

section
variable (h : ErrorsOnly d e)
include h

theorem node : e.can.node = d.can.node := by rw [h.can]

theorem buf : e.can.buf = d.can.buf := by rw [h.can]

theorem cur : e.can.cur = d.can.cur := by rw [h.can]

theorem out : e.can.out = d.can.out := by rw [h.can]

theorem owed (c : Carrier) : e.owed c = d.owed c := by
  rw [h.rest]
  rfl

end
end ErrorsOnly

/-- A reset that is due counts no errors. -/
theorem Dev.canErrs_resetDue (x : Bool) (l : List CanErr) (d : Dev) :
    ({ d with resetDue := x } : Dev).canErrs l = { d.canErrs l with resetDue := x } := by
  have on (d : Dev) : ({ d with resetDue := x } : Dev).canOn = d.canOn := rfl
  induction l generalizing d with
  | nil => rfl
  | cons e l ih =>
    simp only [Dev.canErrs, on]
    split
    · rfl
    · split
      · rfl
      · exact ih { d with can := (d.can.err e).confine }

/-! ### The answer being sent (R282, R284) -/

section
variable {d : Dev}

theorem Dev.canTried_sending {r : CanReq} {f : CanFrame} (hc : d.can.cur = some r) (ho : d.can.out = some f) : d.canTried =
    Dev.canErrs { d with can := { d.can with cur := some { r with tries := r.tries.drop 1 } } } (r.tries.headD []) := by
  simp only [Dev.canTried, hc, ho]

theorem Dev.canTried_idle (h : d.can.out = none) : d.canTried = d := by
  unfold Dev.canTried
  split
  · next ho => exact absurd (h.symm.trans ho) (Option.some_ne_none _).symm
  · rfl

theorem Dev.canTried_out (d : Dev) : d.canTried.can.out = d.can.out := by
  unfold Dev.canTried
  split
  · rw [(ErrorsOnly.canErrs _ _).out]
  · rfl

theorem Dev.canTried_resetDue (x : Bool) (d : Dev) :
    ({ d with resetDue := x } : Dev).canTried = { d.canTried with resetDue := x } := by
  cases ho : d.can.out with
  | none =>
    rw [Dev.canTried_idle ho]
    exact Dev.canTried_idle (d := { d with resetDue := x }) ho
  | some f =>
    cases hc : d.can.cur with
    | none => simp only [Dev.canTried, hc]
    | some r =>
      rw [Dev.canTried_sending hc ho]
      exact (Dev.canTried_sending (d := { d with resetDue := x }) hc ho).trans (Dev.canErrs_resetDue x (r.tries.headD [])
        { d with can := { d.can with cur := some { r with tries := r.tries.drop 1 } } })

theorem State.begun_canTried_canOn (s : State) : s.begun.d.canTried.canOn = s.d.canTried.canOn := by
  rw [State.begun, Dev.canTried_resetDue]
  rfl

end

/-! ### The next request (R283) -/

section
variable {s : State}

theorem canNext_waits (h : s.d.can.cur ≠ none ∨ s.d.can.buf = [] ∨ s.d.owed 0 = true) : canNext s = s := by
  unfold canNext
  split
  · next r l hc hb =>
    have owes : s.d.owed 0 = true := (h.resolve_left fun g => g hc).resolve_left fun g => by simp [hb] at g
    exact if_pos owes
  · rfl

theorem canNext_takes {r : CanReq} {l : List CanReq} (hc : s.d.can.cur = none) (hb : s.d.can.buf = r :: l)
    (ho : s.d.owed 0 = false) : canNext s =
      tdpServe 0 r.data true { s with d := ({ s.d with can := { s.d.can with cur := some r, buf := l } }).countCan 0 } := by
  simp only [canNext, hc, hb, ho, Bool.false_eq_true, if_false]

/-! ### A frame on the bus (R281 to R283) -/

section
variable {x : CanArrival} {data : List Byte} {fd brs : Bool}

/-- The request that a frame brings. -/
def arrivedReq (x : CanArrival) (data : List Byte) (fd brs : Bool) : CanReq :=
  { data := data.take (if fd then 64 else 8), fd, brs, tries := x.tries }

theorem canFrameIn_off (h : s.d.canOn = false) : canFrameIn x data fd brs s = s := by
  simp [canFrameIn, h]

variable (h : s.d.canOn = true)
include h

theorem canFrameIn_other (hi : x.ident ≠ 0x300 + s.d.can.node) : canFrameIn x data fd brs s = { s with d := s.d.canHeard } := by
  have other : x.ident ≠ 0x300 + s.d.canHeard.can.node := by rwa [(ErrorsOnly.canHeard s.d).node]
  simp [canFrameIn, h, other]

variable (hi : x.ident = 0x300 + s.d.can.node)
include hi

theorem canFrameIn_full (hb : 4 ≤ s.d.can.buf.length) :
    canFrameIn x data fd brs s = { s with d := s.d.canHeard.countCan 2 } := by
  simp [canFrameIn, h, hi, (ErrorsOnly.canHeard s.d).node, (ErrorsOnly.canHeard s.d).buf, hb]

theorem canFrameIn_queued (hb : s.d.can.buf.length < 4) : canFrameIn x data fd brs s = canNext { s with d := { s.d.canHeard with
    can := { s.d.canHeard.can with buf := s.d.canHeard.can.buf ++ [arrivedReq x data fd brs] } } } := by
  simp [canFrameIn, h, hi, (ErrorsOnly.canHeard s.d).node, (ErrorsOnly.canHeard s.d).buf, not_le.mpr hb, arrivedReq]

end

/-! ### The response (R282, R287) -/

section
variable {f : CanFrame} (h : s.d.can.out = some f)
include h

theorem canDone_sent : canDone true s = canNext { s with d := ({ s.d with can :=
    ({ s.d.can with out := none, cur := none, sent := some f, tec := s.d.can.tec - 1 } : Can).confine }).countCan 1 } := by
  simp only [canDone, h, if_true]

theorem canDone_givenUp : canDone false s = canNext { s with d :=
    ({ s.d with can := { s.d.can with out := none, cur := none } }).countCan 3 } := by
  simp only [canDone, h, Bool.false_eq_true, if_false]

end

theorem canDone_idle {sent : Bool} (h : s.d.can.out = none) : canDone sent s = s := by
  simp only [canDone, h]

end

theorem padTo_length (n : Nat) (l : List Byte) : (padTo n l).length = n := by
  simp [padTo]
  omega

theorem padTo_take {n k : Nat} {l : List Byte} (hk : k = l.length) (hn : k ≤ n) : (padTo n l).take k = l := by
  rw [padTo, List.take_take, min_eq_left hn, hk, List.take_left]

/-! ### The commands -/

theorem exec_canRequestFrame_eq (x : CanArrival) (data : List Byte) (fd brs : Bool) (s : State) :
    exec (.canRequestFrame x data fd brs) s = done (canFrameIn x data fd brs { s with d := s.begun.d.canErrs x.errs }) := rfl

theorem exec_canResponseSent_eq (s : State) : exec .canResponseSent s =
    done (if (canAfter s).d.canOn then canDone true (canAfter s) else canAfter s) := rfl

theorem exec_canTxTimeout_eq (s : State) : exec .canTxTimeout s = done (canDone false (canAfter s)) := rfl

theorem exec_canBusoff_eq (s : State) : exec .canBusoff s =
    .next (onDev (fun d => if d.canTried.canOn then d.canTried.busOff else d.canTried) s) := rfl

theorem exec_canCntclr_eq (i : Initiator) (v : Word) (s : State) :
    exec (.canCntclr i v) s = .next (rowWrite i (chipPage 8 + 0x4) v s) := rfl

theorem exec_cfgClear_eq (i : Initiator) (v : Word) (s : State) :
    exec (.cfgClear i v) s = .next (rowWrite i (chipPage 9 + 0xC) v s) := rfl

theorem exec_cfgRecordCommitted_eq {s : State} (h : s.d.datumCounts = true) (ok : Bool) :
    exec (.cfgRecordCommitted ok) s = .next (onDevW (fun d => d.cfgCommit ok) s) := by
  have counts : s.begun.d.datumCounts = true := h
  exact onDevW_next (f := fun d => if d.datumCounts then d.cfgCommit ok else d) (if_pos counts)

/-! ### Config memory (R292, R294, R295) -/

section
variable {d : Dev} {r : CfgRec} {l : List CfgRec} (hq : d.cfg.queue = r :: l)
include hq

theorem Dev.cfgCommit_written (ha : 0 < d.cfg.areaSize) :
    d.cfgCommit true = ({ d with cfg := { d.cfg with queue := l } }).persist r := by
  simp [Dev.cfgCommit, hq, ha]

theorem Dev.cfgCommit_kept {ok : Bool} (h : ok = false ∨ d.cfg.areaSize = 0) :
    d.cfgCommit ok = d.charge (.unit (.chipBlock 9)) 7 := by
  rcases h with h | h <;> simp [Dev.cfgCommit, hq, h]

end

/-- Settles O45: frames by what the port is busy with, the answer's ends once its errors have counted, and the record at
the head of the queue. -/
theorem canFramesAndConfigRecords : Obligations.CanFramesAndConfigRecords := by
  refine ⟨fun s errs => ?frames, fun s => ?answers, fun s counts => ?config⟩
  case frames =>
    intro d0 d1 ends
    have errors : ErrorsOnly s.begun.d d0 := ErrorsOnly.canErrs errs s.begun.d
    have heard : ErrorsOnly s.begun.d d1 := errors.trans (ErrorsOnly.canHeard d0)
    have frame (ident : Nat) (tries : List (List CanErr)) (data : List Byte) (fd brs : Bool) :
        exec (.canRequestFrame ⟨ident, errs, tries⟩ data fd brs) s =
          done (canFrameIn ⟨ident, errs, tries⟩ data fd brs { s with d := d0 }) := exec_canRequestFrame_eq _ data fd brs s
    refine ⟨fun ident tries data fd brs => ⟨fun off => ?off, fun on hi => ?other⟩,
      fun on tries data fd brs => ?mine⟩
    case off => exact (frame ident tries data fd brs).trans (congrArg done (canFrameIn_off off))
    case other =>
      have ne : ident ≠ 0x300 + d0.can.node := by rwa [errors.node]
      exact (frame ident tries data fd brs).trans (congrArg done (canFrameIn_other (s := { s with d := d0 }) on ne))
    case mine =>
      intro fr c
      have ident : (0x300 + s.d.can.node) = 0x300 + d0.can.node := by rw [errors.node]; rfl
      have queued (hb : s.d.can.buf.length < 4) : exec c s =
          done (canNext { s with d := { d1 with can := { d1.can with buf := d1.can.buf ++ [fr] } } }) :=
        (frame _ tries data fd brs).trans
          (congrArg done (canFrameIn_queued (s := { s with d := d0 }) on ident (by rwa [errors.buf])))
      refine ⟨fun hb => ?full, fun hb busy => ?waits, fun hb hc ho => ?taken⟩
      case full =>
        exact (frame _ tries data fd brs).trans
          (congrArg done (canFrameIn_full (s := { s with d := d0 }) on ident (by rwa [errors.buf])))
      case waits =>
        refine (queued hb).trans (congrArg done (canNext_waits ?_))
        rcases busy with hc | ho
        · exact .inl fun none => hc (heard.cur.symm.trans none)
        · exact .inr (.inr ((heard.owed 0).trans ho))
      case taken =>
        have empty : d1.can.buf = [] := heard.buf.trans hb
        refine (queued (by rw [hb]; decide)).trans (congrArg done (canNext_takes (l := d1.can.buf) (heard.cur.trans hc) ?_
          ((heard.owed 0).trans ho)))
        rw [empty]
        rfl
  case answers =>
    intro d0 ends
    have out : d0.can.out = s.d.can.out := Dev.canTried_out s.begun.d
    have on : d0.canOn = s.d.canTried.canOn := State.begun_canTried_canOn s
    refine ⟨fun r f hc ho => Dev.canTried_sending (d := s.begun.d) hc ho, fun f hf => ?ends, fun hf => ?idle,
      ⟨fun h => ?busoff, fun h => ?off⟩, canNext_waits, fun r l hc hb ho => canNext_takes hc hb ho, fun r a m => ?frame,
      fun h => onDev_next (if_pos h), fun i v hi hv => ?cntclr⟩
    case ends =>
      intro free
      have sending : (canAfter s).d.can.out = some f := out.trans hf
      refine ⟨fun h => ?_, congrArg done (canDone_givenUp sending)⟩
      rw [exec_canResponseSent_eq]
      exact congrArg done ((if_pos h).trans (canDone_sent sending))
    case idle =>
      have after : canAfter s = s.begun := congrArg (fun d => { s with d := d }) (Dev.canTried_idle (d := s.begun.d) hf)
      have none : s.begun.d.can.out = none := hf
      refine ⟨?_, ?_⟩
      · refine (exec_canTxTimeout_eq s).trans ?_
        rw [after, canDone_idle none]
        rfl
      · refine (exec_canResponseSent_eq s).trans ?_
        rw [after, canDone_idle none, ite_self]
        rfl
    case busoff =>
      rw [exec_canBusoff_eq]
      exact onDev_next (if_pos (on.symm.trans h))
    case off =>
      rw [exec_canBusoff_eq]
      exact onDev_next (if_neg (Bool.eq_false_iff.mp (on.symm.trans h)))
    case frame =>
      intro f
      have length : (natBytes 2 a.toNat ++ m).length = m.length + 2 := by
        rw [List.length_append, natBytes_length, Nat.add_comm]
      have data : f.data = padTo (canLen r.fd (m.length + 2)) (natBytes 2 a.toNat ++ m) := by
        rw [← length]
        rfl
      rw [data, padTo_length]
      exact ⟨rfl, rfl, rfl, rfl, padTo_take length.symm⟩
    case cntclr =>
      rw [exec_canCntclr_eq]
      refine rowWrite_chipReg (k := 8) rfl (by decide) hi ?_
      exact congrArg (fun d => ({ s.begun with d := d }, Wr.done)) (if_pos hv)
  case config =>
    refine ⟨fun r l hq ha => ⟨?written, ?differs⟩, fun r l hq ha ok => ?noArea, fun i v hi hv => ?clear⟩
    case written =>
      rw [exec_cfgRecordCommitted_eq counts]
      exact onDevW_next (Dev.cfgCommit_written (d := s.begun.d) hq ha)
    case differs =>
      rw [exec_cfgRecordCommitted_eq counts]
      exact onDevW_next (Dev.cfgCommit_kept (d := s.begun.d) hq (.inl rfl))
    case noArea =>
      rw [exec_cfgRecordCommitted_eq counts]
      exact onDevW_next (Dev.cfgCommit_kept (d := s.begun.d) hq (.inr ha))
    case clear =>
      rw [exec_cfgClear_eq]
      refine rowWrite_chipReg (k := 9) rfl (by decide) hi ?_
      exact congrArg (fun c => ({ s.begun with d := { s.begun.d with cfg := c } }, Wr.done)) (if_pos hv)

end Sys2Proof.Machine
end

section
/-! What the words of firmware's packet can cost (R356, R420, R423, R426): a wrong bit is charged to its queue bank, which
can retire the bank, its region and the region's ports; the dictionary and the CAN port stand through all of it. -/

namespace Sys2Proof.Machine

/-- A failure charged to a unit is noted, and permanent where PERMCOUNT is reached (R420, R421). -/
theorem Dev.charge_unit (d : Dev) (u : FaultTarget) (cause : Nat) : d.charge (.unit u) cause =
    if (d.noteFailure (.unit u) cause).1.permCount ≤ (d.noteFailure (.unit u) cause).2 ∧ u ≠ .chipBlock 9 then
      ((d.noteFailure (.unit u) cause).1.logFault 2 (.unit u) cause (d.noteFailure (.unit u) cause).2).removeChild u cause
    else (d.noteFailure (.unit u) cause).1 := rfl

/-- The dictionary's carriers and counters and the CAN port have not changed. -/
structure FrontStands (d e : Dev) : Prop where
  tdp : e.tdp = d.tdp
  can : e.can = d.can

namespace FrontStands

theorem refl (d : Dev) : FrontStands d d := ⟨rfl, rfl⟩

theorem trans {a b c : Dev} (h : FrontStands a b) (g : FrontStands b c) : FrontStands a c :=
  ⟨g.tdp.trans h.tdp, g.can.trans h.can⟩

theorem ite {d a b : Dev} {c : Prop} [Decidable c] (ha : FrontStands d a) (hb : FrontStands d b) :
    FrontStands d (if c then a else b) := by
  split
  · exact ha
  · exact hb

theorem foldl {α : Type} {f : Dev → α → Dev} (hf : ∀ d x, FrontStands d (f d x)) (l : List α) (d : Dev) :
    FrontStands d (l.foldl f d) := by
  induction l generalizing d with
  | nil => exact refl d
  | cons x l ih => exact (hf d x).trans (ih (f d x))

theorem of_rxOnly {d e : Dev} (h : RxOnly d e) : FrontStands d e := ⟨by rw [h.rest], by rw [h.rest]⟩

theorem modSyn (d : Dev) (p : PortId) (f : Synth → Synth) : FrontStands d (d.modSyn p f) := ⟨rfl, rfl⟩

theorem modTx (d : Dev) (p : PortId) (f : Tx → Tx) : FrontStands d (d.modTx p f) := ⟨rfl, rfl⟩

theorem modSb (d : Dev) (p : PortId) (f : SlotBook → SlotBook) : FrontStands d (d.modSb p f) := ⟨rfl, rfl⟩

theorem modCal (d : Dev) (p : PortId) (f : Cal → Cal) : FrontStands d (d.modCal p f) := ⟨rfl, rfl⟩

theorem modRx (d : Dev) (p : PortId) (f : Rx → Rx) : FrontStands d (d.modRx p f) := ⟨rfl, rfl⟩

theorem modRegion (d : Dev) (r : RegionId) (f : Region → Region) : FrontStands d (d.modRegion r f) := ⟨rfl, rfl⟩

theorem modRegFlt (d : Dev) (r : RegionId) (f : RegFault → RegFault) : FrontStands d (d.modRegFlt r f) := ⟨rfl, rfl⟩

/-! ### Queues and what is reported through them -/

theorem wakeDomain (d : Dev) (r : RegionId) (n : Nat) : FrontStands d (d.wakeDomain r n) := by
  unfold Dev.wakeDomain
  exact ite ⟨rfl, rfl⟩ (refl d)

theorem producePacket {d e : Dev} {q : QueueId} {ws : List Word64} (h : d.producePacket q ws = some e) : FrontStands d e := by
  unfold Dev.producePacket at h
  split at h
  · cases h
    exact (wakeDomain d _ _).trans ⟨rfl, rfl⟩
  · cases h

theorem lateRecord (d : Dev) (p : PortId) (k : Stake) (slot cause : Nat) (refused : Bool) :
    FrontStands d (d.lateRecord p k slot cause refused) := by
  unfold Dev.lateRecord
  dsimp only
  split
  · next h => exact producePacket h
  · exact modSb d p _

theorem dnStatus (d : Dev) (r : RegionId) (tag ctx result fcnt : Nat) : FrontStands d (d.dnStatus r tag ctx result fcnt) := by
  unfold Dev.dnStatus
  dsimp only
  split
  · next h => exact producePacket h
  · exact modRegFlt d r _

/-! ### A port that stops (R204, R423) -/

theorem clearCal (d : Dev) (p : PortId) : FrontStands d (d.clearCal p) := ite (modCal d p _) (refl d)

theorem calMoved (d : Dev) (p : PortId) (f : Nat) : FrontStands d (d.calMoved p f) := ite (clearCal d p) (refl d)

theorem beginHop (d : Dev) (p : PortId) (f : Nat) (k : HopKind × Option (Fin 64)) (wake : Bool) :
    FrontStands d (d.beginHop p f k wake) :=
  ((calMoved d p f).trans (modSyn _ p _)).trans (of_rxOnly (RxOnly.hopRx _ p))

theorem hop (d : Dev) (p : PortId) (f : Nat) : FrontStands d (d.hop p f) := by
  unfold Dev.hop
  refine ite (modSyn d p _) (ite (calMoved d p f) ?_)
  split
  · exact (modSyn d p _).trans (beginHop _ p f _ false)
  · exact modSyn d p _

theorem femTo (d : Dev) (p : PortId) (x : FemState) : FrontStands d (d.femTo p x) := modTx d p _

theorem releaseBuffer (d : Dev) (p : PortId) (n : SlotId) : FrontStands d (d.releaseBuffer p n) := by
  unfold Dev.releaseBuffer
  split
  · exact ite (refl d) (modTx d p _)
  · exact modTx d p _

theorem returnHop (d : Dev) (p : PortId) : FrontStands d (d.returnHop p) := by
  unfold Dev.returnHop
  exact trans (ite (hop d p _) (refl d)) (modTx _ p _)

theorem abandonTx (d : Dev) (p : PortId) : FrontStands d (d.abandonTx p) := by
  have released : FrontStands d (match (d.ports[p]).tx.interval with | some n => d.releaseBuffer p n | none => d) := by
    split
    · exact releaseBuffer d p _
    · exact refl d
  unfold Dev.abandonTx
  exact ite (modTx d p _) (((released.trans (modTx _ p _)).trans (ite (femTo _ p _) (refl _))).trans (returnHop _ p))

theorem standDown (d : Dev) (p : PortId) (n : SlotId) (k : Stake) (cause : Nat) : FrontStands d (d.standDown p n k cause) := by
  have counted : FrontStands d
      ((((d.setStake p n none).dropPrepared p n).modSb p fun b => { b with txLate := true }).countSb p .txlate) :=
    ⟨rfl, rfl⟩
  unfold Dev.standDown
  exact (counted.trans (ite (lateRecord _ p k n.val cause false) (refl _))).trans (ite (abandonTx _ p) (refl _))

theorem linkLate (d : Dev) (p : PortId) (k : Stake) (lt : LinkTx) (cause : Nat) : FrontStands d (d.linkLate p k lt cause) := by
  unfold Dev.linkLate
  refine ite ?_ (modTx d p _)
  have member (d : Dev) (q : PortId) (x : SlotId × Stake) (h : Prop) [Decidable h] :
      FrontStands d (if h then (d.standDown q x.1 x.2 cause).countTx q .mariout else d) :=
    ite ((standDown d q _ _ _).trans (modTx _ q _)) (refl d)
  refine trans ?_ (foldl (fun d q => ite (refl d) (foldl (fun d x => member d q x _) _ d)) _ _)
  split
  · exact ite (dnStatus d _ _ _ _ _) (refl d)
  · exact refl d

theorem reportLate (d : Dev) (p : PortId) (k : Stake) (slot cause : Nat) (refused : Bool) :
    FrontStands d (d.reportLate p k slot cause refused) := by
  have counted : FrontStands d (if k.action = 1 then (d.modSb p fun b => { b with txLate := true }).countSb p .txlate
      else (d.modSb p fun b => { b with late := true }).countSb p .late) := ite ⟨rfl, rfl⟩ ⟨rfl, rfl⟩
  unfold Dev.reportLate
  refine counted.trans ?_
  dsimp only
  generalize (if k.action = 1 then _ else _ : Dev) = e
  split
  · exact (linkLate _ p k _ cause).trans (ite (lateRecord _ p k slot cause refused) (refl _))
  · exact ite (refl _) (lateRecord _ p k slot cause refused)

theorem calLate (d : Dev) (p : PortId) (k : Stake) (cause : Nat) : FrontStands d (d.calLate p k cause) :=
  ite (modCal d p _) (refl d)

theorem endLate (d : Dev) (p : PortId) (n : SlotId) (k : Stake) (cause : Nat) : FrontStands d (d.endLate p n k cause) := by
  have freed : FrontStands d ((d.setStake p n none).dropPrepared p n) := ⟨rfl, rfl⟩
  unfold Dev.endLate
  exact ((freed.trans (reportLate _ p k n.val cause false)).trans (calLate _ p k cause)).trans
    (ite (abandonTx _ p) (ite (hop _ p _) (refl _)))

theorem endStakes (d : Dev) (p : PortId) (cause : Nat) : FrontStands d (d.endStakes p cause) := by
  unfold Dev.endStakes
  refine foldl (fun d x => ?_) _ _
  exact ite (refl d) (endLate d p x.1 x.2 cause)

theorem portOff (d : Dev) (p : PortId) : FrontStands d (d.portOff p) := by
  have stopped : FrontStands d ((((d.stopFrames p).abortOwnLanes p).leaveCombines p).abandonGauge p) :=
    of_rxOnly ((((RxOnly.stopFrames _ _).trans (RxOnly.abortJobs _ _)).trans (RxOnly.leaveCombines _ _)).trans
      (RxOnly.abandonGauge _ _))
  unfold Dev.portOff
  exact ((((stopped.trans (endStakes _ p 11)).trans (modRx _ p _)).trans (femTo _ p .off)).trans
    (of_rxOnly (RxOnly.serveLanes _ _))).trans (of_rxOnly (RxOnly.gcSlices _ _))

theorem portCut (d : Dev) (p : PortId) : FrontStands d (d.portCut p) :=
  (((((portOff d p).trans (modSb _ p _)).trans (modTx _ p _)).trans (modRx _ p _)).trans (modCal _ p _)).trans (femTo _ p .off)

theorem cutPort (d : Dev) (p : PortId) : FrontStands d (d.cutPort p) := (portCut d p).trans (modRx _ p _)

theorem cutCore (d : Dev) (c : CoreId) : FrontStands d (d.cutCore c) := ⟨rfl, rfl⟩

/-! ### Retirement (R423, R426, R427) -/

theorem persist (d : Dev) (r : CfgRec) : FrontStands d (d.persist r) := by
  unfold Dev.persist
  dsimp only
  split
  · exact ite ⟨rfl, rfl⟩ ⟨rfl, rfl⟩
  · exact ⟨rfl, rfl⟩

theorem chipReset (d : Dev) (c : Charged) (cause : Nat) : FrontStands d (d.chipReset c cause) :=
  (foldl persist _ d).trans ⟨rfl, rfl⟩

theorem listRetired (d : Dev) (c : Charged) : FrontStands d (d.listRetired c) := ite (refl d) ⟨rfl, rfl⟩

theorem noteRetired (d : Dev) (c : Charged) (k cause : Nat) : FrontStands d (d.noteRetired c k cause) := by
  have logged : FrontStands d
      (({ d with flt := { d.flt with cntPerm := d.flt.cntPerm + 1 } }.chipPflag k).logFault 3 c cause 0) := ⟨rfl, rfl⟩
  unfold Dev.noteRetired
  refine trans ?_ (listRetired _ c)
  split
  · exact logged.trans (modRegFlt _ _ _)
  · exact logged

theorem emptyChain (d : Dev) (n : CtxId) : FrontStands d (d.emptyChain n) := ⟨rfl, rfl⟩

theorem loseChains (d : Dev) (r : RegionId) : FrontStands d (d.loseChains r) :=
  foldl emptyChain _ d

theorem retireRegion (d : Dev) (r : RegionId) (cause : Nat) : FrontStands d (d.retireRegion r cause) := by
  unfold Dev.retireRegion
  refine ite (refl d) (trans ?_ (ite (chipReset _ _ cause) (refl _)))
  exact ((((noteRetired d _ 5 cause).trans (foldl cutPort _ _)).trans (foldl cutCore _ _)).trans (loseChains _ r)).trans
    (modRegion _ r _)

theorem failPushes (d : Dev) (q : QueueId) : FrontStands d (d.failPushes q) := ⟨rfl, rfl⟩

theorem dropBank (d : Dev) (r : RegionId) (b : Fin 8) : FrontStands d (d.dropBank r b) :=
  (modRegion d r _).trans (foldl (fun d i => failPushes d (queueOf r i)) _ _)

theorem retireBank (d : Dev) (r : RegionId) (b : Fin 8) (cause : Nat) : FrontStands d (d.retireBank r b cause) := by
  unfold Dev.retireBank
  exact ite (refl d) (((noteRetired d _ 4 cause).trans (dropBank _ r b)).trans (ite (retireRegion _ r 8) (refl _)))

/-! ### A failure of a queue bank (R420, R421) -/

theorem transientFlag (d : Dev) (r : RegionId) (b : Fin 8) (cause : Nat) :
    FrontStands d (d.transientFlag (.unit (.queueBank r b)) cause) := by
  unfold Dev.transientFlag
  dsimp only
  split <;> exact ⟨rfl, rfl⟩

theorem track (d : Dev) (r : RegionId) (b : Fin 8) : FrontStands d (d.track (.unit (.queueBank r b))).1 := by
  unfold Dev.track
  exact ite ⟨rfl, rfl⟩ ⟨rfl, rfl⟩

theorem logFault (d : Dev) (k : Nat) (c : Charged) (cause n : Nat) : FrontStands d (d.logFault k c cause n) := ⟨rfl, rfl⟩

theorem noteFailure (d : Dev) (r : RegionId) (b : Fin 8) (cause : Nat) :
    FrontStands d (d.noteFailure (.unit (.queueBank r b)) cause).1 := by
  have counted (d : Dev) : FrontStands d (({ d with flt := { d.flt with cntTrans := d.flt.cntTrans + 1 } }).modRegFlt r
      fun f => { f with cntTrans := f.cntTrans + 1 }) := ⟨rfl, rfl⟩
  exact (((transientFlag d r b cause).trans (counted _)).trans (track _ r b)).trans (logFault _ 1 _ cause _)

theorem charge (d : Dev) (r : RegionId) (b : Fin 8) (cause : Nat) : FrontStands d (d.charge (.unit (.queueBank r b)) cause) := by
  rw [Dev.charge_unit]
  exact ite (((noteFailure d r b cause).trans (logFault _ 2 _ cause _)).trans (retireBank _ r b cause)) (noteFailure d r b cause)

theorem modQueue (d : Dev) (q : QueueId) (f : Queue → Queue) : FrontStands d (d.modQueue q f) := ⟨rfl, rfl⟩

theorem takeWord (d : Dev) (q : QueueId) : FrontStands d (d.takeWord q) := by
  unfold Dev.takeWord
  generalize (d.queue q).headBank = b
  dsimp only
  split
  · exact refl d
  · split
    · exact modQueue d q _
    · exact (modQueue d q _).trans (charge _ _ _ 2)
    · exact (modQueue d q _).trans (charge _ _ _ 3)

theorem takeWords (d : Dev) (q : QueueId) (n : Nat) : FrontStands d (d.takeWords q n) := by
  induction n with
  | zero => exact wakeDomain d _ 8
  | succ n ih => exact ih.trans (takeWord _ q)

end FrontStands
end Sys2Proof.Machine
end

section
/-! Segmented transfers (R272 to R275, R310, R313) and the answers of firmware (R278): what a message of a transfer makes of
the transfer that is open on its carrier, and what becomes of the packet at the head of the answer queue. -/

namespace Sys2Proof.Machine

/-! ### From the command to the transfer -/

section
variable {s : State} {c : Carrier} (hfw : (s.d.tdp.car[c]).fwXfer = none)
include hfw

/-- With no forwarded transfer open, a message of a transfer is the dispatcher's own. -/
theorem inXfer_own (m : List Byte) (f : State → Answer) : inXfer c m f s.heard = f s.heard := by
  have none : (s.heard.d.tdp.car[c]).fwXfer = none := hfw
  simp only [inXfer, none]

theorem exec_tdpSegReq_served {q : Byte} (h : s.tdpReady c [0x42#8, q]) :
    exec (.tdpSegReq c q) s = answered c (tdpSegReq c q s.heard) := by
  have parsed : parseTdp (s.d.tdpLimits c) [0x42#8, q] = .segReq q := parseTdp_segReq _ [] q
  refine (tdpRow_parse h).trans ?_
  rw [parsed]
  exact congrArg (answered c) (inXfer_own hfw _ _)

theorem exec_tdpAbort_served {i : BitVec 16} {b e : Byte} (h : s.tdpReady c ([0xC0#8] ++ natBytes 2 i.toNat ++ [b, e])) :
    exec (.tdpAbort c i b e) s = answered c (tdpAbort c i b e s.heard) := by
  have parsed : parseTdp (s.d.tdpLimits c) ([0xC0#8] ++ natBytes 2 i.toNat ++ [b, e]) = .abort i b e := parseTdp_abort _ i b [] e
  refine (tdpRow_parse h).trans ?_
  rw [parsed]
  exact congrArg (answered c) (inXfer_own hfw _ _)

theorem exec_tdpSeg_served {last : Bool} {q : Byte} {l : List Byte} (h1 : 1 ≤ l.length) (h255 : l.length ≤ 255)
    (hw : l.length ≤ (s.d.tdpLimits c).wseg) (h : s.tdpReady c (msgSeg last q l)) :
    exec (if last then Instr.tdpSegLast c q l else .tdpSeg c q l) s = answered c (tdpSeg c last q l true s.heard) := by
  have row : exec (if last then Instr.tdpSegLast c q l else .tdpSeg c q l) s = .next (tdpRow c (msgSeg last q l) true s) := by
    cases last <;> rfl
  have parsed : parseTdp (s.d.tdpLimits c) (msgSeg last q l) = .seg last q l := by
    rw [← List.append_nil (msgSeg last q l)]
    exact parseTdp_msgSeg _ last q [] h255 h1 hw
  refine (row.trans (tdpRow_parse h)).trans ?_
  rw [parsed]
  exact congrArg (answered c) (inXfer_own hfw _ _)

end

/-! ### No transfer (R272) -/

section
variable {t : State} {c : Carrier} (hx : (t.d.tdp.car[c]).xfer = none)
include hx

theorem tdpAbort_none (i : BitVec 16) (b e : Byte) : tdpAbort c i b e t = (t, some (abortMsg i b 9)) := by
  simp only [tdpAbort, hx]

variable (ht : (t.d.tdp.car[c]).timedOut = none)
include ht

theorem tdpSegReq_none (q : Byte) : tdpSegReq c q t = (t, some (abortMsg 0 0 9)) := by
  simp only [tdpSegReq, hx, ht]

theorem tdpSeg_none (last : Bool) (q : Byte) (l : List Byte) (ok : Bool) :
    tdpSeg c last q l ok t = (t, some (abortMsg 0 0 9)) := by
  simp only [tdpSeg, hx, ht]

end

/-! ### SEG_REQ (R273, R310) -/

/-- The SEQ that a transfer expects next. -/
def Xfer.next (x : Xfer) : Byte := match x.last with | some q => q + 1 | none => 0

/-- The next n bytes `l` of a read leave, SEG_LAST once they are the last of the value; `rest` stays with the transfer. -/
def sendsSeg (c : Carrier) (x : Xfer) (q : Byte) (n total : Nat) (l rest : List Byte) (t : State) : Answer :=
  let m := msgSeg (total ≤ x.pos + n) q l
  ({ t with d := t.d.putXfer c { x with last := some q, lastResp := m, pos := x.pos + n, at_ := t.d.now, data := rest } }, some m)

section
variable {t : State} {c : Carrier} {x : Xfer} (hx : (t.d.tdp.car[c]).xfer = some x)
include hx

theorem tdpAbort_open {i : BitVec 16} {b e : Byte} (hd : x.done = false) :
    tdpAbort c i b e t = aborts c x.index x.sub e.toNat t := by
  simp only [tdpAbort, hx, hd, Bool.false_eq_true, if_false]

variable {q : Byte} (hw : x.write = false)
include hw

theorem tdpSegReq_repeats (hl : x.last = some q) :
    tdpSegReq c q t = ({ t with d := t.d.putXfer c { x with at_ := t.d.now } }, some x.lastResp) := by
  simp only [tdpSegReq, hx, hw, hl, Bool.false_eq_true, if_false, if_true]
  rfl

variable (hl : x.last ≠ some q)
include hl

theorem tdpSegReq_wrongSeq (hq : q ≠ x.next) : tdpSegReq c q t = aborts c x.index x.sub 8 t := by
  have wrong : x.done = true ∨ q ≠ x.next := .inr hq
  unfold tdpSegReq
  rw [hx]
  dsimp only
  rw [hw, if_neg Bool.false_ne_true, if_neg hl]
  exact if_pos wrong

variable (hq : q = x.next) (hd : x.done = false) {total : Nat} (ht : x.total = some total)
include hq hd ht

theorem tdpSegReq_contexts (hc : x.isCtx = true) {l : List Byte} {u : State}
    (hf : ctxFill (min (t.d.tdpLimits c).rseg (total - x.pos)) 5 (x.ctxSel + (x.pos + x.data.length) / 64) x.data t =
      (u, some l)) :
    tdpSegReq c q t = sendsSeg c x q (min (t.d.tdpLimits c).rseg (total - x.pos)) total
      (l.take (min (t.d.tdpLimits c).rseg (total - x.pos))) (l.drop (min (t.d.tdpLimits c).rseg (total - x.pos))) u := by
  have read : ¬ x.write = true := Bool.eq_false_iff.mp hw
  have right : ¬ (x.done = true ∨ q ≠ x.next) := by simp [hd, hq]
  have sum : x.total.getD 0 = total := by rw [ht]; rfl
  unfold tdpSegReq
  rw [hx]
  dsimp only
  rw [if_neg read, if_neg hl]
  refine (if_neg right).trans ?_
  rw [hc, if_pos rfl, sum, hf]
  rfl

theorem tdpSegReq_data (hc : x.isCtx = false) :
    tdpSegReq c q t = sendsSeg c x q (min (t.d.tdpLimits c).rseg (total - x.pos)) total
      (slice x.data x.pos (min (t.d.tdpLimits c).rseg (total - x.pos))) x.data t := by
  have read : ¬ x.write = true := Bool.eq_false_iff.mp hw
  have right : ¬ (x.done = true ∨ q ≠ x.next) := by simp [hd, hq]
  have sum : x.total.getD 0 = total := by rw [ht]; rfl
  unfold tdpSegReq
  rw [hx]
  dsimp only
  rw [if_neg read, if_neg hl]
  refine (if_neg right).trans ?_
  rw [hc, sum]
  rfl

end

/-! ### SEG and SEG_LAST (R274, R310, R313) -/

/-- A transfer once a segment of n bytes with SEQ q is acknowledged. -/
def Xfer.took (x : Xfer) (q : Byte) (n now : Nat) : Xfer :=
  { x with last := some q, at_ := now, pos := x.pos + n, lastResp := [0x46#8, q] }

/-- A transfer once its last segment has written the value. -/
def Xfer.wrote (x : Xfer) (q : Byte) (n now : Nat) : Xfer := { x.took q n now with data := [], lastResp := [0x44#8] }

/-- A transfer goes on, and its last response leaves. -/
def goesOn (c : Carrier) (x : Xfer) (u : State) : Answer := ({ u with d := u.d.putXfer c x }, some x.lastResp)

/-- A transfer of CTXDATA writes the contexts that are complete; its last segment brings the sum to TOTAL (R310). -/
def takesContexts (c : Carrier) (x : Xfer) (last : Bool) (q : Byte) (l : List Byte) (t : State) : Answer :=
  let r := ctxDrain 5 (x.ctxSel + x.pos / 64) (x.data ++ l.take (x.total.getD 0 - x.pos)) t
  if last && decide (x.pos + l.length ≠ x.total.getD 0) then aborts c x.index x.sub 6 r.1
  else if last then goesOn c (x.wrote q l.length t.d.now) r.1
  else goesOn c { x.took q l.length t.d.now with data := r.2 } r.1

/-- The whole value goes to the attestation engine (R313) or to the object. -/
def appliesValue (c : Carrier) (x : Xfer) (v : List Byte) (ok : Bool) (z : Xfer) (t : State) : Answer :=
  if x.index = 0x6010 then
    match t.d.attDict t.ram c v with
    | (d, some e) => aborts c x.index x.sub e { t with d := d }
    | (d, none) => ({ t with d := d.putXfer c z }, none)
  else
    match objAt t.d x.index.toNat x.sub.toNat with
    | .error e => aborts c x.index x.sub e t
    | .ok o =>
      match objWrite o c x.index x.sub v ok t with
      | (s, some e) => aborts c x.index x.sub e s
      | (s, none) => goesOn c z s

/-- Any other transfer keeps its bytes until the last segment brings the sum to TOTAL (R274). -/
def takesBytes (c : Carrier) (x : Xfer) (last : Bool) (q : Byte) (l : List Byte) (ok : Bool) (t : State) : Answer :=
  if last && decide (x.pos + l.length ≠ x.total.getD 0) then aborts c x.index x.sub 6 t
  else if !last then goesOn c { x.took q l.length t.d.now with data := x.data ++ l } t
  else appliesValue c x (x.data ++ l) ok (x.wrote q l.length t.d.now) t

section
variable {t : State} {c : Carrier} {x : Xfer} {last ok : Bool} {q : Byte} {l : List Byte}
  (hx : (t.d.tdp.car[c]).xfer = some x) (hw : x.write = true)
include hx hw

theorem tdpSeg_repeats (hl : x.last = some q) : tdpSeg c last q l ok t = goesOn c { x with at_ := t.d.now } t := by
  simp only [tdpSeg, hx, hw, hl, Bool.not_true, Bool.false_eq_true, if_false, if_true]
  rfl

variable (hl : x.last ≠ some q) (hd : x.done = false)
include hl hd

theorem tdpSeg_wrongSeq (hq : q ≠ x.next) : tdpSeg c last q l ok t = aborts c x.index x.sub 8 t := by
  have write : ¬ (!x.write) = true := by rw [hw]; decide
  have going : ¬ x.done = true := Bool.eq_false_iff.mp hd
  unfold tdpSeg
  rw [hx]
  dsimp only
  rw [if_neg write, if_neg hl, if_neg going]
  exact if_pos hq

variable (hq : q = x.next)
include hq

/-- The segment that is expected next, of a transfer that is not the image's. -/
theorem tdpSeg_expected (hi : x.index ≠ 0x9010) : tdpSeg c last q l ok t =
    if x.isCtx then takesContexts c x last q l t else takesBytes c x last q l ok t := by
  have write : ¬ (!x.write) = true := by rw [hw]; decide
  have going : ¬ x.done = true := Bool.eq_false_iff.mp hd
  unfold tdpSeg
  rw [hx]
  dsimp only
  rw [if_neg write, if_neg hl, if_neg going, if_neg hi]
  refine (if_neg (not_not.mpr hq)).trans ?_
  rw [Nat.add_sub_cancel]
  rfl

end

section
variable {t : State} {c : Carrier} {x z : Xfer} {q : Byte} {l v : List Byte} {ok : Bool}

theorem appliesValue_attest_refused {d : Dev} {e : Nat} (hi : x.index = 0x6010) (h : t.d.attDict t.ram c v = (d, some e)) :
    appliesValue c x v ok z t = aborts c x.index x.sub e { t with d := d } := by
  simp only [appliesValue, hi, h, if_true]

theorem appliesValue_attest_waits {d : Dev} (hi : x.index = 0x6010) (h : t.d.attDict t.ram c v = (d, none)) :
    appliesValue c x v ok z t = ({ t with d := d.putXfer c z }, none) := by
  simp only [appliesValue, hi, h, if_true]

theorem appliesValue_written {o : Obj} {u : State} (hi : x.index ≠ 0x6010) (ho : objAt t.d x.index.toNat x.sub.toNat = .ok o)
    (h : objWrite o c x.index x.sub v ok t = (u, none)) : appliesValue c x v ok z t = goesOn c z u := by
  simp only [appliesValue, hi, ho, h, if_false]

variable {total : Nat} (ht : x.total = some total)
include ht

theorem takesBytes_last (hs : x.pos + l.length = total) : takesBytes c x true q l ok t =
    appliesValue c x (x.data ++ l) ok (x.wrote q l.length t.d.now) t := by
  simp [takesBytes, ht, hs]

theorem takesBytes_wrongSum (hs : x.pos + l.length ≠ total) : takesBytes c x true q l ok t = aborts c x.index x.sub 6 t := by
  simp [takesBytes, ht, hs]

theorem takesContexts_last (hs : x.pos + l.length = total) : takesContexts c x true q l t = goesOn c (x.wrote q l.length t.d.now)
    (ctxDrain 5 (x.ctxSel + x.pos / 64) (x.data ++ l.take (x.total.getD 0 - x.pos)) t).1 := by
  simp [takesContexts, ht, hs]

theorem takesContexts_wrongSum (hs : x.pos + l.length ≠ total) : takesContexts c x true q l t = aborts c x.index x.sub 6
    (ctxDrain 5 (x.ctxSel + x.pos / 64) (x.data ++ l.take (x.total.getD 0 - x.pos)) t).1 := by
  simp [takesContexts, ht, hs]

end

theorem Xfer.index_of_isCtx {x : Xfer} (h : x.isCtx = true) : x.index ≠ 0x9010 := by
  have index : x.index = 0x5100 := by
    simp [Xfer.isCtx] at h
    exact h.1
  rw [index]
  decide

/-! ### 1 s without a message (R272) -/

theorem exec_tdpXferTimeout_open {s : State} {c : Carrier} {x : Xfer} (hx : (s.d.tdp.car[c]).xfer = some x) :
    exec (.tdpXferTimeout c) s = .next (onDev (fun d => ((d.until_ (x.at_ + secTicks)).closeXfer c).modCarrier c fun k =>
      { k with timedOut := if x.done then none else some (x.index, x.sub) }) s) := by
  have late (n : Nat) : ((s.d.until_ n).tdp.car[c]).xfer = some x := hx
  refine onDev_next ?_
  rw [hx]
  dsimp only
  rw [Dev.xferTimeout, late]

/-! ### Firmware's answers (R278) -/

theorem exec_tdpFwTimeout_awaited {s : State} {c : Carrier} {n i : BitVec 16} {b : Byte} {at_ : Nat}
    (h : (s.d.tdp.car[c]).fw = some (n, i, b, at_)) : exec (.tdpFwTimeout c) s =
      done (canNext { s with d := ((s.begun.d.until_ at_).noFwResp c).respond c (abortMsg i b 0x0E) }) := by
  refine congrArg Host.Outcome.next ?_
  rw [h]

theorem exec_tdpFwAnswer_eq (s : State) : exec .tdpFwAnswer s = done (canNext { s with d := s.begun.d.fwAnswer }) := rfl

/-- The queue of firmware's answers (R296). -/
def Dev.rspQueue (d : Dev) : QueueId := queueOf 0 (Fin.ofNat 32 (fld d.tdp.fwctl 16 5))

/-- A packet is discarded and counted. -/
def Dev.countWrong (d : Dev) : Dev := { d with tdp := { d.tdp with cnt := d.tdp.cnt.set 3 (d.tdp.cnt[3] + 1) } }

theorem FrontStands.awaits {d e : Dev} (h : FrontStands d e) (n : BitVec 16) : e.awaits n = d.awaits n := by
  rw [Dev.awaits, Dev.awaits, h.tdp]

theorem FrontStands.tdpLimits {d e : Dev} (h : FrontStands d e) (c : Carrier) : e.tdpLimits c = d.tdpLimits c :=
  Dev.tdpLimits_congr h.can c

section
variable {d : Dev}

theorem Dev.fwAnswer_none (h : d.queueUsable d.rspQueue = false ∨ (d.queue d.rspQueue).packet = none) : d.fwAnswer = d := by
  unfold Dev.fwAnswer
  dsimp only
  split
  · rfl
  · next hu =>
    have none : (d.queue d.rspQueue).packet = none := h.resolve_left fun g => hu (by rw [Dev.rspQueue] at g; rw [g]; rfl)
    rw [Dev.rspQueue] at none
    rw [none]

/-- What a packet that is taken comes to: the answer that its SERIAL and its length make it, or none. -/
def Dev.matchAnswer (e : Dev) (w0 : Word64) (m : List Byte) : Dev :=
  match e.awaits (w0.setWidth 16) with
  | none => e.countWrong
  | some c =>
    if fld64 w0 18 9 = 0 ∨ (e.tdpLimits c).resp < fld64 w0 18 9 then e.countWrong
    else match (e.tdp.car[c]).fw with
      | some (_, i, b, _) => (e.modCarrier c fun k => { k with fw := none, fwXfer := fwAfter m i b k.fwXfer }).respond c m
      | none => e.countWrong

/-- The message of a packet: as many bytes as word 0 says. -/
def answerBytes (ws : List QWord) : List Byte :=
  padTo (fld64 ((ws.map (·.value)).headD 0) 18 9) (bytesOf64 ((ws.map (·.value)).drop 1))

theorem Dev.fwAnswer_taken {ws : List QWord} (hu : d.queueUsable d.rspQueue = true)
    (hp : (d.queue d.rspQueue).packet = some ws) :
    d.fwAnswer = (d.takeWords d.rspQueue ws.length).matchAnswer ((ws.map (·.value)).headD 0) (answerBytes ws) := by
  have usable : ¬ (!d.queueUsable d.rspQueue) = true := by rw [hu]; decide
  rw [Dev.rspQueue] at hp
  unfold Dev.fwAnswer
  refine (if_neg usable).trans ?_
  rw [hp]
  rfl

variable {e : Dev} (stands : FrontStands d e) {w0 : Word64} {m : List Byte}
include stands

theorem Dev.matchAnswer_discards (h : d.awaits (w0.setWidth 16) = none ∨ fld64 w0 18 9 = 0 ∨
    ∃ c, d.awaits (w0.setWidth 16) = some c ∧ (d.tdpLimits c).resp < fld64 w0 18 9) : e.matchAnswer w0 m = e.countWrong := by
  unfold Dev.matchAnswer
  rw [stands.awaits]
  split
  · rfl
  · next c ha =>
    refine if_pos ?_
    rcases h with h | h | ⟨k, hk, hr⟩
    · exact absurd (ha.symm.trans h) (Option.some_ne_none c)
    · exact .inl h
    · cases ha.symm.trans hk
      exact .inr (by rwa [stands.tdpLimits])

theorem Dev.matchAnswer_leaves {c : Carrier} (ha : d.awaits (w0.setWidth 16) = some c) {k i : BitVec 16} {b : Byte} {at_ : Nat}
    (hf : (d.tdp.car[c]).fw = some (k, i, b, at_)) (h1 : 1 ≤ fld64 w0 18 9) (hr : fld64 w0 18 9 ≤ (d.tdpLimits c).resp) :
    e.matchAnswer w0 m = (e.modCarrier c fun x => { x with fw := none, fwXfer := fwAfter m i b x.fwXfer }).respond c m := by
  have fits : ¬ (fld64 w0 18 9 = 0 ∨ (e.tdpLimits c).resp < fld64 w0 18 9) := by
    rw [stands.tdpLimits]
    omega
  have awaited : (e.tdp.car[c]).fw = some (k, i, b, at_) := by rw [stands.tdp, hf]
  simp only [Dev.matchAnswer, stands.awaits, ha, fits, awaited, if_false]

end

/-- Settles O42: a message by the transfer that is open on its carrier, a packet by the carrier that awaits it. -/
theorem transfersAndFirmwareAnswers : Obligations.TransfersAndFirmwareAnswers := by
  refine ⟨fun s c hfw => ?transfers, fun s => ⟨fun c n i b at_ h => exec_tdpFwTimeout_awaited h, fun q hq => ?firmware⟩⟩
  case transfers =>
    intro t put
    refine ⟨fun hx ht => ⟨fun q h => ?noneRead, fun q l h1 h255 hw h => ?noneWrite, fun i b e h => ?noneAbort⟩,
      fun x hx => ?opened⟩
    case noneRead => exact (exec_tdpSegReq_served hfw h).trans (congrArg (answered c) (tdpSegReq_none (t := t) hx ht q))
    case noneWrite =>
      exact (exec_tdpSeg_served (last := false) hfw h1 h255 hw h).trans
        (congrArg (answered c) (tdpSeg_none (t := t) hx ht false q l true))
    case noneAbort => exact (exec_tdpAbort_served hfw h).trans (congrArg (answered c) (tdpAbort_none (t := t) hx i b e))
    case opened =>
      have here : (t.d.tdp.car[c]).xfer = some x := hx
      intro next
      refine ⟨fun i b e hd h => ?abort, fun q hw h => ?segReq, fun q l hw h1 h255 hlim => ?seg,
        fun q l hw h1 h255 hlim hl hd hq hc => ?contexts, exec_tdpXferTimeout_open hx⟩
      case abort => exact (exec_tdpAbort_served hfw h).trans (congrArg (answered c) (tdpAbort_open here hd))
      case segReq =>
        rw [exec_tdpSegReq_served hfw h]
        exact ⟨fun hl => congrArg (answered c) (tdpSegReq_repeats here hw hl),
          fun hl hq => congrArg (answered c) (tdpSegReq_wrongSeq here hw hl hq),
          fun total l u hl hq hd hc ht hf => congrArg (answered c) (tdpSegReq_contexts here hw hl hq hd ht hc hf),
          fun total hl hq hd hc ht => congrArg (answered c) (tdpSegReq_data here hw hl hq hd ht hc)⟩
      case seg =>
        refine ⟨fun last h => ?anySeg, fun hl hd hq hi hc => ?expected⟩
        case anySeg =>
          intro ex
          have served : ex = answered c (tdpSeg c last q l true t) := exec_tdpSeg_served hfw h1 h255 hlim h
          exact ⟨fun hl => served.trans (congrArg (answered c) (tdpSeg_repeats here hw hl)),
            fun hl hd hq => served.trans (congrArg (answered c) (tdpSeg_wrongSeq here hw hl hd hq))⟩
        case expected =>
          have served (last : Bool) (h : s.tdpReady c (msgSeg last q l)) :
              exec (if last then Instr.tdpSegLast c q l else .tdpSeg c q l) s = answered c (takesBytes c x last q l true t) := by
            rw [exec_tdpSeg_served hfw h1 h255 hlim h, tdpSeg_expected here hw hl hd hq hi, hc]
            rfl
          refine ⟨served false, fun total ht h =>
            ⟨fun hs => ?wrongSum, fun hs h6010 => ?attest, fun o u hs hne ho hwr => ?written⟩⟩
          case wrongSum => exact (served true h).trans (congrArg (answered c) (takesBytes_wrongSum ht hs))
          case attest =>
            subst hs
            have applied := (served true h).trans (congrArg (answered c) (takesBytes_last ht rfl))
            exact ⟨fun d e ha => applied.trans (congrArg (answered c) (appliesValue_attest_refused h6010 ha)),
              fun d ha => applied.trans (congrArg (answered c) (appliesValue_attest_waits h6010 ha))⟩
          case written =>
            subst hs
            exact (served true h).trans (congrArg (answered c) ((takesBytes_last ht rfl).trans (appliesValue_written hne ho hwr)))
      case contexts =>
        intro r y
        have served (last : Bool) (h : s.tdpReady c (msgSeg last q l)) :
            exec (if last then Instr.tdpSegLast c q l else .tdpSeg c q l) s = answered c (takesContexts c x last q l t) := by
          rw [exec_tdpSeg_served hfw h1 h255 hlim h, tdpSeg_expected here hw hl hd hq (Xfer.index_of_isCtx hc), hc]
          rfl
        exact ⟨served false, fun total ht h =>
          ⟨fun hs => (served true h).trans (congrArg (answered c) (takesContexts_wrongSum ht hs)),
            fun hs => (served true h).trans (congrArg (answered c) (takesContexts_last ht hs))⟩⟩
  case firmware =>
    subst hq
    refine ⟨fun none => ?noPacket, fun ws hu hp => ?packet⟩
    case noPacket =>
      rw [exec_tdpFwAnswer_eq, Dev.fwAnswer_none (d := s.begun.d) none]
      rfl
    case packet =>
      intro w0 n m d ends
      have taken : s.begun.d.fwAnswer = d.matchAnswer w0 m := Dev.fwAnswer_taken hu hp
      have stands : FrontStands s.begun.d d := FrontStands.takeWords _ _ _
      have ended {e : Dev} (h : d.matchAnswer w0 m = e) : ends e :=
        congrArg (fun x : Dev => done (canNext { s with d := x })) (taken.trans h)
      exact ⟨fun h => ended (Dev.matchAnswer_discards stands h),
        fun c k i b at_ ha hf h1 hr => ended (Dev.matchAnswer_leaves stands ha hf h1 hr)⟩

end Sys2Proof.Machine
end

section
/-! One instruction of a core as its command runs it (R317, R319, R336), and the loads, stores and atomics (R323, R324,
R326): each outcome of an access, and a word of SRAM as an access finds it (R328, R329). -/

namespace Sys2Proof.Machine

/-! ### The command of an instruction -/

/-- A core that runs and fetches an instruction of the command's group has that instruction's effect, and nothing else. -/
theorem coreStep_fetched {s t : State} {c : CoreId} {u : List BitErr} {w : Word} {len : Nat} {k : CoreClass}
    (runs : s.d.coreRuns c) (fetch : s.fetches c u w len t) (group : classOf w = k) :
    coreStep k c u s = finish (coreEffect k c w ((s.d.cores[c]).pc + BitVec.ofNat 32 len) t) := by
  unfold State.fetches at fetch
  simp only [coreStep, runs.1, runs.2, fetch, group, Bool.not_true, Bool.or_self, Bool.false_eq_true, if_false, if_true]

/-- A load is an instruction of CORE_LOAD_STORE. -/
theorem classOf_load {w : Word} {n : Nat} {signed : Bool} (op : iOp w = 0x03) (form : loadForm (iF3 w) = some (n, signed)) :
    classOf w = .loadStore := by
  simp only [classOf, op, form, Option.isSome_some, if_true]

/-- So is a store. -/
theorem classOf_store {w : Word} (op : iOp w = 0x23) (form : iF3 w ≤ 2) : classOf w = .loadStore := by
  simp only [classOf, op, form, if_true]

/-! ### Loads -/

section
variable {t : State} {c : CoreId} {w next a : Word} {n : Nat} {signed : Bool}
variable (op : iOp w = 0x03) (form : loadForm (iF3 w) = some (n, signed)) (ha : a = (t.d.cores[c]).reg (iRs1 w) + immI w)
include op form ha

theorem coreLoad_misaligned (odd : a.toNat % n ≠ 0) : coreLoadStore c w next t = coreExcept c 4 a t := by
  subst ha
  simp only [coreLoadStore, op, form, odd, if_true, ne_eq, not_false_eq_true]

theorem coreLoad_denied (even : a.toNat % n = 0)
    (pmp : (t.d.cores[c]).csr.pmpOk (t.d.cores[c]).dataMach a.toNat n 0 = false) :
    coreLoadStore c w next t = coreExcept c 5 a t := by
  subst ha
  simp only [coreLoadStore, op, form, even, pmp, if_true, ne_eq, not_true_eq_false, if_false, Bool.not_false]

section
variable (even : a.toNat % n = 0) (pmp : (t.d.cores[c]).csr.pmpOk (t.d.cores[c]).dataMach a.toNat n 0 = true) {t' : State}
include even pmp

theorem coreLoad_data {v : Word} (bus : t.busRead (initOfCore c) a.toNat n false = (t', .data v)) :
    coreLoadStore c w next t = coreRetire c (iRd w) (if signed then sext (8 * n) v.toNat else v) next t' := by
  subst ha
  simp [-BitVec.toNat_add, -Fin.getElem_fin, coreLoadStore, op, form, even, pmp, bus]

theorem coreLoad_error (bus : t.busRead (initOfCore c) a.toNat n false = (t', .error)) :
    coreLoadStore c w next t = coreExcept c 5 a t' := by
  subst ha
  simp [-BitVec.toNat_add, -Fin.getElem_fin, coreLoadStore, op, form, even, pmp, bus]

theorem coreLoad_held (bus : t.busRead (initOfCore c) a.toNat n false = (t', .held)) :
    coreLoadStore c w next t = coreStall c a.toNat n none t' := by
  subst ha
  simp [-BitVec.toNat_add, -Fin.getElem_fin, coreLoadStore, op, form, even, pmp, bus]

end
end

/-! ### Stores -/

section
variable {t : State} {c : CoreId} {w next a v : Word} {n : Nat}
variable (op : iOp w = 0x23) (hn : n = 2 ^ iF3 w) (ha : a = (t.d.cores[c]).reg (iRs1 w) + immS w)
include op hn ha

theorem coreStore_misaligned (odd : a.toNat % n ≠ 0) : coreLoadStore c w next t = coreExcept c 6 a t := by
  subst ha hn
  simp [-BitVec.toNat_add, -Fin.getElem_fin, coreLoadStore, op, odd]

theorem coreStore_denied (even : a.toNat % n = 0)
    (pmp : (t.d.cores[c]).csr.pmpOk (t.d.cores[c]).dataMach a.toNat n 1 = false) :
    coreLoadStore c w next t = coreExcept c 7 a t := by
  subst ha hn
  simp [-BitVec.toNat_add, -Fin.getElem_fin, coreLoadStore, op, even, pmp]

section
variable (hv : v = (t.d.cores[c]).reg (iRs2 w)) (even : a.toNat % n = 0)
  (pmp : (t.d.cores[c]).csr.pmpOk (t.d.cores[c]).dataMach a.toNat n 1 = true) {t' : State}
include hv even pmp

theorem coreStore_done (bus : t.busWrite (initOfCore c) a.toNat n v = (t', .done)) :
    coreLoadStore c w next t = coreRetire c 0 0 next t' := by
  subst ha hn hv
  simp [-BitVec.toNat_add, -Fin.getElem_fin, coreLoadStore, op, even, pmp, bus]

theorem coreStore_error (bus : t.busWrite (initOfCore c) a.toNat n v = (t', .error)) :
    coreLoadStore c w next t = coreExcept c 7 a t' := by
  subst ha hn hv
  simp [-BitVec.toNat_add, -Fin.getElem_fin, coreLoadStore, op, even, pmp, bus]

theorem coreStore_held (bus : t.busWrite (initOfCore c) a.toNat n v = (t', .held)) :
    coreLoadStore c w next t = coreStall c a.toNat n (some v) t' := by
  subst ha hn hv
  simp [-BitVec.toNat_add, -Fin.getElem_fin, coreLoadStore, op, even, pmp, bus]

end
end

/-! ### Atomics: the same three checks, each with its own code -/

section
variable {t t' : State} {c : CoreId} {w next a v : Word} (ha : a = (t.d.cores[c]).reg (iRs1 w))
include ha

theorem coreLr_misaligned (odd : a.toNat % 4 ≠ 0) : coreLr c w next t = coreExcept c 4 a t := by
  subst ha
  simp [-Fin.getElem_fin, coreLr, odd]

theorem coreSc_misaligned (odd : a.toNat % 4 ≠ 0) : coreSc c w next t = coreExcept c 6 a t := by
  subst ha
  simp [-Fin.getElem_fin, coreSc, odd]

theorem coreAmo_misaligned (odd : a.toNat % 4 ≠ 0) : coreAmo c w next t = coreExcept c 6 a t := by
  subst ha
  simp [-Fin.getElem_fin, coreAmo, odd]

section
variable (even : a.toNat % 4 = 0)
include even

section
variable (out : atomicWindow a.toNat = false)
include out

theorem coreLr_outside : coreLr c w next t = coreExcept c 7 a t := by
  subst ha
  simp [-Fin.getElem_fin, coreLr, even, out]

theorem coreSc_outside : coreSc c w next t = coreExcept c 7 a t := by
  subst ha
  simp [-Fin.getElem_fin, coreSc, even, out]

theorem coreAmo_outside : coreAmo c w next t = coreExcept c 7 a t := by
  subst ha
  simp [-Fin.getElem_fin, coreAmo, even, out]

end

section
variable (inside : atomicWindow a.toNat = true)
include inside

theorem coreLr_denied (pmp : (t.d.cores[c]).csr.pmpOk (t.d.cores[c]).dataMach a.toNat 4 0 = false) :
    coreLr c w next t = coreExcept c 5 a t := by
  subst ha
  simp [-Fin.getElem_fin, coreLr, even, inside, pmp]

theorem coreSc_denied (pmp : (t.d.cores[c]).csr.pmpOk (t.d.cores[c]).dataMach a.toNat 4 1 = false) :
    coreSc c w next t = coreExcept c 7 a t := by
  subst ha
  simp [-Fin.getElem_fin, coreSc, even, inside, pmp]

theorem coreAmo_denied (pmp : (t.d.cores[c]).csr.pmpOk (t.d.cores[c]).dataMach a.toNat 4 0 = false ∨
      (t.d.cores[c]).csr.pmpOk (t.d.cores[c]).dataMach a.toNat 4 1 = false) :
    coreAmo c w next t = coreExcept c 7 a t := by
  subst ha
  rcases pmp with pmp | pmp <;> simp [-Fin.getElem_fin, coreAmo, even, inside, pmp]

section
variable (read : (t.d.cores[c]).csr.pmpOk (t.d.cores[c]).dataMach a.toNat 4 0 = true)
include read

theorem coreLr_data (bus : t.busRead (initOfCore c) a.toNat 4 false = (t', .data v)) : coreLr c w next t =
    coreRetire c (iRd w) v next { t' with d := t'.d.modCore c fun y => { y with resv := some a } } := by
  subst ha
  simp [-Fin.getElem_fin, coreLr, even, inside, read, bus]

theorem coreLr_error (bus : t.busRead (initOfCore c) a.toNat 4 false = (t', .error)) :
    coreLr c w next t = coreExcept c 5 a t' := by
  subst ha
  simp [-Fin.getElem_fin, coreLr, even, inside, read, bus]

end

section
variable (write : (t.d.cores[c]).csr.pmpOk (t.d.cores[c]).dataMach a.toNat 4 1 = true)
include write

theorem coreSc_unreserved (resv : (t.d.cores[c]).resv ≠ some a) : coreSc c w next t =
    coreRetire c (iRd w) 1 next { t with d := t.d.modCore c fun y => { y with resv := none } } := by
  subst ha
  simp [-Fin.getElem_fin, coreSc, even, inside, write, resv]

theorem coreSc_done (resv : (t.d.cores[c]).resv = some a)
    (bus : ({ t with d := t.d.modCore c fun y => { y with resv := none } } : State).busWrite (initOfCore c) a.toNat 4
      ((t.d.cores[c]).reg (iRs2 w)) = (t', .done)) : coreSc c w next t = coreRetire c (iRd w) 0 next t' := by
  subst ha
  simp [-Fin.getElem_fin, coreSc, even, inside, write, resv, bus]

theorem coreSc_error (resv : (t.d.cores[c]).resv = some a)
    (bus : ({ t with d := t.d.modCore c fun y => { y with resv := none } } : State).busWrite (initOfCore c) a.toNat 4
      ((t.d.cores[c]).reg (iRs2 w)) = (t', .error)) : coreSc c w next t = coreExcept c 7 a t' := by
  subst ha
  simp [-Fin.getElem_fin, coreSc, even, inside, write, resv, bus]

end

section
variable (read : (t.d.cores[c]).csr.pmpOk (t.d.cores[c]).dataMach a.toNat 4 0 = true)
  (write : (t.d.cores[c]).csr.pmpOk (t.d.cores[c]).dataMach a.toNat 4 1 = true)
include read write

theorem coreAmo_done {r : Word} {t'' : State} (bus : t.busRead (initOfCore c) a.toNat 4 false = (t', .data v))
    (op : amoOp (fld w 27 5) v ((t.d.cores[c]).reg (iRs2 w)) = some r)
    (stored : t'.busWrite (initOfCore c) a.toNat 4 r = (t'', .done)) :
    coreAmo c w next t = coreRetire c (iRd w) v next t'' := by
  subst ha
  simp [-Fin.getElem_fin, coreAmo, even, inside, read, write, bus, op, stored]

theorem coreAmo_error (bus : t.busRead (initOfCore c) a.toNat 4 false = (t', .error)) :
    coreAmo c w next t = coreExcept c 7 a t' := by
  subst ha
  simp [-Fin.getElem_fin, coreAmo, even, inside, read, write, bus]

end
end
end
end

/-! ### A word of SRAM -/

/-- SRAM in service serves a read from the aligned word of the address. -/
theorem State.memLoad_sram {y : State} {k : Nat} (alive : y.d.sramAlive k = true) (n : Nat) (fetch : Bool) :
    y.memLoad k n fetch = some ((y.eccRead (k / 4 * 4)).1, (y.eccRead (k / 4 * 4)).2.narrow k n) := by
  unfold Dev.sramAlive at alive
  unfold State.memLoad
  split at alive <;> simp_all

/-- It takes a write as bytes. -/
theorem State.memStore_sram {y : State} {k : Nat} (alive : y.d.sramAlive k = true) (n : Nat) (v : Word) :
    y.memStore k n v = some (y.sramWrite k (natBytes n v.toNat)) := by
  unfold Dev.sramAlive at alive
  unfold State.memStore
  split at alive <;> simp_all

/-- SRAM lies below context memory. -/
theorem Dev.sramAlive_lt {d : Dev} {k : Nat} (alive : d.sramAlive k = true) : k < 0x30000000 := by
  unfold Dev.sramAlive winOf at alive
  grind

/-- A read of four bytes reads the whole word. -/
theorem narrow_word {k : Nat} (even : k % 4 = 0) (w : Word) : narrow w k 4 = w := by
  have lt : w.toNat < 256 ^ 4 := w.isLt
  simp only [narrow, even, Nat.mul_zero, Nat.shiftRight_zero, Nat.mod_eq_of_lt lt, BitVec.ofNat_toNat, BitVec.setWidth_eq]

/-- A word of SRAM without a bit error is what memory holds, and a read of it changes nothing (R329). -/
theorem State.busRead_sram {y : State} {k : Nat} (i : Initiator) (alive : y.d.sramAlive k = true) (even : k % 4 = 0)
    (intact : y.d.errAt k = none) :
    y.busRead i k 4 false = (y, .data (BitVec.ofNat 32 (bytesNat (memRead 0 y.ram k 4)))) := by
  have word : k / 4 * 4 = k := by omega
  have below : ¬ 0x30000000 ≤ k := by have := Dev.sramAlive_lt alive; omega
  simp [State.busRead, State.memLoad_sram alive, State.eccRead, Dev.check, State.memBytes, word, intact, below, Rd.narrow,
    narrow_word even]

/-- A whole word of SRAM is written without being read: it is mended, and reservations on it end (R324, R329). -/
theorem State.busWrite_sram {y : State} {k : Nat} (i : Initiator) (alive : y.d.sramAlive k = true) (even : k % 4 = 0)
    (v : Word) : y.busWrite i k 4 v = ({ y with
      ram := memWrite 0 y.ram k (natBytes 4 v.toNat), d := (y.d.mend k (k + 4)).breakResv k (k + 4) }, .done) := by
  have word : k / 4 * 4 = k := by omega
  have last : (k + 4 - 1) / 4 = k / 4 := by omega
  have hi : (k + 4 + 3) / 4 * 4 = k + 4 := by omega
  simp only [State.busWrite, State.memStore_sram alive, State.sramWrite, natBytes_length, Dev.checkEdges, word, last, hi]
  simp

/-- Settles O46: each instruction is one of the lemmas above on the check at which it ends or on what the bus answers. -/
theorem coreAccessesCompleteOrTrap : Obligations.CoreAccessesCompleteOrTrap := by
  intro s t c u w len runs fetch x next a
  have ran {k : CoreClass} (group : classOf w = k) : coreStep k c u s = finish (coreEffect k c w next t) :=
    coreStep_fetched runs fetch group
  refine ⟨fun n signed op form => ?load, fun op form => ?store, fun group => ?lr, fun group hu => ?sc, fun group => ?amo,
    fun group even out => ?outside, fun y k alive even intact => ?sram⟩
  case load =>
    intro a
    have ended {t' : State} (h : coreLoadStore c w next t = t') : exec (.coreLoadStore c u) s = done t' :=
      congrArg Host.Outcome.next ((ran (classOf_load op form)).trans (congrArg finish h))
    exact ⟨fun odd => ended (coreLoad_misaligned op form rfl odd),
      fun even pmp => ended (coreLoad_denied op form rfl even pmp), fun even pmp t' =>
      ⟨fun v bus => ended (coreLoad_data op form rfl even pmp bus), fun bus => ended (coreLoad_error op form rfl even pmp bus),
        fun bus => ended (coreLoad_held op form rfl even pmp bus)⟩⟩
  case store =>
    intro n a v
    have ended {t' : State} (h : coreLoadStore c w next t = t') : exec (.coreLoadStore c u) s = done t' :=
      congrArg Host.Outcome.next ((ran (classOf_store op form)).trans (congrArg finish h))
    exact ⟨fun odd => ended (coreStore_misaligned op rfl rfl odd),
      fun even pmp => ended (coreStore_denied op rfl rfl even pmp), fun even pmp t' =>
      ⟨fun bus => ended (coreStore_done op rfl rfl rfl even pmp bus), fun bus => ended (coreStore_error op rfl rfl rfl even pmp bus),
        fun bus => ended (coreStore_held op rfl rfl rfl even pmp bus)⟩⟩
  case lr =>
    have ended {t' : State} (h : coreLr c w next t = t') : exec (.coreLrW ⟨c, u⟩) s = done t' :=
      congrArg Host.Outcome.next ((ran group).trans (congrArg finish h))
    exact ⟨fun odd => ended (coreLr_misaligned rfl odd), fun even inside pmp => ended (coreLr_denied rfl even inside pmp),
      fun even inside pmp t' => ⟨fun v bus => ended (coreLr_data rfl even inside pmp bus),
        fun bus => ended (coreLr_error rfl even inside pmp bus)⟩⟩
  case sc =>
    subst hu
    have ended {t' : State} (h : coreSc c w next t = t') : exec (.coreScW c) s = done t' :=
      congrArg Host.Outcome.next ((ran group).trans (congrArg finish h))
    exact ⟨fun odd => ended (coreSc_misaligned rfl odd), fun even inside pmp => ended (coreSc_denied rfl even inside pmp),
      fun even inside pmp => ⟨fun resv => ended (coreSc_unreserved rfl even inside pmp resv), fun t' resv =>
        ⟨fun bus => ended (coreSc_done rfl even inside pmp resv bus), fun bus => ended (coreSc_error rfl even inside pmp resv bus)⟩⟩⟩
  case amo =>
    have ended {t' : State} (h : coreAmo c w next t = t') : exec (.coreAmo ⟨c, u⟩) s = done t' :=
      congrArg Host.Outcome.next ((ran group).trans (congrArg finish h))
    exact ⟨fun odd => ended (coreAmo_misaligned rfl odd), fun even inside pmp => ended (coreAmo_denied rfl even inside pmp),
      fun even inside read write t' => ⟨fun v r t'' bus op stored => ended (coreAmo_done rfl even inside read write bus op stored),
        fun bus => ended (coreAmo_error rfl even inside read write bus)⟩⟩
  case outside =>
    rcases group with lr | ⟨sc, hu⟩ | amo
    · rw [if_pos lr]
      exact congrArg Host.Outcome.next ((ran lr).trans (congrArg finish (coreLr_outside rfl even out)))
    · subst hu
      simp only [sc, reduceCtorEq, if_false, if_true]
      exact congrArg Host.Outcome.next ((ran sc).trans (congrArg finish (coreSc_outside rfl even out)))
    · simp only [amo, reduceCtorEq, if_false]
      exact congrArg Host.Outcome.next ((ran amo).trans (congrArg finish (coreAmo_outside rfl even out)))
  case sram => exact ⟨State.busRead_sram _ alive even intact, State.busWrite_sram _ alive even⟩

end Sys2Proof.Machine
end

section
/-! Bit fields of a CSR as writes of other fields leave them, what a trap and MRET leave in mstatus (R323), and each
instruction that CORE_INSTRUCTION and the commands beside it run (R317 to R327). -/

namespace Sys2Proof.Machine

/-! ### Bits and fields of a word -/

/-- A bit of a word one bit of which was cleared. -/
theorem clrBit_getLsbD (w : Word) (i : Nat) {j : Nat} (hj : j < 32) :
    (clrBit w i).getLsbD j = (w.getLsbD j && decide (j ≠ i)) := by
  have one : (1#32 <<< i).getLsbD j = decide (j = i) := by
    simp only [BitVec.getLsbD_shiftLeft, BitVec.getLsbD_one, hj]
    by_cases lt : j < i
    · simp [lt, show j ≠ i by omega]
    · simp [lt, show j - i = 0 ↔ j = i by omega]
  simp only [clrBit, BitVec.getLsbD_and, BitVec.getLsbD_not, one, hj, decide_true, Bool.true_and, ne_eq, decide_not]

/-- A bit of a word one of whose fields was replaced. -/
theorem setFld_getLsbD (w : Word) {lo len i : Nat} (v : Nat) (hi : i < 32) : (setFld w lo len v).getLsbD i =
    if lo ≤ i ∧ i < lo + len then v.testBit (i - lo) else w.getLsbD i := by
  simp only [setFld, BitVec.getLsbD_or, BitVec.getLsbD_and, BitVec.getLsbD_not, BitVec.getLsbD_ofNat, Nat.testBit_shiftLeft,
    Nat.testBit_two_pow_sub_one, Nat.testBit_mod_two_pow, hi, decide_true, Bool.true_and]
  by_cases h : lo ≤ i
  · by_cases g : i < lo + len
    · simp [h, g, show i - lo < len by omega]
    · simp [h, g, show ¬ i - lo < len by omega]
  · simp [h]

/-- A bit of a field. -/
theorem fld_testBit (w : Word) (lo len i : Nat) : (fld w lo len).testBit i = (decide (i < len) && w.getLsbD (lo + i)) := by
  simp [fld, BitVec.getLsbD]

/-- The field that was replaced. -/
theorem fld_setFld_self (w : Word) {lo len : Nat} (v : Nat) (h : lo + len ≤ 32) :
    fld (setFld w lo len v) lo len = v % 2 ^ len := by
  refine Nat.eq_of_testBit_eq fun i => ?_
  rw [fld_testBit, Nat.testBit_mod_two_pow]
  by_cases lt : i < len
  · rw [setFld_getLsbD w v (by omega), if_pos (by omega), Nat.add_sub_cancel_left]
  · simp [lt]

/-- A field stands where a bit outside it is cleared. -/
theorem fld_clrBit (w : Word) {lo len i : Nat} (fits : lo + len ≤ 32) (h : i < lo ∨ lo + len ≤ i) : fld (clrBit w i) lo len = fld w lo len := by
  refine Nat.eq_of_testBit_eq fun j => ?_
  rw [fld_testBit, fld_testBit]
  by_cases lt : j < len
  · rw [clrBit_getLsbD _ _ (by omega), decide_eq_true (show lo + j ≠ i by omega), Bool.and_true]
  · simp [lt]

theorem b2n_testBit_zero (b : Bool) : (b2n b).testBit 0 = b := by cases b <;> rfl

/-! ### mstatus after a trap and after MRET -/

/-- A trap clears MIE, keeps it in MPIE, and keeps the mode in MPP. -/
theorem Dev.trap_mstatus (d : Dev) (c : CoreId) (cause tval : Word) (vec : Nat) :
    ((d.trap c cause tval vec).cores[c]).csr.mstatus.getLsbD 3 = false ∧
    ((d.trap c cause tval vec).cores[c]).csr.mstatus.getLsbD 7 = (d.cores[c]).csr.mstatus.getLsbD 3 ∧
    fld ((d.trap c cause tval vec).cores[c]).csr.mstatus 11 2 = if (d.cores[c]).mach then 3 else 0 := by
  unfold Dev.trap
  rw [Dev.modCore_cores_self]
  refine ⟨?_, ?_, ?_⟩
  · simp only [setFld_getLsbD _ _ (show 3 < 32 by decide), clrBit_getLsbD _ _ (show 3 < 32 by decide)]
    simp
  · simp only [setFld_getLsbD _ _ (show 7 < 32 by decide)]
    exact b2n_testBit_zero _
  · rw [fld_setFld_self _ _ (by decide)]
    split <;> rfl

/-- MRET takes MIE from MPIE, sets MPIE and clears MPP. -/
theorem Core.mret_mstatus (x : Core) : x.mret.csr.mstatus.getLsbD 3 = x.csr.mstatus.getLsbD 7 ∧
    x.mret.csr.mstatus.getLsbD 7 = true ∧ fld x.mret.csr.mstatus 11 2 = 0 := by
  unfold Core.mret
  dsimp only
  refine ⟨?_, ?_, ?_⟩
  · simp only [apply_ite (BitVec.getLsbD · 3), setFld_getLsbD _ _ (show 3 < 32 by decide), clrBit_getLsbD _ _ (show 3 < 32 by decide),
      fld_testBit]
    simp
  · simp only [apply_ite (BitVec.getLsbD · 7), setFld_getLsbD _ _ (show 7 < 32 by decide), clrBit_getLsbD _ _ (show 7 < 32 by decide)]
    simp
  · split
    · exact fld_setFld_self _ 0 (by decide)
    · rw [fld_clrBit _ (by decide) (by decide)]
      exact fld_setFld_self _ 0 (by decide)

/-! ### The groups -/

/-- An opcode with no command of its own. -/
theorem classOf_other {w : Word} (op : iOp w ∉ [0x03, 0x23, 0x2F, 0x0F, 0x73]) : classOf w = .other := by
  simp only [List.mem_cons, List.not_mem_nil, or_false, not_or] at op
  unfold classOf
  split <;> simp_all

section
variable {w : Word} (op : iOp w = 0x73) (f3 : iF3 w % 4 ≠ 0)
include op f3

/-- A CSR instruction is not WFI. -/
theorem ne_wfi_of_csr : w ≠ 0x10500073 := by
  rintro rfl
  exact f3 (by decide)

theorem classOf_time (num : iCsr w = 0xC01) : classOf w = .time := by
  simp only [classOf, op, ne_wfi_of_csr op f3, f3, num, if_false]

theorem classOf_timecmp (num : iCsr w = 0x7C0) (writes : csrWrites w = true) : classOf w = .timecmp := by
  simp only [classOf, op, ne_wfi_of_csr op f3, f3, num, writes, if_false, if_true]

theorem classOf_claim (num : iCsr w = 0x7CA) (writes : csrWrites w = true) : classOf w = .claim := by
  simp only [classOf, op, ne_wfi_of_csr op f3, f3, num, writes, if_false, if_true]

theorem iCsr_ne_time (group : classOf w = .other) : iCsr w ≠ 0xC01 := by
  intro time
  rw [classOf_time op f3 time] at group
  cases group

end

/-- CSRRW always writes. -/
theorem csrWrites_swap {w : Word} (f3 : iF3 w = 1) : csrWrites w = true := by simp [csrWrites, f3]

/-! ### Instructions of CORE_INSTRUCTION -/

section
variable {t : State} {c : CoreId} {w next : Word}

theorem coreOther_lui (op : iOp w = 0x37) : coreOther c w next t = coreRetire c (iRd w) (immU w) next t := by
  simp only [coreOther, op]

theorem coreOther_auipc (op : iOp w = 0x17) :
    coreOther c w next t = coreRetire c (iRd w) ((t.d.cores[c]).pc + immU w) next t := by
  simp only [coreOther, op]

theorem coreOther_jal (op : iOp w = 0x6F) :
    coreOther c w next t = coreRetire c (iRd w) next ((t.d.cores[c]).pc + immJ w) t := by
  simp only [coreOther, op]

theorem coreOther_jalr (op : iOp w = 0x67) (f3 : iF3 w = 0) :
    coreOther c w next t = coreRetire c (iRd w) next (clrBit ((t.d.cores[c]).reg (iRs1 w) + immI w) 0) t := by
  simp only [coreOther, op, f3, if_true]

theorem coreOther_branch {taken : Bool} (op : iOp w = 0x63)
    (cond : branchTaken (iF3 w) ((t.d.cores[c]).reg (iRs1 w)) ((t.d.cores[c]).reg (iRs2 w)) = some taken) :
    coreOther c w next t = coreRetire c 0 0 (if taken then (t.d.cores[c]).pc + immB w else next) t := by
  simp only [coreOther, op, cond]

theorem coreOther_opImm {v : Word} (op : iOp w = 0x13) (alu : aluImm w ((t.d.cores[c]).reg (iRs1 w)) = some v) :
    coreOther c w next t = coreRetire c (iRd w) v next t := by
  simp only [coreOther, op, alu]

theorem coreOther_op {v : Word} (op : iOp w = 0x33)
    (alu : aluReg (iF7 w) (iF3 w) ((t.d.cores[c]).reg (iRs1 w)) ((t.d.cores[c]).reg (iRs2 w)) = some v) :
    coreOther c w next t = coreRetire c (iRd w) v next t := by
  simp only [coreOther, op, alu]

theorem coreOther_opIllegal (op : iOp w = 0x33)
    (alu : aluReg (iF7 w) (iF3 w) ((t.d.cores[c]).reg (iRs1 w)) ((t.d.cores[c]).reg (iRs2 w)) = none) :
    coreOther c w next t = coreExcept c 2 w t := by
  simp only [coreOther, op, alu]

theorem coreOther_system (op : iOp w = 0x73) : coreOther c w next t = coreSystem c w next t := by
  simp only [coreOther, op]

theorem coreOther_csr (op : iOp w = 0x73) (f3 : iF3 w % 4 ≠ 0) : coreOther c w next t = coreCsr c w next t :=
  (coreOther_system op).trans (if_pos f3)

theorem coreOther_ecall : coreOther c 0x00000073 next t = coreExcept c (if (t.d.cores[c]).mach then 11 else 8) 0 t := by
  rw [coreOther_system (by decide), coreSystem, if_neg (by decide), if_pos rfl]

theorem coreOther_mret (mach : (t.d.cores[c]).mach = true) :
    coreOther c 0x30200073 next t = { t with d := t.d.modCore c Core.mret } := by
  rw [coreOther_system (by decide), coreSystem, if_neg (by decide), if_neg (by decide), if_neg (by decide), if_pos ⟨rfl, mach⟩]

theorem coreOther_mretUser (mach : (t.d.cores[c]).mach = false) :
    coreOther c 0x30200073 next t = coreExcept c 2 0x30200073 t := by
  rw [coreOther_system (by decide), coreSystem, if_neg (by decide), if_neg (by decide), if_neg (by decide),
    if_neg (by simp only [mach]; decide)]

/-! ### CSR instructions -/

/-- A read of a CSR other than time retires with its value and changes nothing else. -/
theorem coreCsr_read {old : Word} (num : iCsr w ≠ 0xC01) (read : t.d.csrRead c (iCsr w) = some old)
    (may : (t.d.cores[c]).mayCsr (iCsr w) (csrWrites w) = true) (writes : csrWrites w = false) :
    coreCsr c w next t = coreRetire c (iRd w) old next t := by
  rw [writes] at may
  simp [-Fin.getElem_fin, coreCsr, read, may, writes, num]

/-- A read of time latches the datum for the core (R184, R319). -/
theorem coreCsr_time (num : iCsr w = 0xC01) (f3 : iF3 w = 2) (rs1 : (iRs1 w).val = 0) (mach : (t.d.cores[c]).mach = true) :
    coreCsr c w next t = coreRetire c (iRd w) (lo32 t.d.datum.now) next { t with
      d := t.d.modLatch (initOfCore c) fun l => { l with datum := t.d.datum.now } } := by
  have writes : csrWrites w = false := by simp [csrWrites, f3, rs1]
  have read : t.d.csrRead c 0xC01 = some (lo32 t.d.datum.now) := rfl
  have may : (t.d.cores[c]).mayCsr 0xC01 false = true := by simp [-Fin.getElem_fin, Core.mayCsr, mach]
  simp [-Fin.getElem_fin, coreCsr, num, read, may, writes, f3]

/-- CSRRW of a CSR that is neither time nor the count of instructions retires with the old value, then the CSR takes
the register's. -/
theorem coreCsr_swap {old : Word} {n : Nat} {g : Csrs → Csrs} (f3 : iF3 w = 1) (num : iCsr w = n)
    (plain : n ∉ [0xC01, 0xB02, 0xB82]) (read : t.d.csrRead c n = some old) (may : (t.d.cores[c]).mayCsr n true = true)
    (writes : ∀ y : Csrs, y.write n ((t.d.cores[c]).reg (iRs1 w)) = g y) :
    coreCsr c w next t = { coreRetire c (iRd w) old next t with d := (coreRetire c (iRd w) old next t).d.modCsr c g } := by
  simp only [List.mem_cons, List.not_mem_nil, or_false, not_or] at plain
  simp [-Fin.getElem_fin, coreCsr, num, read, may, csrWrites_swap f3, f3, plain, writes]

/-- In machine mode a CSR outside the read-only range may be written. -/
theorem Core.mayCsr_mach {x : Core} {n : Nat} (mach : x.mach = true) (range : n / 1024 ≠ 3) : x.mayCsr n true = true := by
  simp [Core.mayCsr, mach, range]

/-- MTIMECMP takes effect with the high half held until then (R320). -/
theorem Csrs.write_mtimecmp (y : Csrs) (v : Word) : y.write 0x7C0 v = { y with mtimecmp := v, mtimecmph := y.heldCmph } := rfl

/-- A write of n below 64 to MIRQCLAIM clears latch n (R322). -/
theorem Csrs.write_mirqclaim (y : Csrs) {v : Word} (n : fld v 0 9 < 64) :
    y.write 0x7CA v = { y with latch := y.latch &&& ~~~(1#64 <<< fld v 0 9) } :=
  if_pos n

/-- WFI retires and stalls. -/
theorem coreWfi_stalls (may : (t.d.cores[c]).mach = true ∨ (t.d.cores[c]).csr.mstatus.getLsbD 21 = false) :
    coreWfi c w next t = { t with d := t.d.modCore c fun y => { y.retire 0 0 next with wfi := true } } := by
  refine if_neg ?_
  rintro ⟨user, tw⟩
  rcases may with mach | free
  · rw [mach] at user
    exact absurd user (by decide)
  · exact absurd (free.symm.trans tw) (by decide)

/-- In user mode it is illegal under TW. -/
theorem coreWfi_illegal (mach : (t.d.cores[c]).mach = false) (tw : (t.d.cores[c]).csr.mstatus.getLsbD 21 = true) :
    coreWfi c w next t = coreExcept c 2 w t := by
  simp [-Fin.getElem_fin, coreWfi, bit, mach, tw]

end

/-- Settles O47: an instruction by its opcode, a CSR instruction by its CSR; what retiring, a trap and MRET leave by the
lemmas on each. -/
theorem coreInstructionsRetire : Obligations.CoreInstructionsRetire := by
  refine ⟨coreRetire_frame, fun u c code tval => ?trap, fun x => ?mret, fun s t c u w len runs fetch => ?instruction⟩
  case trap =>
    intro x r
    obtain ⟨mepc, mcause, mtval, mach, pc, regs, ram, others⟩ := coreExcept_frame u c code tval
    obtain ⟨mie, mpie, mpp⟩ := Dev.trap_mstatus u.d c (BitVec.ofNat 32 code) tval 0
    exact ⟨mepc, mcause, mtval, mach, pc, regs, mie, mpie, mpp, ram, others⟩
  case mret =>
    obtain ⟨pc, mach, regs⟩ := x.mret_frame
    obtain ⟨mie, mpie, mpp⟩ := x.mret_mstatus
    exact ⟨pc, mach, mie, mpie, mpp, regs⟩
  case instruction =>
    intro x next a b ex
    have ran {k : CoreClass} {t' : State} (group : classOf w = k) (h : coreEffect k c w next t = t') :
        Host.Outcome.next (coreStep k c u s) = done t' :=
      congrArg Host.Outcome.next ((coreStep_fetched runs fetch group).trans (congrArg finish h))
    have other {t' : State} (op : iOp w ∉ [0x03, 0x23, 0x2F, 0x0F, 0x73]) (h : coreOther c w next t = t') : ex = done t' :=
      ran (classOf_other op) h
    refine ⟨fun op => other (by rw [op]; decide) (coreOther_lui op), fun op => other (by rw [op]; decide) (coreOther_auipc op),
      fun op => other (by rw [op]; decide) (coreOther_jal op),
      fun op f3 => other (by rw [op]; decide) (coreOther_jalr op f3),
      fun taken op cond => other (by rw [op]; decide) (coreOther_branch op cond),
      fun v op alu => other (by rw [op]; decide) (coreOther_opImm op alu),
      fun v op alu => other (by rw [op]; decide) (coreOther_op op alu),
      fun op alu => other (by rw [op]; decide) (coreOther_opIllegal op alu),
      fun hw => ?ecall, fun hw mach => ?mret, fun hw mach => ?mretUser, fun old op f3 group read may writes => ?csrRead,
      fun hu => ?own⟩
    case ecall =>
      subst hw
      exact ran (k := .other) (by decide) (coreOther_ecall (next := next))
    case mret =>
      subst hw
      exact ran (k := .other) (by decide) (coreOther_mret (next := next) mach)
    case mretUser =>
      subst hw
      exact ran (k := .other) (by decide) (coreOther_mretUser (next := next) mach)
    case csrRead =>
      exact ran group ((coreOther_csr op f3).trans (coreCsr_read (iCsr_ne_time op f3 group) read may writes))
    case own =>
      subst hu
      refine ⟨fun group => ran group rfl, fun group => ran group rfl, fun hw may => ?wfi, fun hw mach tw => ?wfiIllegal,
        fun op f3 num rs1 mach => ?time, fun op f3 num mach => ?timecmp, fun op f3 num mach n => ?claim⟩
      case wfi =>
        subst hw
        exact ran (k := .wfi) (by decide) (coreWfi_stalls may)
      case wfiIllegal =>
        subst hw
        exact ran (k := .wfi) (by decide) (coreWfi_illegal mach tw)
      case time =>
        exact ran (classOf_time op (by rw [f3]; decide) num) (coreCsr_time num f3 rs1 mach)
      case timecmp =>
        exact ran (classOf_timecmp op (by rw [f3]; decide) num (csrWrites_swap f3))
          (coreCsr_swap f3 num (by decide) rfl (Core.mayCsr_mach mach (by decide)) fun y => y.write_mtimecmp _)
      case claim =>
        exact ran (classOf_claim op (by rw [f3]; decide) num (csrWrites_swap f3))
          (coreCsr_swap f3 num (by decide) rfl (Core.mayCsr_mach mach (by decide)) fun y => y.write_mirqclaim n)

end Sys2Proof.Machine
end

section
/-! The timer interrupt and the taking of an interrupt (R320, R321, R323), and the writes of CORE_CTL and CORE_MSIP, which
do to each core one thing that hangs on that core and on who the main core is (R335, R336). -/

namespace Sys2Proof.Machine

/-! ### The compare value -/

/-- Time that passes leaves a core's compare value. -/
theorem coreAdvance_cmp (n : Nat) (x : Core) : (coreAdvance n x).csr.mtimecmp = x.csr.mtimecmp ∧
    (coreAdvance n x).csr.mtimecmph = x.csr.mtimecmph := by
  unfold coreAdvance
  split <;> exact ⟨rfl, rfl⟩

theorem Dev.untilDatum_cmp (d : Dev) (t : Int) (c : CoreId) :
    ((d.untilDatum t).cores[c]).csr.mtimecmp = (d.cores[c]).csr.mtimecmp ∧
    ((d.untilDatum t).cores[c]).csr.mtimecmph = (d.cores[c]).csr.mtimecmph := by
  unfold Dev.untilDatum Dev.advance
  dsimp only
  split
  · rw [vmap_get]
    exact coreAdvance_cmp _ _
  · exact ⟨rfl, rfl⟩

/-- A datum that counts reaches a value that lies ahead of it (R182). -/
theorem Dev.untilDatum_reaches {d : Dev} {t : Word64} (counts : d.datumCounts = true) (ahead : d.datum.now.toNat ≤ t.toNat) :
    (d.untilDatum t.toNat).datum.now = t := by
  have ticks : ((t.toNat : Int) - d.datum.now.toNat).toNat = t.toNat - d.datum.now.toNat := by omega
  have now : (d.untilDatum t.toNat).datum.now = d.datum.now + BitVec.ofNat 64 (t.toNat - d.datum.now.toNat) := by
    simp only [Dev.untilDatum, Dev.advance, counts, if_true, ticks]
  have lt : t.toNat < 2 ^ 64 := t.isLt
  rw [now]
  refine BitVec.eq_of_toNat_eq ?_
  rw [BitVec.toNat_add, BitVec.toNat_ofNat]
  omega

/-- Where the datum has reached a core's compare value its timer interrupt is pending (R320). -/
theorem Dev.untilDatum_mtip {d : Dev} {c : CoreId} (counts : d.datumCounts = true)
    (ahead : d.datum.now.toNat ≤ (join64 (d.cores[c]).csr.mtimecmph (d.cores[c]).csr.mtimecmp).toNat) :
    (d.untilDatum (join64 (d.cores[c]).csr.mtimecmph (d.cores[c]).csr.mtimecmp).toNat).mtip c = true := by
  obtain ⟨low, high⟩ := d.untilDatum_cmp (join64 (d.cores[c]).csr.mtimecmph (d.cores[c]).csr.mtimecmp).toNat c
  unfold Dev.mtip
  dsimp only
  rw [low, high, Dev.untilDatum_reaches counts ahead]
  exact decide_eq_true (Nat.le_refl _)

/-! ### An interrupt is taken -/

theorem Dev.takeIrq_eq {d : Dev} {c : CoreId} {n : Nat} (live : d.coreLive c = true) (irq : d.irqOf c = some n) :
    d.takeIrq c = d.trap c (BitVec.ofNat 32 (0x80000000 + n)) 0 (if fld (d.cores[c]).csr.mtvec 0 2 = 1 then 4 * n else 0) := by
  rw [Dev.takeIrq, live, irq]

/-! ### What is done core by core -/

/-- A change of one core that leaves the others and who the main core is, and that hangs on that core and on the main
core alone. -/
structure CoreWise (f : Dev → CoreId → Dev) : Prop where
  others : ∀ d c k, k ≠ c → (f d c).cores[k] = d.cores[k]
  main : ∀ d c, (f d c).mainCore = d.mainCore
  own : ∀ d e c, e.mainCore = d.mainCore → e.cores[c] = d.cores[c] → (f e c).cores[c] = (f d c).cores[c]

namespace CoreWise

variable {f : Dev → CoreId → Dev}

theorem foldl_notMem (h : CoreWise f) {l : List CoreId} {k : CoreId} (out : k ∉ l) (d : Dev) :
    (l.foldl f d).cores[k] = d.cores[k] := by
  induction l generalizing d with
  | nil => rfl
  | cons c l ih =>
    rw [List.mem_cons, not_or] at out
    rw [List.foldl_cons, ih out.2, h.others d c k out.1]

theorem foldl_mem (h : CoreWise f) {l : List CoreId} (nodup : l.Nodup) {k : CoreId} (mem : k ∈ l) (d : Dev) :
    (l.foldl f d).cores[k] = (f d k).cores[k] := by
  induction l generalizing d with
  | nil => exact absurd mem List.not_mem_nil
  | cons c l ih =>
    rw [List.nodup_cons] at nodup
    rw [List.foldl_cons]
    by_cases e : k = c
    · subst e
      exact h.foldl_notMem nodup.1 _
    · rw [ih nodup.2 (List.mem_of_ne_of_mem e mem)]
      exact h.own d (f d c) k (h.main d c) (h.others d c k e)

/-- Done to every core, it does to each what it does to that core alone. -/
theorem foldl_all (h : CoreWise f) (d : Dev) (k : CoreId) : ((List.finRange 8).foldl f d).cores[k] = (f d k).cores[k] :=
  h.foldl_mem (List.nodup_finRange 8) (List.mem_finRange k) d

end CoreWise

/-- A part of the device that each step of a list leaves stands at its end. -/
theorem foldl_part {α β : Type} (part : Dev → β) {f : Dev → α → Dev} (step : ∀ d x, part (f d x) = part d) (l : List α)
    (d : Dev) : part (l.foldl f d) = part d := by
  induction l generalizing d with
  | nil => rfl
  | cons x l ih => exact (ih (f d x)).trans (step d x)

/-! ### RUN and MSIP (R336) -/

/-- The main core is the same where the same cores are retired. -/
theorem Dev.mainCore_congr {d e : Dev} (h : ∀ k : CoreId, (e.cores[k]).retired = (d.cores[k]).retired) :
    e.mainCore = d.mainCore := by
  unfold Dev.mainCore
  simp only [h]

theorem Dev.modCore_retired (d : Dev) (c : CoreId) {f : Core → Core} (keeps : ∀ x, (f x).retired = x.retired) (k : CoreId) :
    ((d.modCore c f).cores[k]).retired = (d.cores[k]).retired := by
  by_cases e : k = c
  · subst e
    rw [Dev.modCore_cores_self, keeps]
  · rw [Dev.modCore_cores_ne d c k f e]

/-- A change of a core that keeps its retirement is core by core. -/
theorem coreWise_modCore {g : CoreId → Core → Core} (keeps : ∀ c x, (g c x).retired = x.retired) :
    CoreWise fun d c => d.modCore c (g c) where
  others d c k ne := Dev.modCore_cores_ne d c k _ ne
  main d c := Dev.mainCore_congr (d.modCore_retired c (keeps c))
  own d e c _ core := by rw [Dev.modCore_cores_self, Dev.modCore_cores_self, core]

theorem Dev.holdCore_cores_self (d : Dev) (c : CoreId) : (d.holdCore c).cores[c] = { d.cores[c] with
    running := false, wfi := false, held := false, stopping := false, halted := false, resv := none } := by
  unfold Dev.holdCore
  dsimp only
  rw [Dev.modCore_cores_self]

theorem Dev.holdCore_cores_ne (d : Dev) {c k : CoreId} (ne : k ≠ c) : (d.holdCore c).cores[k] = d.cores[k] := by
  unfold Dev.holdCore
  dsimp only
  rw [Dev.modCore_cores_ne d c k _ ne]

section
variable {d : Dev} {c : CoreId} {run : Bool}

theorem Dev.setRun_stands (h : c = d.mainCore ∨ (d.cores[c]).retired = true ∨ (d.cores[c]).running = run) :
    d.setRun c run = d := if_pos h

variable (ne : c ≠ d.mainCore) (retired : (d.cores[c]).retired = false)
include ne retired

theorem Dev.setRun_starts (running : (d.cores[c]).running = false) :
    d.setRun c true = d.startCore c (d.cores[c]).entry 0x2007C000 := by
  unfold Dev.setRun
  simp only [ne, retired, running, Bool.false_eq_true, or_self, if_false, if_true]

theorem Dev.setRun_stops (running : (d.cores[c]).running = true) (held : (d.cores[c]).held = false) :
    d.setRun c false = (d.holdCore c).modCore c fun y => { y with released := false } := by
  unfold Dev.setRun
  simp only [ne, retired, running, held, Bool.false_eq_true, Bool.true_eq_false, or_self, if_false]

end

/-- What a write of RUN can do. -/
theorem Dev.setRun_cases (d : Dev) (c : CoreId) (run : Bool) : d.setRun c run = d ∨
    d.setRun c run = d.startCore c (d.cores[c]).entry 0x2007C000 ∨
    d.setRun c run = (d.modCore c fun y => { y with stopping := true, released := false }) ∨
    d.setRun c run = (d.holdCore c).modCore c fun y => { y with released := false } := by
  unfold Dev.setRun
  dsimp only
  split
  · exact .inl rfl
  · split
    · exact .inr (.inl rfl)
    · split
      · exact .inr (.inr (.inl rfl))
      · exact .inr (.inr (.inr rfl))

theorem Dev.setRun_resetDue (d : Dev) (c : CoreId) (run : Bool) : (d.setRun c run).resetDue = d.resetDue := by
  rcases d.setRun_cases c run with e | e | e | e <;> rw [e] <;> rfl

theorem Dev.setRun_cores_ne (d : Dev) (c : CoreId) (run : Bool) {k : CoreId} (ne : k ≠ c) :
    (d.setRun c run).cores[k] = d.cores[k] := by
  rcases d.setRun_cases c run with e | e | e | e <;> rw [e]
  · exact Dev.modCore_cores_ne d c k _ ne
  · exact Dev.modCore_cores_ne d c k _ ne
  · exact (Dev.modCore_cores_ne (d.holdCore c) c k _ ne).trans (Dev.holdCore_cores_ne d ne)

theorem Dev.setRun_retired (d : Dev) (c : CoreId) (run : Bool) (k : CoreId) :
    ((d.setRun c run).cores[k]).retired = (d.cores[k]).retired := by
  by_cases ne : k = c
  · subst ne
    rcases d.setRun_cases k run with e | e | e | e <;> rw [e]
    · unfold Dev.startCore
      rw [Dev.modCore_cores_self]
    · rw [Dev.modCore_cores_self]
    · rw [Dev.modCore_cores_self, Dev.holdCore_cores_self]
  · rw [d.setRun_cores_ne c run ne]

/-- RUN is written core by core. -/
theorem coreWise_setRun (run : CoreId → Bool) : CoreWise fun d c => d.setRun c (run c) where
  others d c k ne := d.setRun_cores_ne c _ ne
  main d c := Dev.mainCore_congr (d.setRun_retired c _)
  own d e c main core := by
    unfold Dev.setRun
    dsimp only
    rw [main, core]
    split
    · exact core
    · split
      · unfold Dev.startCore
        rw [Dev.modCore_cores_self, Dev.modCore_cores_self, core]
      · split
        · rw [Dev.modCore_cores_self, Dev.modCore_cores_self, core]
        · rw [Dev.modCore_cores_self, Dev.modCore_cores_self, Dev.holdCore_cores_self, Dev.holdCore_cores_self, core]

/-! ### The two registers -/

section
variable {s : State} {i : Initiator} {v : Word}

/-- CORE_CTL is written as RUN bits, by a core in machine mode. -/
theorem exec_coreCtlWrite_eq (hi : s.d.mayWrite i (chipPage 11 + 0x1000)) (mach : s.d.machineCore i = true) :
    exec (.coreCtlWrite i v) s = .next (onDevW (fun d =>
      ((List.finRange 8).foldl (fun d c => d.setRun c (bit v c.val)) d).answer i .done) s) := by
  refine rowWrite_chipReg (k := 11) rfl (by decide) hi ?_
  have made : s.begun.d.coreWrite i 0x1000 v = (List.finRange 8).foldl (fun d c => d.setRun c (bit v c.val)) s.begun.d :=
    (if_neg (by rw [Bool.not_eq_true', Bool.not_eq_false]; exact mach)).trans rfl
  exact congrArg (fun d => ({ s.begun with d := d }, Wr.done)) made

/-- CORE_MSIP is written as the software interrupts, by a core in machine mode. -/
theorem exec_coreMsipWrite_eq (hi : s.d.mayWrite i (chipPage 11 + 0x1008)) (mach : s.d.machineCore i = true) :
    exec (.coreMsipWrite i v) s = .next (onDevW (fun d =>
      ((List.finRange 8).foldl (fun d c => d.modCore c fun x => { x with msip := bit v c.val }) d).answer i .done) s) := by
  refine rowWrite_chipReg (k := 11) rfl (by decide) hi ?_
  have made : s.begun.d.coreWrite i 0x1008 v =
      (List.finRange 8).foldl (fun d c => d.modCore c fun x => { x with msip := bit v c.val }) s.begun.d :=
    (if_neg (by rw [Bool.not_eq_true', Bool.not_eq_false]; exact mach)).trans rfl
  exact congrArg (fun d => ({ s.begun with d := d }, Wr.done)) made

end

/-- A write that is made core by core leaves each core as it does that core, and no memory. -/
theorem onDevW_coreWise {f : Dev → CoreId → Dev} (h : CoreWise f) (due : ∀ d c, (f d c).resetDue = d.resetDue)
    (s : State) (i : Initiator) :
    (∀ k : CoreId, (onDevW (fun d => ((List.finRange 8).foldl f d).answer i .done) s).d.cores[k] = (f s.begun.d k).cores[k]) ∧
    (onDevW (fun d => ((List.finRange 8).foldl f d).answer i .done) s).ram = s.ram ∧
    (onDevW (fun d => ((List.finRange 8).foldl f d).answer i .done) s).d.ports = ((List.finRange 8).foldl f s.begun.d).ports := by
  have none : (((List.finRange 8).foldl f s.begun.d).answer i .done).resetDue = false := foldl_part Dev.resetDue due _ _
  rw [onDevW_of (f := fun d => ((List.finRange 8).foldl f d).answer i .done) none]
  refine ⟨fun k => ?_, rfl, Dev.settle_ports _⟩
  dsimp only
  rw [Dev.settle_cores]
  exact h.foldl_all s.begun.d k

/-- Settles O48: the timer by its compare value, an interrupt as a trap, each register core by core. -/
theorem coresStartAndAreInterrupted : Obligations.CoresStartAndAreInterrupted := by
  intro s c
  refine ⟨fun counts ahead => ⟨onDev_next (if_pos counts), Dev.untilDatum_mtip counts ahead⟩, fun n live irq => ?interrupt,
    fun i v hi mach => ?run, fun i v hi mach => ?msip⟩
  case interrupt =>
    intro x
    refine ⟨_, rfl, ?_⟩
    have cores : (onDev (fun d => d.takeIrq c) s).d.cores =
        (s.d.trap c (BitVec.ofNat 32 (0x80000000 + n)) 0 (if fld x.csr.mtvec 0 2 = 1 then 4 * n else 0)).cores :=
      (Dev.settle_cores _).trans (congrArg Dev.cores (Dev.takeIrq_eq live irq))
    obtain ⟨mie, mpie, mpp⟩ := s.d.trap_mstatus c (BitVec.ofNat 32 (0x80000000 + n)) 0
      (if fld x.csr.mtvec 0 2 = 1 then 4 * n else 0)
    have own := Dev.modCore_cores_self s.d c
    dsimp only
    rw [cores]
    refine ⟨?_, ?_, ?_, ?_, ?_, ?_, ?_, ?_, mie, mpie, mpp, fun k ne => Dev.modCore_cores_ne s.d c k _ ne, rfl⟩ <;>
    · unfold Dev.trap
      rw [own]
  case run =>
    rw [exec_coreCtlWrite_eq hi mach]
    obtain ⟨written, ram, -⟩ := onDevW_coreWise (coreWise_setRun fun c => bit v c.val) (fun d c => d.setRun_resetDue c _) s i
    refine ⟨_, rfl, fun k ne retired stopped on => ?starts, fun k ne retired running held off => ?stops, fun k h => ?stands, ram⟩
    case starts =>
      rw [written k, show bit v k.val = true from on, Dev.setRun_starts (d := s.begun.d) ne retired stopped]
      unfold Dev.startCore
      rw [Dev.modCore_cores_self]
      exact ⟨rfl, rfl, rfl⟩
    case stops =>
      rw [written k, show bit v k.val = false from off, Dev.setRun_stops (d := s.begun.d) ne retired running held, Dev.modCore_cores_self]
      exact congrArg Core.running (Dev.holdCore_cores_self s.begun.d k)
    case stands =>
      rw [written k, Dev.setRun_stands (d := s.begun.d) (run := bit v k.val) h]
      rfl
  case msip =>
    rw [exec_coreMsipWrite_eq hi mach]
    obtain ⟨written, ram, ports⟩ := onDevW_coreWise (coreWise_modCore (g := fun c x => { x with msip := bit v c.val })
      fun _ _ => rfl) (fun _ _ => rfl) s i
    refine ⟨_, rfl, fun k => ?_, ram, ports.trans (foldl_part Dev.ports (fun d c => Dev.modCore_ports d c _) _ _)⟩
    rw [written k, Dev.modCore_cores_self]
    rfl

end Sys2Proof.Machine
end

section
/-! The flash controller's registers, the ends of its operations and data reads (R338 to R347): what each write of FLASH_CMD
and FLASH_SUSP does to the controller, what waits for it, and what a read finds. -/

namespace Sys2Proof.Machine

/-! ### FLASH_CMD (R339, R341, R342) -/

section
variable {f : Flash} {v : Word} {now : Nat}

theorem Flash.command_noGo (go : v.getLsbD 2 = false) : f.command v now = { f with cmdOp := fld v 0 2 } := by
  unfold Flash.command
  simp only [bit, go, Bool.not_false, if_true]

variable (go : v.getLsbD 2 = true)
include go

/-- GO of a busy controller sets GOIGN. -/
theorem Flash.command_busy (busy : f.status = 1 ∨ f.status = 2) :
    f.command v now = { f with cmdOp := fld v 0 2, flags := f.flags ||| 16 } := by
  unfold Flash.command
  simp only [bit, go, Bool.not_true, Bool.false_eq_true, if_false, busy, if_true]
  rfl

variable (idle : ¬ (f.status = 1 ∨ f.status = 2))
include idle

theorem Flash.command_noOp (h1 : fld v 0 2 ≠ 1) (h2 : fld v 0 2 ≠ 2) : f.command v now = { f with cmdOp := fld v 0 2 } := by
  unfold Flash.command
  simp only [bit, go, Bool.not_true, Bool.false_eq_true, if_false, idle, ne_eq, h1, h2, not_false_eq_true, and_self, if_true]

section
variable {op : Nat} (hop : fld v 0 2 = op) (named : op = 1 ∨ op = 2)
include hop named

theorem Flash.command_refused {st : Nat}
    (why : ({ f with cmdOp := op, src := false } : Flash).refusal op f.addr.toNat true = some st) (other : st ≠ 4) :
    f.command v now = { f with cmdOp := op, src := false, status := st } := by
  have asked : ¬ (op ≠ 1 ∧ op ≠ 2) := by omega
  unfold Flash.command
  simp only [bit, go, Bool.not_true, Bool.false_eq_true, if_false, idle, hop, asked, why, other]
  rfl

/-- A word that is programmed already sets its flag. -/
theorem Flash.command_programmed
    (why : ({ f with cmdOp := op, src := false } : Flash).refusal op f.addr.toNat true = some 4) :
    f.command v now = { f with cmdOp := op, src := false, status := 4, flags := f.flags ||| 1 } := by
  have asked : ¬ (op ≠ 1 ∧ op ≠ 2) := by omega
  unfold Flash.command
  simp only [bit, go, Bool.not_true, Bool.false_eq_true, if_false, idle, hop, asked, why, if_true]
  rfl

end

theorem Flash.command_program (hop : fld v 0 2 = 1)
    (free : ({ f with cmdOp := 1, src := false } : Flash).refusal 1 f.addr.toNat true = none) :
    f.command v now = ({ f with cmdOp := 1, src := false } : Flash).program f.addr.toNat (bytesOf32 f.data.toList) := by
  unfold Flash.command
  simp only [bit, go, Bool.not_true, Bool.false_eq_true, if_false, idle, hop, free, if_true, ne_eq, not_true_eq_false, false_and]

theorem Flash.command_erase (hop : fld v 0 2 = 2)
    (free : ({ f with cmdOp := 2, src := false } : Flash).refusal 2 f.addr.toNat true = none) :
    f.command v now = ({ f with cmdOp := 2, src := false } : Flash).erase (flashBlk f.addr.toNat) now := by
  unfold Flash.command
  simp only [bit, go, Bool.not_true, Bool.false_eq_true, if_false, idle, hop, free, ne_eq, not_true_eq_false, and_false,
    OfNat.ofNat_ne_one]

end

/-! ### FLASH_SUSP (R344) -/

section
variable {f : Flash} {v : Word} {now b n t : Nat}

theorem Flash.suspend_erase (op : f.op = .erase b n t) (h0 : v.getLsbD 0 = true) (h1 : v.getLsbD 1 = false) :
    f.suspend v now = { f with op := .suspended b n, status := 2, suspends := (f.suspends + 1) % 65536 } := by
  simp only [Flash.suspend, op, bit, h0, h1, Bool.false_eq_true, if_false, if_true]

theorem Flash.suspend_keepsErase (op : f.op = .erase b n t) (h0 : v.getLsbD 0 = false) : f.suspend v now = f := by
  simp only [Flash.suspend, op, bit, h0, Bool.false_eq_true, if_false]

theorem Flash.suspend_resumes (op : f.op = .suspended b n) (h1 : v.getLsbD 1 = true) :
    f.suspend v now = { f with op := .erase b n now, status := 1 } := by
  simp only [Flash.suspend, op, bit, h1, if_true]

theorem Flash.suspend_idle (op : f.op = .idle) : f.suspend v now = f := by
  simp only [Flash.suspend, op]

end

/-! ### The page -/

theorem Flash.write_cmd (f : Flash) (now : Nat) (v : Word) : f.write now 0 v = f.command v now := rfl

theorem Flash.write_susp (f : Flash) (now : Nat) (v : Word) : f.write now 0x18 v = f.suspend v now := rfl

/-- FLASH_WP bits are only set (R347). -/
theorem Flash.write_wp (f : Flash) (now : Nat) (n : Fin 4) (v : Word) :
    f.write now (0x40 + 4 * n.val) v = { f with wp := f.wp.set n (f.wp[n] ||| v) } := by
  have word : Fin.ofNat 4 ((0x40 + 4 * n.val - 0x40) / 4) = n := by
    refine Fin.ext ?_
    rw [Fin.val_ofNat]
    omega
  unfold Flash.write
  rw [if_neg (by omega), if_pos (by omega)]
  simp only [word]

/-- A write of the page that does not suspend an erase changes the controller alone. -/
theorem rowWrite_flashReg {i : Initiator} {a o : Nat} {v : Word} {s : State} {g : Flash} (ha : a = chipPage 0 + o)
    (ho : o < 0x10000) (hi : s.d.mayWrite i a) (write : s.d.flash.write s.d.now o v = g)
    (runs : g.suspended.isSome = true → s.d.flash.suspended.isSome = true) :
    (Host.Outcome.next (rowWrite i a v s) : Host.Outcome State Fault Refusal) =
      .next (onDevW (fun d => ({ d with flash := g }).answer i .done) s) := by
  refine rowWrite_chipReg (k := 0) (g := fun d => { d with flash := g }) ha ho hi ?_
  have made : s.begun.d.flash.write s.begun.d.now o v = g := write
  have stays : ¬ (g.suspended.isSome = true ∧ s.begun.d.flash.suspended.isNone = true) := fun h => by
    rw [Option.isNone_iff_eq_none] at h
    have some := runs h.1
    rw [show s.d.flash.suspended = none from h.2] at some
    exact absurd some (by decide)
  unfold chipWrite
  simp only [made, stays, if_false]

/-- What waits for the flash goes on when an erase is suspended (R344, R446). -/
theorem rowWrite_flashSuspends {i : Initiator} {v : Word} {s : State} {g : Flash} (hi : s.d.mayWrite i (chipPage 0 + 0x18))
    (write : s.d.flash.suspend v s.d.now = g) (now : g.suspended.isSome = true) (before : s.d.flash.suspended = none) :
    rowWrite i (chipPage 0 + 0x18) v s =
      finish (written i (chipPage 0 + 0x18) v (State.flashGoOn { s with d := { s.begun.d with flash := g } } none, .done)) := by
  refine (rowWrite_chip (winOf_chip (0 : Fin 12) 0x18 (by decide)) hi).trans ?_
  have made : s.begun.d.flash.write s.begun.d.now 0x18 v = g := write
  have suspends : g.suspended.isSome = true ∧ s.begun.d.flash.suspended.isNone = true :=
    ⟨now, Option.isNone_iff_eq_none.mpr before⟩
  unfold chipWrite
  simp only [made, suspends, and_self, if_true]
  rfl

/-! ### The ends of operations (R339, R341, R446) -/

section
variable {s : State}

theorem exec_flashProgramDone_program {a : Nat} (op : s.d.flash.op = .program a) : exec .flashProgramDone s =
    done (canNext (State.flashGoOn { s with
      d := { s.begun.d with flash := { s.d.flash with op := .idle, status := 3 } } } (some false))) := by
  have ended : s.d.flash.programDone = { s.d.flash with op := .idle, status := 3 } := by rw [Flash.programDone, op]
  change execFlashProgramDone s = _
  unfold execFlashProgramDone
  rw [op, ended]
  rfl

theorem exec_flashProgramDone_none (none : ∀ a, s.d.flash.op ≠ .program a) : exec .flashProgramDone s = .next s := by
  change execFlashProgramDone s = _
  unfold execFlashProgramDone
  split
  case h_1 a op => exact absurd op (none a)
  case h_2 => rfl

theorem exec_flashErasePulseEnd_none (none : ∀ b n t, s.d.flash.op ≠ .erase b n t) (ok : Bool) :
    exec (.flashErasePulseEnd ok) s = .next s := by
  change execFlashErasePulseEnd ok s = _
  unfold execFlashErasePulseEnd
  split
  case h_1 b n t op => exact absurd op (none b n t)
  case h_2 => rfl

/-- A pulse takes at least 500 µs. -/
theorem Flash.pulseDue_erase {f : Flash} {b n t : Nat} (op : f.op = .erase b n t) (now : Nat) : f.pulseDue now = t + 100000 := by
  rw [Flash.pulseDue, op]
  rfl

section
variable {b n t : Nat} (op : s.d.flash.op = .erase b n t) {ok : Bool} {g : Flash}
include op

/-- A pulse ends 500 µs after it began, and the controller stands as the verify of the block leaves it. -/
theorem exec_flashErasePulseEnd_ends (ends : (s.begun.d.until_ (t + 100000)).flash.pulseEnd ok
      (s.begun.d.until_ (t + 100000)).now = g) (idle : g.op = .idle) : exec (.flashErasePulseEnd ok) s =
    done (canNext (State.flashGoOn { s with d := { s.begun.d.until_ (t + 100000) with flash := g } } (some true))) := by
  have due := Flash.pulseDue_erase op s.d.now
  change execFlashErasePulseEnd ok s = _
  unfold execFlashErasePulseEnd
  simp only [op, due, ends, idle]
  rfl

theorem exec_flashErasePulseEnd_goesOn (ends : (s.begun.d.until_ (t + 100000)).flash.pulseEnd ok
      (s.begun.d.until_ (t + 100000)).now = g) (busy : g.op ≠ .idle) : exec (.flashErasePulseEnd ok) s =
    done { s with d := { s.begun.d.until_ (t + 100000) with flash := g } } := by
  have due := Flash.pulseDue_erase op s.d.now
  change execFlashErasePulseEnd ok s = _
  unfold execFlashErasePulseEnd
  simp only [op, due, ends]
  rfl

end

/-- Without work of the update engine, the reads that the flash held go on (R343). -/
theorem State.flashGoOn_noJob (job : s.d.upd.job = none) (ended : Option Bool) :
    s.flashGoOn ended = { s with d := (s.d.engGo s.ram).otpTake s.ram } := by
  have next : s.d.updNext = (s.d, none) := by rw [Dev.updNext, job]
  have opEnd (erased : Bool) : s.d.updOpEnd erased = (s.d, none) := by rw [Dev.updOpEnd, job]
  unfold State.flashGoOn
  cases ended with
  | none => simp only [next, Dev.answered]
  | some erased => simp only [opEnd, Dev.answered]

end

section
variable {f : Flash} {b n t now : Nat} (op : f.op = .erase b n t)
include op

theorem Flash.pulseEnd_verified : f.pulseEnd true now = { f.erased b with op := .idle, status := 3 } := by
  rw [Flash.pulseEnd, op]
  rfl

/-- The 160th pulse that fails leaves the block HALF. -/
theorem Flash.pulseEnd_failed (last : 160 ≤ n + 1) : f.pulseEnd false now =
    { f with op := .idle, status := 9, half := b :: f.half.filter fun x => x ≠ b } := by
  rw [Flash.pulseEnd, op]
  simp only [Bool.false_eq_true, if_false, last, if_true]

theorem Flash.pulseEnd_next (more : n + 1 < 160) : f.pulseEnd false now = { f with op := .erase b (n + 1) now } := by
  rw [Flash.pulseEnd, op]
  simp only [Bool.false_eq_true, if_false, show ¬ 160 ≤ n + 1 by omega]

end

/-! ### Reads (R338, R343, R345) -/

theorem winOf_flash {a : Nat} (h : inFlash a = true) : winOf a = .flash (a - 0x08000000) := by
  simp only [inFlash, Bool.and_eq_true, decide_eq_true_eq] at h
  rw [winOf, if_neg (by omega), if_pos h]

theorem inFlash_word {a : Nat} (h : inFlash a = true) : inFlash (a / 4 * 4) = true := by
  simp only [inFlash, Bool.and_eq_true, decide_eq_true_eq] at h ⊢
  omega

/-- A read of flash is answered by what the die gives for the word that the address lies in. -/
theorem exec_flashRead_eq {s : State} {i : Initiator} {a : Word} {u : List BitErr} {d : Dev} {r : Rd}
    (inside : inFlash a.toNat = true) (ready : s.d.initReady i = true) (may : (s.upset u).d.mayRead i (a.toNat / 4 * 4))
    (read : (s.upset u).begun.d.flashRead (a.toNat / 4 * 4) 4 false = (d, r)) : exec (.flashRead i a u) s =
    done (wasRead i (a.toNat / 4 * 4) ({ s.upset u with d := d }, r)) := by
  have row : exec (.flashRead i a u) s = .next (rowRead i (a.toNat / 4 * 4) (s.upset u)) :=
    congrArg Host.Outcome.next (if_pos (by rw [inside, ready]; rfl))
  rw [row, rowRead, may.1, may.2]
  simp only [State.busRead, State.memLoad, winOf_flash (inFlash_word inside), read]
  rfl

section
variable {d : Dev} {w : Nat}

theorem Dev.flashRead_busy (busy : d.flash.busyBank = some (flashBlk w / 64)) : d.flashRead w 4 false = (d, .held) :=
  if_pos busy

variable (free : d.flash.busyBank ≠ some (flashBlk w / 64))
include free

theorem Dev.flashRead_poisoned (poison : d.flash.poisoned (flashBlk w) = true) : d.flashRead w 4 false =
    ({ d with flash := d.flash.touch w 4 }, .data (BitVec.ofNat 32 (bytesNat (d.flash.bytes w 4)))) := by
  simp only [Dev.flashRead, free, poison, if_false, if_true, Bool.false_eq_true]

variable (clear : d.flash.poisoned (flashBlk w) = false)
include clear

theorem Dev.flashRead_intact (err : d.flash.errAt w = none) :
    d.flashRead w 4 false = (d, .data (BitVec.ofNat 32 (bytesNat (d.flash.bytes w 4)))) := by
  simp only [Dev.flashRead, free, clear, err, if_false, Bool.false_eq_true]

/-- One wrong bit is corrected in what is returned, counted and charged (R338). -/
theorem Dev.flashRead_single (err : d.flash.errAt w = some false) : d.flashRead w 4 false =
    (({ d with flash := { d.flash with flags := d.flash.flags ||| 4, ecc1cnt := d.flash.ecc1cnt + 1 } } : Dev).charge .flash 2,
      .data (BitVec.ofNat 32 (bytesNat (d.flash.bytes w 4)))) := by
  have flag : d.flash.flag 2 = { d.flash with flags := d.flash.flags ||| 4 } := rfl
  simp only [Dev.flashRead, free, clear, err, Dev.flashErr, flag, if_false, Bool.false_eq_true]

/-- Two end the read with a bus error, and its address is kept (R338). -/
theorem Dev.flashRead_double (err : d.flash.errAt w = some true) : d.flashRead w 4 false =
    (({ d with flash := { d.flash with flags := d.flash.flags ||| 8, errAddr := BitVec.ofNat 32 w } } : Dev).charge .flash 3,
      .error) := by
  have flag : d.flash.flag 3 = { d.flash with flags := d.flash.flags ||| 8 } := rfl
  simp only [Dev.flashRead, free, clear, err, Dev.flashErr, flag, if_false, if_true, Bool.false_eq_true]

end

/-- A read that meets a poisoned block keeps the address of the first word of it that it met. `touch` is unfolded as a
function: unfolded at its arguments, the kernel would set out to evaluate the range that it searches. -/
theorem Flash.touch_found {f : Flash} {a n k : Nat} (hn : 0 < n) (found : (List.range ((n + 0xFFFF) / 0x10000 + 1)).find? (fun k =>
      flashBlk a + k ≤ flashBlk (a + n - 1) && f.poisoned (flashBlk a + k)) = some k) : f.touch a n =
    { f.flag 1 with errAddr := BitVec.ofNat 32 (max a (0x08000000 + (flashBlk a + k) * 0x10000)) } := by
  suffices whole : ∀ touch, touch = Flash.touch → touch f a n =
      { f.flag 1 with errAddr := BitVec.ofNat 32 (max a (0x08000000 + (flashBlk a + k) * 0x10000)) } from whole _ rfl
  intro touch body
  delta Flash.touch at body
  rw [body]
  beta_reduce
  rw [found]
  exact if_pos hn

section
variable {f : Flash} {w : Nat} (word : w % 4 = 0) (inside : inFlash w = true) (poison : f.poisoned (flashBlk w) = true)
include word inside poison

/-- A word of a HALF or suspended block reads as the poison word (R345). -/
theorem Flash.bytes_poisoned : f.bytes w 4 = [0xE5, 0xE5, 0xAD, 0xDE] := by
  simp only [inFlash, Bool.and_eq_true, decide_eq_true_eq] at inside
  have byte (k : Nat) (hk : k < 4) : f.byte (w + k) = byteAt [0xE5#8, 0xE5#8, 0xAD#8, 0xDE#8] k := by
    have block : flashBlk (w + k) = flashBlk w := by
      unfold flashBlk
      omega
    rw [Flash.byte, block, if_pos poison, poisonByte, show (w + k) % 4 = k by omega]
  simp only [Flash.bytes, Nat.add_assoc, Nat.reduceAdd, byte 1, byte 2, byte 3, Nat.reduceLT]
  rw [show f.byte w = byteAt [0xE5#8, 0xE5#8, 0xAD#8, 0xDE#8] 0 from byte 0 (by decide)]
  rfl

/-- Such a read sets ERS_PENDING and keeps its address (R345). -/
theorem Flash.touch_poisoned : f.touch w 4 = { f with flags := f.flags ||| 2, errAddr := BitVec.ofNat 32 w } := by
  simp only [inFlash, Bool.and_eq_true, decide_eq_true_eq] at inside
  have last : flashBlk (w + 4 - 1) = flashBlk w := by
    unfold flashBlk
    omega
  have first : max w (0x08000000 + flashBlk w * 0x10000) = w := by
    unfold flashBlk
    omega
  have found : (List.range ((4 + 0xFFFF) / 0x10000 + 1)).find? (fun k =>
      flashBlk w + k ≤ flashBlk (w + 4 - 1) && f.poisoned (flashBlk w + k)) = some 0 := by
    rw [last]
    simp [List.range_succ, poison]
  rw [Flash.touch_found (by decide) found, Nat.add_zero, first]
  rfl

end

/-- Settles O49: a write of the page by what it does to the controller, an end by the operation that it ends, a read by what
the die finds. -/
theorem flashOperationsFollowTheirRules : Obligations.FlashOperationsFollowTheirRules := by
  refine ⟨fun s i v => ?registers, fun s a b n t => ?ends, fun s i a u => ?reads⟩
  case registers =>
    intro f page
    refine ⟨fun hi => ?cmd, fun hi b n t => ?susp, fun n hi => ?wp⟩
    case cmd =>
      intro f1 f2
      have cmd {g : Flash} (write : f.command v s.d.now = g) (runs : g.suspended.isSome = true → f.suspended.isSome = true) :
          (Host.Outcome.next (rowWrite i (chipPage 0) v s) : Host.Outcome State Fault Refusal) =
            .next (onDevW (fun d => ({ d with flash := g }).answer i .done) s) :=
        rowWrite_flashReg (o := 0) rfl (by decide) hi write runs
      refine ⟨fun c hc => ?each, fun go h1 h2 => ?started⟩
      case each =>
        have row {g : Flash} (h : (Host.Outcome.next (rowWrite i (chipPage 0) v s) : Host.Outcome State Fault Refusal) =
            .next (onDevW (fun d => ({ d with flash := g }).answer i .done) s)) : page c g := by
          rw [List.mem_cons, List.mem_singleton] at hc
          rcases hc with rfl | rfl
          · exact h
          · exact h
        exact ⟨fun go => row (cmd (Flash.command_noGo go) id), fun go busy => row (cmd (Flash.command_busy go busy) id),
          fun go h1 h2 n1 n2 => row (cmd (Flash.command_noOp go (not_or.mpr ⟨h1, h2⟩) n1 n2) id)⟩
      case started =>
        have idle : ¬ (f.status = 1 ∨ f.status = 2) := not_or.mpr ⟨h1, h2⟩
        refine ⟨fun hop => ⟨fun free => cmd (Flash.command_program go idle hop free) (fun h => absurd h Bool.false_ne_true),
            fun st why other => cmd (Flash.command_refused go idle hop (.inl rfl) why other) id,
            fun why => cmd (Flash.command_programmed go idle hop (.inl rfl) why) id⟩,
          fun hop => ⟨fun free => cmd (Flash.command_erase go idle hop free) (fun h => absurd h Bool.false_ne_true),
            fun st why other => cmd (Flash.command_refused go idle hop (.inr rfl) why other) id⟩⟩
    case susp =>
      have susp {g : Flash} (write : f.suspend v s.d.now = g) (runs : g.suspended.isSome = true → f.suspended.isSome = true) :
          (Host.Outcome.next (rowWrite i (chipPage 0 + 0x18) v s) : Host.Outcome State Fault Refusal) =
            .next (onDevW (fun d => ({ d with flash := g }).answer i .done) s) :=
        rowWrite_flashReg (o := 0x18) rfl (by decide) hi write runs
      refine ⟨fun op b0 b1 => ?suspends, fun op b0 => ?stays, fun op b1 => ?resumes, fun op => ?idle⟩
      case suspends =>
        have before : f.suspended = none := by rw [Flash.suspended, op]
        exact congrArg Host.Outcome.next (rowWrite_flashSuspends hi (Flash.suspend_erase op b0 b1) rfl before)
      case stays => exact ⟨susp (Flash.suspend_keepsErase op b0) id, susp (Flash.suspend_keepsErase op b0) id⟩
      case resumes => exact susp (Flash.suspend_resumes op b1) (fun h => absurd h Bool.false_ne_true)
      case idle => exact ⟨susp (Flash.suspend_idle op) id, susp (Flash.suspend_idle op) id⟩
    case wp => exact rowWrite_flashReg (Nat.add_assoc _ _ _) (by omega) hi (Flash.write_wp f s.d.now n v) id
  case ends =>
    refine ⟨exec_flashProgramDone_program, exec_flashProgramDone_none, exec_flashErasePulseEnd_none, State.flashGoOn_noJob,
      fun op => ?erase⟩
    intro d ends
    have erases : d.flash.op = .erase b n t := op
    exact ⟨exec_flashErasePulseEnd_ends op (Flash.pulseEnd_verified erases) rfl,
      fun last => exec_flashErasePulseEnd_ends op (Flash.pulseEnd_failed erases last) rfl,
      fun more => exec_flashErasePulseEnd_goesOn op (Flash.pulseEnd_next erases more) FlashOp.noConfusion⟩
  case reads =>
    intro x w f v makes
    refine ⟨fun out => congrArg Host.Outcome.next (if_neg (by rw [out]; exact Bool.false_ne_true)), fun inside ready may => ?inside⟩
    have read {d : Dev} {r : Rd} (h : x.begun.d.flashRead w 4 false = (d, r)) :
        exec (.flashRead i a u) s = done (wasRead i w ({ x with d := d }, r)) := exec_flashRead_eq inside ready may h
    refine ⟨fun busy => read (Dev.flashRead_busy (d := x.begun.d) busy), fun free => ⟨fun poison => ?poisoned, fun clear =>
      ⟨fun err => read (Dev.flashRead_intact (d := x.begun.d) free clear err),
        fun err => read (Dev.flashRead_single (d := x.begun.d) free clear err),
        fun err => read (Dev.flashRead_double (d := x.begun.d) free clear err)⟩⟩⟩
    case poisoned =>
      have word : w % 4 = 0 := Nat.mul_mod_left _ _
      have value : v = 0xDEADE5E5 := by
        change BitVec.ofNat 32 (bytesNat (f.bytes w 4)) = _
        rw [Flash.bytes_poisoned word (inFlash_word inside) poison]
        decide
      refine ⟨value, (read (Dev.flashRead_poisoned (d := x.begun.d) free poison)).trans ?_⟩
      exact congrArg (fun g => done (wasRead i w ({ x with d := { x.begun.d with flash := g } }, .data v)))
        (Flash.touch_poisoned word (inFlash_word inside) poison)

end Sys2Proof.Machine
end

section
/-! Starts, losses of supply, wakes and supply ranges (R335, R404 to R407, R416 to R419, R454, R458): when a start begins,
what the loss of power leaves, and which state a wake source wakes from. -/

namespace Sys2Proof.Machine

/-! ### When a start begins -/

section
variable {cause : Nat} {d : Dev} {inp : StartInputs} {s : State}

theorem powerUp_starts (testen : d.dbg.testen = false) :
    powerUp cause d inp s = startSequence inp { s with d := d.beginStart cause, ram := [] } :=
  if_neg (by rw [testen]; exact Bool.false_ne_true)

/-- While TESTEN is high the module does not leave reset (R458). -/
theorem powerUp_testen (testen : d.dbg.testen = true) : powerUp cause d inp s = { s with d := d.unpowered .reset, ram := [] } :=
  if_pos testen

theorem exec_vinValid_off (off : s.d.pwr.now = .off) (volts : s.d.pwr.overvolt = false) : exec (.vinValid inp) s =
    done (Dev.checkBackup (powerUp 0 ((s.d.vinIn 340 359).freshRtc) inp s) s.d.rtc) :=
  congrArg Host.Outcome.next (if_pos ⟨off, by rw [volts]; rfl⟩)

theorem exec_vinValid_none (none : s.d.pwr.now ≠ .off ∨ s.d.pwr.overvolt = true) : exec (.vinValid inp) s = .next s := by
  refine congrArg Host.Outcome.next (if_neg ?_)
  rintro ⟨off, volts⟩
  rcases none with on | high
  · exact on off
  · rw [high] at volts
    exact Bool.false_ne_true volts

theorem exec_resetn_powered (on : s.d.pwr.now ≠ .off) : exec (.resetn inp) s = done (powerUp 1 s.d.freshRtc inp s) :=
  congrArg Host.Outcome.next (if_neg on)

theorem exec_vinOvervoltageEnd_over (high : s.d.pwr.overvolt = true) : exec (.vinOvervoltageEnd inp) s = done (powerUp 0
    ((({ s.d with pwr := { s.d.pwr with overvolt := false } } : Dev).vinIn 751 779).freshRtc) inp s) :=
  congrArg Host.Outcome.next (if_pos high)

theorem exec_vinOvervoltageEnd_none (none : s.d.pwr.overvolt = false) : exec (.vinOvervoltageEnd inp) s = .next s :=
  congrArg Host.Outcome.next (if_neg (by rw [none]; exact Bool.false_ne_true))

/-! ### RUN is reached (R416) -/

/-- Step 10 brings the device up and stamps RUN_T. -/
def Dev.reachRun (d : Dev) : Dev :=
  { d with pwr := { d.pwr with phase := .up, runT := d.datum.now }, att := { d.att with last := d.rtc.count } }

theorem exec_runReached_starting {k : Nat} (on : s.d.pwr.now = .on) (phase : s.d.pwr.phase = .starting k) :
    exec (.runReached inp) s = done (Dev.unlessDead Dev.reachRun (if k < 10 then startSequence inp s.begun else s.begun)) := by
  change execRunReached inp s = _
  unfold execRunReached
  rw [on, phase]
  rfl

theorem exec_runReached_none (none : s.d.pwr.now ≠ .on ∨ ∀ k, s.d.pwr.phase ≠ .starting k) :
    exec (.runReached inp) s = .next s := by
  change execRunReached inp s = _
  unfold execRunReached
  split
  case h_1 k on phase => exact none.elim (absurd on) fun other => absurd phase (other k)
  case h_2 => rfl

/-- A device that is not dead is changed. -/
theorem Dev.unlessDead_starting {f : Dev → Dev} {k : Nat} (phase : s.d.pwr.phase = .starting k) :
    Dev.unlessDead f s = { s with d := f s.d } := by
  rw [Dev.unlessDead, phase]

/-! ### Wakes (R407) -/

theorem exec_wakeEvent_none {src : WakeSource} (none : s.d.wakes src = none) : exec (.wakeEvent src inp) s = .next s := by
  change execWakeEvent src inp s = _
  rw [execWakeEvent, none]

theorem exec_wakeEvent_wakes {src : WakeSource} {n : Nat} (wakes : s.d.wakes src = some n) :
    exec (.wakeEvent src inp) s = done (wake n inp s.begun) := by
  change execWakeEvent src inp s = _
  rw [execWakeEvent, wakes]
  rfl

theorem wake_nap {n : Nat} (nap : s.d.pwr.now = .nap) : wake n inp s = { s with d := s.d.leaveNap n } := by
  rw [wake, nap, State.wakeUp, nap]

theorem wake_hold {n : Nat} (hold : s.d.pwr.now = .hold) : wake n inp s = wakeHold n s := by
  rw [wake, hold, State.wakeUp, hold]

theorem wake_standby {n : Nat} (standby : s.d.pwr.now = .standby) : wake n inp s = wakeStandby n inp s := by
  rw [wake, standby]

end

/-! ### What the loss of power leaves (R404, R406, R416) -/

/-- `x` is `d` without power: every core is held; the backup domain's clock, OTP, config memory and flash stand, where no
operation was cut. -/
structure LostPower (d : Dev) (now : PwrNow) (x : Dev) : Prop where
  now : x.pwr.now = now
  held : ∀ k : CoreId, (x.cores[k]).running = false
  count : x.rtc.count = d.rtc.count
  powered : x.rtc.powered = d.rtc.powered
  cust : d.otp.run = none → x.otp.cust = d.otp.cust
  cfg : x.cfg.mem = d.cfg.mem
  flash : d.flash.op = .idle → x.flash.mem = d.flash.mem

theorem LostPower.unpowered (d : Dev) (now : PwrNow) : LostPower d now (d.unpowered now) where
  now := rfl
  held k := congrArg Core.running (Vector.getElem_replicate k.isLt)
  count := rfl
  powered := rfl
  cust idle := by
    have cut : d.otp.cut = d.otp := by rw [Otp.cut, idle]
    change d.otp.cut.cust = d.otp.cust
    rw [cut]
  cfg := rfl
  flash idle := by
    have kept : d.flashAtStart.mem = d.flash.mem := by
      unfold Dev.flashAtStart
      dsimp only
      rw [idle]
    exact kept

theorem LostPower.settle {d x : Dev} {now : PwrNow} (h : LostPower d now x) : LostPower d now x.settle where
  now := by rw [Dev.settle_pwr, h.now]
  held := by rw [Dev.settle_cores]; exact h.held
  count := by rw [Dev.settle_rtc, h.count]
  powered := by rw [Dev.settle_rtc, h.powered]
  cust := by rw [Dev.settle_otp]; exact h.cust
  cfg := by rw [Dev.settle_cfg, h.cfg]
  flash := by rw [Dev.settle_flash]; exact h.flash

theorem Dev.unpowered_resetDue (d : Dev) (now : PwrNow) : (d.unpowered now).resetDue = false := rfl

/-- A command that takes the power away leaves SRAM empty and the device without power. -/
theorem finish_unpowered (s : State) (d : Dev) (now : PwrNow) :
    (finish { s with d := d.unpowered now, ram := [] }).ram = [] ∧
    LostPower d now (finish { s with d := d.unpowered now, ram := [] }).d := by
  rw [finish_of (d.unpowered_resetDue now)]
  exact ⟨rfl, (LostPower.unpowered d now).settle⟩

/-! ### Ranges and flags (R404, R405, R419, R454) -/

theorem Dev.vinFlag_low {d : Dev} (low : 320 ≤ d.pwr.vin ∧ d.pwr.vin < 360) : d.vinFlag.pwr.flag = d.pwr.flag ||| 16 := by
  rw [Dev.vinFlag, if_pos low]
  rfl

theorem Dev.vinFlag_high {d : Dev} (high : 750 < d.pwr.vin ∧ d.pwr.vin ≤ 820) : d.vinFlag.pwr.flag = d.pwr.flag ||| 32 := by
  rw [Dev.vinFlag, if_neg (by omega), if_pos high]
  rfl

/-- VIN takes a value of the range. -/
theorem Dev.vinIn_vin (d : Dev) {lo hi : Nat} (le : lo ≤ hi) : lo ≤ (d.vinIn lo hi).pwr.vin ∧ (d.vinIn lo hi).pwr.vin ≤ hi := by
  have vin : (d.vinIn lo hi).pwr.vin = lo + d.freeNow % (hi + 1 - lo) := rfl
  have lt : d.freeNow % (hi + 1 - lo) < hi + 1 - lo := Nat.mod_lt _ (by omega)
  omega

/-! ### A wake from HOLD (R335) -/

theorem Dev.restartCore_released {d : Dev} {c : CoreId} (released : (d.cores[c]).released = true)
    (retired : (d.cores[c]).retired = false) (set : (d.cores[c]).wake ≠ 0) :
    d.restartCore c = d.startCore c (d.cores[c]).wake 1 := by
  unfold Dev.restartCore
  simp only [released, retired, set, Bool.not_true, Bool.or_self, Bool.false_eq_true, if_false]

/-- Settles O55: each start by its supply, each loss by what it leaves, each wake by the state that it wakes from. -/
theorem supplyStartsAndWakes : Obligations.SupplyStartsAndWakes := by
  intro s
  refine ⟨fun inp => ⟨fun off volts => ?vinValid, exec_vinValid_none, fun on testen => ?resetn, fun on testen => ?resetnTesten,
      fun high => ?overEnd, exec_vinOvervoltageEnd_none, fun d => ⟨Dev.vinFlag_low, Dev.vinFlag_high⟩,
      fun k on phase lt => ?steps, exec_runReached_none, fun on phase => ?lastStep, fun src => exec_wakeEvent_none,
      fun src n wakes nap => ?nap, fun src n wakes hold => ?hold, fun src n wakes standby => ?standby⟩,
    fun c hc on => ?loss, fun restart => ?noRestart, fun at_ restart => ?restart, fun d c released retired set => ?core,
    fun t => ?temp, ?out33, rfl, fun high on => ?range⟩
  case vinValid =>
    intro d
    rw [exec_vinValid_off off volts]
    exact ⟨fun testen => congrArg (fun t => done (Dev.checkBackup t s.d.rtc)) (powerUp_starts (d := d) testen),
      fun testen => congrArg (fun t => done (Dev.checkBackup t s.d.rtc)) (powerUp_testen (d := d) testen)⟩
  case resetn => exact (exec_resetn_powered on).trans (congrArg done (powerUp_starts (d := s.d.freshRtc) testen))
  case resetnTesten => exact (exec_resetn_powered on).trans (congrArg done (powerUp_testen (d := s.d.freshRtc) testen))
  case overEnd =>
    intro d
    rw [exec_vinOvervoltageEnd_over high]
    exact ⟨fun testen => congrArg done (powerUp_starts (d := d) testen),
      fun testen => congrArg done (powerUp_testen (d := d) testen)⟩
  case steps =>
    rw [exec_runReached_starting on phase, if_pos lt]
    rfl
  case lastStep =>
    rw [exec_runReached_starting on phase, if_neg (by decide), Dev.unlessDead_starting (s := s.begun) phase]
    rfl
  case nap => exact (exec_wakeEvent_wakes wakes).trans (congrArg done (wake_nap (s := s.begun) nap))
  case hold => exact (exec_wakeEvent_wakes wakes).trans (congrArg done (wake_hold (s := s.begun) hold))
  case standby => exact (exec_wakeEvent_wakes wakes).trans (congrArg done (wake_standby (s := s.begun) standby))
  case loss =>
    have lost {d : Dev} {now : PwrNow} (h : exec c s = done { s with d := d.unpowered now, ram := [] })
        (hnow : now = if c = .resetnAssert then .reset else .off) (rtc : d.rtc = s.d.rtc) (otp : d.otp = s.d.otp)
        (cfg : d.cfg = s.d.cfg) (flash : d.flash = s.d.flash) : answers (exec c s) fun t =>
          t.ram = [] ∧ t.d.pwr.now = (if c = .resetnAssert then .reset else .off) ∧ (∀ k : CoreId, (t.d.cores[k]).running = false) ∧
          t.d.rtc.count = s.d.rtc.count ∧ t.d.rtc.powered = s.d.rtc.powered ∧
          (s.d.otp.run = none → t.d.otp.cust = s.d.otp.cust) ∧ t.d.cfg.mem = s.d.cfg.mem ∧
          (s.d.flash.op = .idle → t.d.flash.mem = s.d.flash.mem) := by
      obtain ⟨ram, left⟩ := finish_unpowered s d now
      rw [← hnow, ← rtc, ← otp, ← cfg, ← flash]
      exact ⟨_, h, ram, left.now, left.held, left.count, left.powered, left.cust, left.cfg, left.flash⟩
    simp only [List.mem_cons, List.not_mem_nil, or_false] at hc
    rcases hc with rfl | rfl | rfl
    · exact lost (d := ({ s.d with pwr := { s.d.pwr with overvolt := false } } : Dev).vinIn 0 319) (now := .off) rfl
        (by simp only [reduceCtorEq, if_false]) rfl rfl rfl rfl
    · exact lost (d := ({ s.d with pwr := { s.d.pwr with overvolt := true } } : Dev).vinIn 821 1000) (now := .off)
        (congrArg Host.Outcome.next (if_neg on)) (by simp only [reduceCtorEq, if_false]) rfl rfl rfl rfl
    · exact lost (d := s.d) (now := .reset) (congrArg Host.Outcome.next (if_neg on)) (if_pos rfl).symm rfl rfl rfl rfl
  case noRestart => exact onDev_next (by rw [restart]; rfl)
  case restart => exact onDev_next (by rw [restart])
  case core =>
    rw [Dev.restartCore_released released retired set]
    unfold Dev.startCore
    rw [Dev.modCore_cores_self]
    refine ⟨rfl, rfl, ?_⟩
    simp
  case temp =>
    refine onDev_next ?_
    dsimp only
    split <;> rfl
  case out33 =>
    intro powered
    exact ⟨fun h => onDev_next (if_pos h), fun h => onDev_next (if_neg h)⟩
  case range =>
    refine ⟨_, rfl, ?_⟩
    simp only [onDev, on, if_false, Dev.settle_pwr]
    cases high
    · obtain ⟨low, below⟩ := s.d.vinIn_vin (show 320 ≤ 359 by decide)
      exact ⟨rfl, ⟨low, Nat.lt_succ_of_le below⟩, trivial⟩
    · exact ⟨rfl, s.d.vinIn_vin (show 751 ≤ 820 by decide), trivial⟩

end Sys2Proof.Machine
end

section
/-! Queue registers (R349 to R358, R360): the offset of each, what an access to it does, and the row that makes it. -/

namespace Sys2Proof.Machine

/-! ### Changes that agree on what stands there are equal -/

theorem Dev.modQueue_congr {d : Dev} {q : QueueId} {f g : Queue → Queue} (h : f (d.queue q) = g (d.queue q)) :
    d.modQueue q f = d.modQueue q g :=
  Dev.modRegion_congr (congrArg (fun y => { d.regions[regionOfQueue q] with
    queues := (d.regions[regionOfQueue q]).queues.set (localOfQueue q) y }) h)

theorem Dev.modMbx_congr {d : Dev} {m : Fin 16} {f g : Mbx → Mbx} (h : f d.mbx[m] = g d.mbx[m]) :
    d.modMbx m f = d.modMbx m g :=
  congrArg (fun y => { d with mbx := d.mbx.set m y }) h

/-- A change of a mailbox that changes nothing leaves the device as it is. -/
theorem Dev.modMbx_id (d : Dev) (m : Fin 16) : d.modMbx m (fun x => x) = d := by
  simp [Dev.modMbx]

/-! ### Offsets (R360) -/

theorem queueOf_self (q : QueueId) : queueOf (regionOfQueue q) (localOfQueue q) = q :=
  Fin.ext (Nat.div_add_mod q.val 32)

/-- The offset of a queue register in its region's queue page. -/
def queOff (q : QueueId) (b : Nat) : Nat := 0x40 * (localOfQueue q).val + b

theorem queReg_eq (q : QueueId) (b : Nat) : queReg q b = regionPage (regionOfQueue q) (0 : Fin 4).val + queOff q b :=
  Nat.add_assoc ..

section
variable (q : QueueId) {b : Nat} (hb : b < 0x40)
include hb

theorem queOff_lt : queOff q b < 0x800 := by
  have := (localOfQueue q).isLt
  unfold queOff
  omega

theorem queOff_div : Fin.ofNat 32 (queOff q b / 0x40) = localOfQueue q := by
  refine Fin.ext ?_
  have := (localOfQueue q).isLt
  rw [Fin.val_ofNat, queOff]
  omega

theorem queOff_mod : queOff q b % 0x40 = b := by
  unfold queOff
  omega

end

/-! ### Writes of the page -/

section
variable {d : Dev} {i : Initiator} {q : QueueId} {v : Word}

/-- The data registers of a disabled queue take no write (R357). -/
theorem Dev.queWrite_disabled {b : Nat} (hb : b < 0x40) (data : queData b = true) (off : (d.queue q).en = false) :
    d.queWrite i (regionOfQueue q) (queOff q b) v = (d, .error) := by
  simp only [Dev.queWrite, Nat.not_le.mpr (queOff_lt q hb), queOff_div q hb, queOff_mod q hb, queueOf_self, data, off, if_false,
    Bool.not_false, and_self, if_true]

theorem Dev.queWrite_wrLo (on : (d.queue q).en = true) : d.queWrite i (regionOfQueue q) (queOff q 0x20) v =
    (d.modLatch i fun l => { l with qwr := v }, .done) := by
  have hb : 0x20 < 0x40 := by decide
  simp only [Dev.queWrite, Nat.not_le.mpr (queOff_lt q hb), queOff_div q hb, queOff_mod q hb, queueOf_self, on, if_false,
    Bool.not_true, Bool.false_eq_true, and_false]

/-- The register that pushes a word without or with the end mark (R352). -/
def pushOff (eop : Bool) : Nat := if eop then 0x28 else 0x24

theorem Dev.queWrite_push (eop : Bool) (on : (d.queue q).en = true) :
    d.queWrite i (regionOfQueue q) (queOff q (pushOff eop)) v = d.quePush i q v eop := by
  have hb : pushOff eop < 0x40 := by cases eop <;> decide
  simp only [Dev.queWrite, Nat.not_le.mpr (queOff_lt q hb), queOff_div q hb, queOff_mod q hb, queueOf_self, on, if_false,
    Bool.not_true, Bool.false_eq_true, and_false]
  cases eop <;> rfl

theorem Dev.queWrite_cfg : d.queWrite i (regionOfQueue q) (queOff q 0x00) v =
    (d.modQueue q fun x => x.writeCfg v, .done) := by
  have hb : 0x00 < 0x40 := by decide
  simp only [Dev.queWrite, Nat.not_le.mpr (queOff_lt q hb), queOff_div q hb, queOff_mod q hb, queueOf_self, if_false]
  rfl

/-! ### What the registers do -/

theorem Dev.quePush_discards {eop : Bool} (discard : (d.queue q).discard = true) : d.quePush i q v eop =
    (d.modQueue q fun x => { x with discard := !eop, lastEop := eop }, .done) := by
  simp only [Dev.quePush, discard, Bool.not_true, Bool.and_false, Bool.false_eq_true, if_false]
  exact congrArg (·, Wr.done) (Dev.modQueue_congr (Queue.push_discard _ _ _ discard))

section
variable (keep : (d.queue q).discard = false)
include keep

theorem Dev.quePush_enters {eop : Bool} (space : (d.queue q).words.length < 2 ^ (d.queue q).depth) : d.quePush i q v eop =
    (d.modQueue q fun x => { x with
      words := x.words ++ [{ data := join64 v (d.latch[i]).qwr, eop }], wptr := (x.wptr + 1) % 2 ^ (x.depth + 1)
      pktcnt := x.pktcnt + (if eop then 1 else 0), lastEop := eop }, .done) := by
  have free : (d.queue q).full = false := decide_eq_false (Nat.not_le.mpr space)
  simp only [Dev.quePush, free, Bool.false_and, Bool.false_eq_true, if_false]
  refine congrArg (·, Wr.done) (Dev.modQueue_congr ?_)
  simp only [Queue.push, keep, Bool.false_eq_true, if_false]
  rfl

theorem Dev.quePush_full {eop : Bool} (full : 2 ^ (d.queue q).depth ≤ (d.queue q).words.length) :
    d.quePush i q v eop = (d, .held) := by
  have noSpace : (d.queue q).full = true := decide_eq_true full
  simp only [Dev.quePush, noSpace, keep, Bool.not_false, Bool.and_self, if_true]

end

/-! QUE_CTL (R350, R357). -/

/-- A write of QUE_CTL changes its queue alone; with EN = 0 the pushes that are held for it fail (R354). -/
theorem Dev.queWrite_ctl {f : Queue → Queue} (ctl : (d.regions[regionOfQueue q]).writeQueCtl (localOfQueue q) v =
      { d.regions[regionOfQueue q] with
        queues := (d.regions[regionOfQueue q]).queues.set (localOfQueue q) (f (d.queue q)) }) :
    d.queWrite i (regionOfQueue q) (queOff q 0x04) v =
      (if v.getLsbD 0 then d.modQueue q f else (d.modQueue q f).failPushes q, .done) := by
  have hb : 0x04 < 0x40 := by decide
  have changed : (d.modRegion (regionOfQueue q) fun x => x.writeQueCtl (localOfQueue q) v) = d.modQueue q f :=
    Dev.modRegion_congr ctl
  simp only [Dev.queWrite, Nat.not_le.mpr (queOff_lt q hb), queOff_div q hb, queOff_mod q hb, queueOf_self, changed, if_false]
  rfl

theorem Dev.queWrite_ctlOn {f : Queue → Queue} (en : v.getLsbD 0 = true)
    (ctl : (d.regions[regionOfQueue q]).writeQueCtl (localOfQueue q) v = { d.regions[regionOfQueue q] with
        queues := (d.regions[regionOfQueue q]).queues.set (localOfQueue q) (f (d.queue q)) }) :
    d.queWrite i (regionOfQueue q) (queOff q 0x04) v = (d.modQueue q f, .done) := by
  rw [Dev.queWrite_ctl ctl, if_pos en]

theorem Dev.queWrite_ctlOff {f : Queue → Queue} (en : v.getLsbD 0 = false)
    (ctl : (d.regions[regionOfQueue q]).writeQueCtl (localOfQueue q) v = { d.regions[regionOfQueue q] with
        queues := (d.regions[regionOfQueue q]).queues.set (localOfQueue q) (f (d.queue q)) }) :
    d.queWrite i (regionOfQueue q) (queOff q 0x04) v = ((d.modQueue q f).failPushes q, .done) := by
  rw [Dev.queWrite_ctl ctl, if_neg (by rw [en]; decide)]

section
variable {x : Region} {k : Fin 32}

/-- FLUSH of a queue that stays enabled (R357). -/
theorem Region.writeQueCtl_flush (en : v.getLsbD 0 = true) (flush : v.getLsbD 1 = true) (on : x.queues[k].en = true) :
    x.writeQueCtl k v = { x with queues := x.queues.set k (
      { x.queues[k] with
        words := [], rptr := x.queues[k].wptr, pktcnt := 0, flushed := true, lastEop := true
        pktie := v.getLsbD 2, lowie := v.getLsbD 3, discard := x.queues[k].discard || !x.queues[k].lastEop } : Queue) } := by
  simp only [Region.writeQueCtl, bit, en, flush, on, Bool.not_true, Bool.false_eq_true, if_false, if_true]
  rfl

/-- EN ← 0 flushes the queue and ends DISCARD (R357). -/
theorem Region.writeQueCtl_disable (en : v.getLsbD 0 = false) (flush : v.getLsbD 1 = false) :
    x.writeQueCtl k v = { x with queues := x.queues.set k (
      { x.queues[k] with
        words := [], rptr := x.queues[k].wptr, pktcnt := 0, flushed := true, lastEop := true
        pktie := v.getLsbD 2, lowie := v.getLsbD 3, en := false, discard := false } : Queue) } := by
  simp only [Region.writeQueCtl, bit, en, flush, Bool.not_false, Bool.false_eq_true, if_false, if_true]
  rfl

section
variable (en : v.getLsbD 0 = true) (flush : v.getLsbD 1 = false) (off : x.queues[k].en = false)
include en flush off

theorem Region.writeQueCtl_enable (refused : x.enableRefused k = false) : x.writeQueCtl k v = { x with queues := x.queues.set k (
      { x.queues[k] with en := true, discard := false, lastEop := true, pktie := v.getLsbD 2, lowie := v.getLsbD 3 } : Queue) } := by
  simp only [Region.writeQueCtl, bit, en, flush, off, refused, Bool.not_true, Bool.false_eq_true, if_false]

theorem Region.writeQueCtl_refused (refused : x.enableRefused k = true) : x.writeQueCtl k v = { x with queues := x.queues.set k (
      { x.queues[k] with cfgbad := true, pktie := v.getLsbD 2, lowie := v.getLsbD 3 } : Queue) } := by
  simp only [Region.writeQueCtl, bit, en, flush, off, refused, Bool.not_true, Bool.false_eq_true, if_false, if_true]

end
end

/-! QUE_CFG (R350). -/

theorem Queue.writeCfg_enabled {x : Queue} (on : x.en = true) : x.writeCfg v = { x with cfgbad := true } := if_pos on

theorem Queue.writeCfg_disabled {x : Queue} (off : x.en = false) : x.writeCfg v = { x with
    base := fld v 0 16, depth := fld v 16 4
    wptr := x.wptr % 2 ^ (fld v 16 4 + 1), rptr := x.rptr % 2 ^ (fld v 16 4 + 1) } :=
  if_neg (by rw [off]; decide)

end

/-! ### A word that is taken (R355, R358) -/

/-- The queue without its head word. -/
def Queue.behind (x : Queue) (h : QWord) (l : List QWord) : Queue :=
  { x with words := l, rptr := (x.rptr + 1) % 2 ^ (x.depth + 1), pktcnt := x.pktcnt - (if h.eop then 1 else 0) }

theorem Queue.pop_cons {x : Queue} {h : QWord} {l : List QWord} (hw : x.words = h :: l) : x.pop = x.behind h l := by
  unfold Queue.pop
  rw [hw]
  rfl

/-- The bank that the head word of a queue is charged to. -/
def Dev.headBank (d : Dev) (q : QueueId) : Charged := .unit (.queueBank (regionOfQueue q) (d.queue q).headBank)

section
variable {d : Dev} {i : Initiator} {q : QueueId}

theorem Dev.queRead_rdLo (on : (d.queue q).en = true) : d.queRead i (regionOfQueue q) (queOff q 0x30) =
    ((d.queTake i q).1, .data (d.queTake i q).2) := by
  have hb : 0x30 < 0x40 := by decide
  have notBanks : queOff q 0x30 ≠ 0x800 := (queOff_lt q hb).ne
  simp only [Dev.queRead, notBanks, Nat.not_le.mpr (queOff_lt q hb), queOff_div q hb, queOff_mod q hb, queueOf_self, on, if_false,
    if_true, Bool.not_true, Bool.false_eq_true, and_false]

theorem Dev.queTake_empty (none : (d.queue q).words = []) : d.queTake i q =
    (d.modLatch i fun k => { k with qhi := 0x1D1E1D1E, qeop := false, qempty := true, qerr := false }, 0x1D1E1D1E) := by
  simp only [Dev.queTake, none]
  rfl

section
variable {h : QWord} {l : List QWord} (hw : (d.queue q).words = h :: l)
include hw

/-- The word that is read is the head word, its error told in QUE_RD_STAT. -/
theorem Dev.queTake_cons : d.queTake i q = ((d.takeWord q).modLatch i fun k =>
    { k with qhi := hi32 h.value, qeop := h.eop, qempty := false, qerr := h.err = some true }, lo32 h.value) := by
  simp only [Dev.queTake, hw]

theorem Dev.queTake_intact (he : h.err = none) : d.queTake i q = ((d.modQueue q fun x => x.behind h l).modLatch i fun k =>
    { k with qhi := hi32 h.data, qeop := h.eop, qempty := false, qerr := false }, lo32 h.data) := by
  have popped : d.takeWord q = d.modQueue q fun x => x.behind h l := by
    simp only [Dev.takeWord, hw, he]
    exact Dev.modQueue_congr (Queue.pop_cons hw)
  have value : h.value = h.data := if_neg (by rw [he]; decide)
  rw [Dev.queTake_cons hw, popped, value, he]
  rfl

theorem Dev.queTake_single (he : h.err = some false) : d.queTake i q =
    (((d.modQueue q fun x => x.behind h l).charge (d.headBank q) 2).modLatch i fun k =>
      { k with qhi := hi32 h.data, qeop := h.eop, qempty := false, qerr := false }, lo32 h.data) := by
  have popped : d.modQueue q Queue.pop = d.modQueue q fun x => x.behind h l := Dev.modQueue_congr (Queue.pop_cons hw)
  have value : h.value = h.data := if_neg (by rw [he]; decide)
  rw [Dev.queTake_cons hw, Dev.takeWord_corrected hw he, popped, value, he]
  rfl

theorem Dev.queTake_double (he : h.err = some true) : d.queTake i q =
    (((d.modQueue q fun x => { x.behind h l with ecc2 := true }).charge (d.headBank q) 3).modLatch i fun k =>
      { k with qhi := 0, qeop := h.eop, qempty := false, qerr := true }, 0) := by
  have popped : (d.modQueue q fun x => { x.pop with ecc2 := true }) = d.modQueue q fun x => { x.behind h l with ecc2 := true } :=
    Dev.modQueue_congr (congrArg (fun y : Queue => { y with ecc2 := true }) (Queue.pop_cons hw))
  have taken : d.takeWord q = (d.modQueue q fun x => { x.behind h l with ecc2 := true }).charge (d.headBank q) 3 := by
    simp only [Dev.takeWord, hw, he, popped]
    rfl
  have value : h.value = 0 := if_pos he
  rw [Dev.queTake_cons hw, taken, value, he]
  rfl

end
end

/-! ### The rows -/

section
variable {s : State} {i : Initiator} {q : QueueId} {b : Nat} {v : Word} (hb : b < 0x40)
  (page : s.d.pageAnswers (regionOfQueue q) 0) (hi : s.d.mayWrite i (queReg q b))
include hb page hi

/-- A write of a queue register is what the page does with it. -/
theorem rowWrite_queReg : rowWrite i (queReg q b) v s =
    finish (written i (queReg q b) v (let x := s.begun.d.queWrite i (regionOfQueue q) (queOff q b) v
      ({ s.begun with d := x.1 }, x.2))) :=
  rowWrite_region ((congrArg winOf (queReg_eq q b)).trans (winOf_region _ 0 _ ((queOff_lt q hb).trans (by decide)))) hi page

theorem rowWrite_queReg_done {g : Dev → Dev}
    (write : s.begun.d.queWrite i (regionOfQueue q) (queOff q b) v = (g s.begun.d, .done)) :
    (Host.Outcome.next (rowWrite i (queReg q b) v s) : Host.Outcome State Fault Refusal) =
      .next (onDevW (fun d => (g d).answer i .done) s) := by
  rw [rowWrite_queReg hb page hi, write]
  rfl

end

theorem exec_quePush_eq (eop : Bool) (i : Initiator) (q : QueueId) (v : Word) (s : State) :
    exec (if eop then Instr.queWrendHi i q v else .queWrHi i q v) s = .next (rowWrite i (queReg q (pushOff eop)) v s) := by
  cases eop <;> rfl

theorem exec_queRdLo_eq {i : Initiator} {q : QueueId} {u : List BitErr} {s : State} {g : Dev → Dev} {w : Word}
    (ready : s.d.initReady i = true) (page : (s.upset u).d.pageAnswers (regionOfQueue q) 0)
    (hi : (s.upset u).d.mayRead i (queReg q 0x30)) (on : ((s.upset u).d.queue q).en = true)
    (take : (s.upset u).begun.d.queTake i q = (g (s.upset u).begun.d, w)) :
    exec (.queRdLo i q u) s = .next (onDevW (fun d => (g d).answer i (.data w)) (s.upset u)) := by
  have row : exec (.queRdLo i q u) s = .next (rowRead i (queReg q 0x30) (s.upset u)) :=
    congrArg Host.Outcome.next (if_pos ready)
  rw [row]
  refine rowRead_regionReg (k := 0) (queReg_eq q 0x30) ((queOff_lt q (by decide)).trans (by decide)) page hi ?_
  have read := Dev.queRead_rdLo (d := (s.upset u).begun.d) (i := i) on
  rw [take] at read
  exact read

end Sys2Proof.Machine
end

section
/-! Mailboxes (R372 to R374): the registers of a mailbox, what an access to each does, and the row that makes it. -/

namespace Sys2Proof.Machine

/-! ### Offsets -/

/-- The offset of a mailbox register in the mailbox page. -/
def mbxOff (m : Fin 16) (b : Nat) : Nat := 0x10 * m.val + b

section
variable (m : Fin 16) {b : Nat} (hb : b < 0x10)
include hb

theorem mbxOff_lt : mbxOff m b < 0x100 := by
  have := m.isLt
  unfold mbxOff
  omega

theorem mbxOff_div : Fin.ofNat 16 (mbxOff m b / 0x10) = m := by
  refine Fin.ext ?_
  have := m.isLt
  rw [Fin.val_ofNat, mbxOff]
  omega

theorem mbxOff_mod : mbxOff m b % 0x10 = b := by
  unfold mbxOff
  omega

end

theorem mbxReg_eq (m : Fin 16) (b : Nat) : chipPage 5 + 0x10 * m.val + b = chipPage (5 : Fin 12).val + mbxOff m b :=
  Nat.add_assoc ..

section
variable {d : Dev} {i : Initiator} {m : Fin 16} {p : Fin 10} {v : Word}

/-! ### What the operations do -/

theorem Dev.mbxLock_free (free : (d.mbx[m]).owner = none) :
    d.mbxLock p m = (d.modMbx m fun x => { x with owner := some p }, 0) := by
  simp only [Dev.mbxLock, free]

theorem Dev.mbxLock_own (own : (d.mbx[m]).owner = some p) : d.mbxLock p m = (d.modMbx m fun x => x, 0) := by
  simp only [Dev.mbxLock, own, if_true, Dev.modMbx_id]

theorem Dev.mbxLock_other {o : Fin 10} (owner : (d.mbx[m]).owner = some o) (other : o ≠ p) :
    d.mbxLock p m = (d.modMbx m fun x => x, BitVec.ofNat 32 (o.val + 1)) := by
  simp only [Dev.mbxLock, owner, other, if_false, Dev.modMbx_id]

theorem Mbx.unlock_own {x : Mbx} (own : x.owner = some p) (zero : v = 0) : x.unlock p v = { x with owner := none } := by
  simp only [Mbx.unlock, own, zero, if_true]

theorem Mbx.unlock_other {x : Mbx} (other : x.owner ≠ some p) : x.unlock p v = { x with lockerr := true } := if_neg other

theorem Dev.mbxPost_full (full : (d.mbx[m]).full = true) :
    d.mbxPost p m v = (d.modMbx m fun x => { x with postfail := true }, false) := if_pos full

/-- A mailbox with the message of a sender. -/
def Mbx.holding (x : Mbx) (v : Word) (p : Fin 10) : Mbx := { x with msg := v, full := true, sender := p.val }

section
variable (empty : (d.mbx[m]).full = false)
include empty

theorem Dev.mbxPost_empty (quiet : 8 ≤ p.val ∨ m.val < 12) : d.mbxPost p m v = (d.modMbx m fun x => x.holding v p, true) := by
  have noCause : ¬ (p.val < 8 ∧ 12 ≤ m.val) := by omega
  simp only [Dev.mbxPost, empty, Bool.false_eq_true, if_false, noCause]
  rfl

/-- A core's message in one of the last four mailboxes raises its attention cause. -/
theorem Dev.mbxPost_attention (core : p.val < 8) (last : 12 ≤ m.val) :
    d.mbxPost p m v = ((d.modMbx m fun x => x.holding v p).attnCause (m.val - 8), true) := by
  have cause : 4 + (m.val - 12) = m.val - 8 := by omega
  simp only [Dev.mbxPost, empty, Bool.false_eq_true, if_false, core, last, and_self, if_true, cause]
  rfl

theorem Dev.mbxTake_empty : d.mbxTake p m = (d.modMbx m fun x => x, none) := by
  simp only [Dev.mbxTake, empty, Bool.false_eq_true, if_false, Dev.modMbx_id]

end

/-- A mailbox whose message has been taken. -/
def Mbx.emptied (x : Mbx) : Mbx := { x with full := false, taken := true }

section
variable (full : (d.mbx[m]).full = true)
include full

theorem Dev.mbxTake_quiet (quiet : ¬ (p.val < 8 ∧ 12 ≤ m.val ∧ ((d.mbx[m]).sender = 8 ∨ (d.mbx[m]).sender = 9))) :
    d.mbxTake p m = (d.modMbx m Mbx.emptied, some (d.mbx[m]).msg) := by
  simp only [Dev.mbxTake, full, if_true, quiet, if_false]
  rfl

/-- A core that takes a link's message from one of the last four mailboxes raises its attention cause. -/
theorem Dev.mbxTake_attention (core : p.val < 8) (last : 12 ≤ m.val)
    (link : (d.mbx[m]).sender = 8 ∨ (d.mbx[m]).sender = 9) :
    d.mbxTake p m = ((d.modMbx m Mbx.emptied).attnCause (m.val - 4), some (d.mbx[m]).msg) := by
  have cause : 8 + (m.val - 12) = m.val - 4 := by omega
  simp only [Dev.mbxTake, full, if_true, core, last, link, and_self, cause]
  rfl

end

/-! ### The page -/

section
variable (party : mbxParty i = some p)
include party

theorem Dev.mbxRead_lock {e : Dev} {w : Word} (lock : d.mbxLock p m = (e, w)) :
    d.mbxRead i (mbxOff m 0x0) = (e, .data w) := by
  have hb : 0x0 < 0x10 := by decide
  simp only [Dev.mbxRead, party, Nat.not_le.mpr (mbxOff_lt m hb), mbxOff_div m hb, mbxOff_mod m hb, if_false, lock]

theorem Dev.mbxRead_take {e : Dev} {w : Option Word} (take : d.mbxTake p m = (e, w)) :
    d.mbxRead i (mbxOff m 0x8) = (e, .data (w.getD 0)) := by
  have hb : 0x8 < 0x10 := by decide
  simp only [Dev.mbxRead, party, Nat.not_le.mpr (mbxOff_lt m hb), mbxOff_div m hb, mbxOff_mod m hb, if_false, take]

theorem Dev.mbxWrite_lock {f : Mbx → Mbx} (unlock : (d.mbx[m]).unlock p v = f d.mbx[m]) :
    d.mbxWrite i (mbxOff m 0x0) v = (d.modMbx m f, .done) := by
  have hb : 0x0 < 0x10 := by decide
  have changed : (d.modMbx m fun x => x.unlock p v) = d.modMbx m f := Dev.modMbx_congr unlock
  simp only [Dev.mbxWrite, party, Nat.not_le.mpr (mbxOff_lt m hb), mbxOff_div m hb, mbxOff_mod m hb, if_false, changed]

theorem Dev.mbxWrite_msg {e : Dev} {taken : Bool} (post : d.mbxPost p m v = (e, taken)) :
    d.mbxWrite i (mbxOff m 0x4) v = (e, .done) := by
  have hb : 0x4 < 0x10 := by decide
  simp only [Dev.mbxWrite, party, Nat.not_le.mpr (mbxOff_lt m hb), mbxOff_div m hb, mbxOff_mod m hb, if_false, post]

/-- TAKEN clears for its sender alone (R374). -/
theorem Dev.mbxWrite_stat : d.mbxWrite i (mbxOff m 0xC) v = (d.modMbx m fun x =>
    { x with
      taken := x.taken && !(v.getLsbD 1 && x.sender == p.val), postfail := x.postfail && !v.getLsbD 2
      lockerr := x.lockerr && !v.getLsbD 3, rxcore := fld v 8 4 }, .done) := by
  have hb : 0xC < 0x10 := by decide
  simp only [Dev.mbxWrite, party, Nat.not_le.mpr (mbxOff_lt m hb), mbxOff_div m hb, mbxOff_mod m hb, if_false]
  rfl

end

/-! ### The rows -/

variable {s : State} {b : Nat} (hb : b < 0x10)
include hb

theorem rowRead_mbxReg {g : Dev → Dev} {w : Word} (hi : s.d.mayRead i (chipPage 5 + 0x10 * m.val + b))
    (read : s.begun.d.mbxRead i (mbxOff m b) = (g s.begun.d, .data w)) :
    (Host.Outcome.next (rowRead i (chipPage 5 + 0x10 * m.val + b) s) : Host.Outcome State Fault Refusal) =
      .next (onDevW (fun d => (g d).answer i (.data w)) s) :=
  rowRead_chipReg (k := 5) (mbxReg_eq m b) ((mbxOff_lt m hb).trans (by decide)) hi read

theorem rowWrite_mbxReg {g : Dev → Dev} (hi : s.d.mayWrite i (chipPage 5 + 0x10 * m.val + b))
    (write : s.begun.d.mbxWrite i (mbxOff m b) v = (g s.begun.d, .done)) :
    (Host.Outcome.next (rowWrite i (chipPage 5 + 0x10 * m.val + b) v s) : Host.Outcome State Fault Refusal) =
      .next (onDevW (fun d => (g d).answer i .done) s) := by
  refine rowWrite_chipReg (k := 5) (mbxReg_eq m b) ((mbxOff_lt m hb).trans (by decide)) hi ?_
  unfold chipWrite
  simp only [write]

end

/-- Settles O50: each access is the row of its register, and what the page does there. -/
theorem queuesAndMailboxesKeepTheirOrder : Obligations.QueuesAndMailboxesKeepTheirOrder := by
  refine ⟨fun s i q v page => ⟨fun on => ⟨fun hi => ?wrLo, fun eop hi => ⟨fun discard => ?discards, fun keep space => ?enters,
      fun keep full => ?held⟩, fun u ready hr pageU onU => ?rdLo⟩, fun hi off => ?disabled, fun hi => ⟨fun en flush on => ?flush,
      fun en flush => ?off, fun en flush off => ⟨fun free => ?enable, fun refused => ?refused⟩⟩,
      fun hi => ⟨fun on => ?cfgBad, fun off => ?cfg⟩⟩,
    fun s i m p v party => ⟨fun hr => ⟨fun free => ?lockFree, fun own => ?lockOwn, fun o owner other => ?lockOther⟩,
      fun hi => ⟨fun own zero => ?unlock, fun other => ?unlockOther⟩,
      fun hi => ⟨fun full => ?postFull, fun empty quiet => ?post, fun empty core last => ?postAttention⟩,
      fun hr => ⟨fun full quiet => ?take, fun full core last => ⟨fun link => ?takeAttention, fun not8 not9 => ?takeCore⟩,
        fun empty => ?takeNone⟩, fun hi => ?clear⟩⟩
  case wrLo =>
    exact rowWrite_queReg_done (by decide) page hi (Dev.queWrite_wrLo (d := s.begun.d) on)
  case discards => exact (exec_quePush_eq eop i q v s).trans (rowWrite_queReg_done (by cases eop <;> decide) page hi
      ((Dev.queWrite_push (d := s.begun.d) eop on).trans (Dev.quePush_discards discard)))
  case enters => exact (exec_quePush_eq eop i q v s).trans (rowWrite_queReg_done (by cases eop <;> decide) page hi
      ((Dev.queWrite_push (d := s.begun.d) eop on).trans (Dev.quePush_enters (d := s.begun.d) keep space)))
  case held =>
    have push := (Dev.queWrite_push (d := s.begun.d) (i := i) (v := v) eop on).trans (Dev.quePush_full (d := s.begun.d) keep full)
    have row := rowWrite_queReg (v := v) (by cases eop <;> decide) page (b := pushOff eop) hi
    rw [push] at row
    exact (exec_quePush_eq eop i q v s).trans (congrArg Host.Outcome.next row)
  case rdLo =>
    exact ⟨fun h l hw => ⟨fun he => exec_queRdLo_eq ready pageU hr onU (Dev.queTake_intact (d := (s.upset u).begun.d) hw he),
        fun he => exec_queRdLo_eq ready pageU hr onU (Dev.queTake_single (d := (s.upset u).begun.d) hw he),
        fun he => exec_queRdLo_eq ready pageU hr onU (Dev.queTake_double (d := (s.upset u).begun.d) hw he)⟩,
      fun none => exec_queRdLo_eq (g := fun d => d.modLatch i _) ready pageU hr onU
        (Dev.queTake_empty (d := (s.upset u).begun.d) none)⟩
  case disabled =>
    have refused := Dev.queWrite_disabled (d := s.begun.d) (i := i) (v := v) (b := 0x24) (by decide) (by decide) off
    exact congrArg Host.Outcome.next ((rowWrite_queReg (by decide) page hi).trans (by rw [refused]; rfl))
  case flush =>
    exact rowWrite_queReg_done (by decide) page hi
      (Dev.queWrite_ctlOn (d := s.begun.d) en (Region.writeQueCtl_flush en flush on))
  case off =>
    exact rowWrite_queReg_done (by decide) page hi
      (Dev.queWrite_ctlOff (d := s.begun.d) en (Region.writeQueCtl_disable en flush))
  case enable =>
    exact rowWrite_queReg_done (by decide) page hi
      (Dev.queWrite_ctlOn (d := s.begun.d) en (Region.writeQueCtl_enable en flush off free))
  case refused =>
    exact rowWrite_queReg_done (by decide) page hi
      (Dev.queWrite_ctlOn (d := s.begun.d) en (Region.writeQueCtl_refused en flush off refused))
  case cfgBad =>
    exact rowWrite_queReg_done (by decide) page hi
      (Dev.queWrite_cfg.trans (congrArg (·, Wr.done) (Dev.modQueue_congr (Queue.writeCfg_enabled on))))
  case cfg =>
    exact rowWrite_queReg_done (by decide) page hi
      (Dev.queWrite_cfg.trans (congrArg (·, Wr.done) (Dev.modQueue_congr (Queue.writeCfg_disabled off))))
  case lockFree => exact rowRead_mbxReg (by decide) hr (Dev.mbxRead_lock (d := s.begun.d) party (Dev.mbxLock_free free))
  case lockOwn => exact rowRead_mbxReg (by decide) hr (Dev.mbxRead_lock (d := s.begun.d) party (Dev.mbxLock_own own))
  case lockOther =>
    exact rowRead_mbxReg (by decide) hr (Dev.mbxRead_lock (d := s.begun.d) party (Dev.mbxLock_other owner other))
  case unlock => exact rowWrite_mbxReg (by decide) hi (Dev.mbxWrite_lock (d := s.begun.d) party (Mbx.unlock_own own zero))
  case unlockOther => exact rowWrite_mbxReg (by decide) hi (Dev.mbxWrite_lock (d := s.begun.d) party (Mbx.unlock_other other))
  case postFull => exact rowWrite_mbxReg (by decide) hi (Dev.mbxWrite_msg (d := s.begun.d) party (Dev.mbxPost_full full))
  case post => exact rowWrite_mbxReg (by decide) hi (Dev.mbxWrite_msg (d := s.begun.d) party (Dev.mbxPost_empty empty quiet))
  case postAttention =>
    exact rowWrite_mbxReg (by decide) hi (Dev.mbxWrite_msg (d := s.begun.d) party (Dev.mbxPost_attention empty core last))
  case take =>
    exact rowRead_mbxReg (by decide) hr (Dev.mbxRead_take (d := s.begun.d) party (Dev.mbxTake_quiet full (by omega)))
  case takeAttention =>
    exact rowRead_mbxReg (by decide) hr (Dev.mbxRead_take party (Dev.mbxTake_attention (d := s.begun.d) full core last link))
  case takeCore =>
    have quiet : ¬ (p.val < 8 ∧ 12 ≤ m.val ∧ ((s.d.mbx[m]).sender = 8 ∨ (s.d.mbx[m]).sender = 9)) := fun h =>
      h.2.2.elim not8 not9
    exact rowRead_mbxReg (by decide) hr (Dev.mbxRead_take (d := s.begun.d) party (Dev.mbxTake_quiet full quiet))
  case takeNone => exact rowRead_mbxReg (by decide) hr (Dev.mbxRead_take (d := s.begun.d) party (Dev.mbxTake_empty empty))
  case clear => exact rowWrite_mbxReg (by decide) hi (Dev.mbxWrite_stat party)

end Sys2Proof.Machine
end

section
/-! The DMA page (R361 to R369): channels by their number, COMMIT, ABORT, and how a descriptor ends. -/

namespace Sys2Proof.Machine

/-! ### Channels by their number -/

theorem chanNo_val (r : RegionId) (ch : Fin 8) : (chanNo r ch).val = 8 * r.val + ch.val := rfl

theorem chanNo_region (r : RegionId) (ch : Fin 8) : Fin.ofNat 4 ((chanNo r ch).val / 8) = r := by
  refine Fin.ext ?_
  rw [Fin.val_ofNat, chanNo_val]
  omega

theorem chanNo_channel (r : RegionId) (ch : Fin 8) : Fin.ofNat 8 (chanNo r ch).val = ch := by
  refine Fin.ext ?_
  rw [Fin.val_ofNat, chanNo_val]
  omega

theorem Dev.dma_chanNo (d : Dev) (r : RegionId) (ch : Fin 8) : d.dma (chanNo r ch) = (d.regions[r]).dma.chans[ch] := by
  simp only [Dev.dma, chanNo_region, chanNo_channel]

section
variable (d : Dev) (n : Fin 32) (f g : DmaChan → DmaChan)

@[simp] theorem Dev.dma_modDma : (d.modDma n f).dma n = f (d.dma n) := by
  simp only [Dev.modDma, Dev.dma, Dev.modRegion_regions_self, vset_self]

theorem Dev.modDma_modDma : (d.modDma n f).modDma n g = d.modDma n fun c => g (f c) := by
  simp only [Dev.modDma, Dev.modRegion_modRegion, vset_self]
  simp [-Fin.getElem_fin]

variable {d n f g}

theorem Dev.modDma_congr (h : f (d.dma n) = g (d.dma n)) : d.modDma n f = d.modDma n g :=
  Dev.modRegion_congr (congrArg (fun y => { d.regions[(Fin.ofNat 4 (n.val / 8) : RegionId)] with
    dma := { (d.regions[(Fin.ofNat 4 (n.val / 8) : RegionId)]).dma with
      chans := (d.regions[(Fin.ofNat 4 (n.val / 8) : RegionId)]).dma.chans.set (Fin.ofNat 8 n.val) y } }) h)

theorem Dev.modDma_same (h : f (d.dma n) = d.dma n) : d.modDma n f = d := by
  rw [Dev.modDma_congr (g := fun c => c) h]
  have chans (x : Dma) (k : Fin 8) : { x with chans := x.chans.set k x.chans[k] } = x := by simp
  have region (k : RegionId) : { d with regions := d.regions.set k d.regions[k] } = d := by simp
  simp only [Dev.modDma, Dev.modRegion, chans]
  exact region _

theorem Dev.shadowWrite_congr (h : f (d.dma n) = g (d.dma n)) : d.shadowWrite n f = d.shadowWrite n g := by
  have late : (d.modDma n fun c => { f c with late := c.late || d.freeNow % 2 = 1 }) =
      d.modDma n fun c => { g c with late := c.late || d.freeNow % 2 = 1 } :=
    Dev.modDma_congr (congrArg (fun c : DmaChan => { c with late := (d.dma n).late || d.freeNow % 2 = 1 }) h)
  rw [Dev.shadowWrite, Dev.shadowWrite, late, Dev.modDma_congr h]

end

/-! ### The hand-over (R361) -/

/-- A committed channel that takes its shadow whole. -/
def DmaChan.taking (c : DmaChan) (sh : Desc) : DmaChan :=
  { c with
    shadow := sh, commit := false, active := some sh, shown := sh, cnt := sh.cnt, taken := 0, written := 0, buf := []
    readEnd := .open_, aborting := false, crc := 0, rdLeft := 0, wrLeft := 0, issued := false, pushFail := false }

section
variable {c : DmaChan} {sh : Desc}

section
variable (idle : c.active = none) (err : c.err = false) (aborted : c.aborted = false) (bad : c.baddesc = false)
include idle err aborted bad

theorem DmaChan.takeIdle_idle : c.takeIdle = c.take :=
  if_pos (by rw [idle, err, aborted, bad]; rfl)

theorem DmaChan.takeIdle_valid (valid : sh.valid = true) : { c with shadow := sh, commit := true }.takeIdle = c.taking sh := by
  rw [DmaChan.takeIdle_idle (c := { c with shadow := sh, commit := true }) idle err aborted bad]
  simp only [DmaChan.take, valid, Bool.not_true, Bool.false_eq_true, if_false]
  rfl

theorem DmaChan.takeIdle_invalid (invalid : sh.valid = false) :
    { c with shadow := sh, commit := true }.takeIdle = { c with shadow := sh, commit := false, baddesc := true } := by
  rw [DmaChan.takeIdle_idle (c := { c with shadow := sh, commit := true }) idle err aborted bad]
  simp only [DmaChan.take, invalid, Bool.not_true, Bool.not_false, Bool.false_eq_true, if_false, if_true]

end

theorem DmaChan.takeIdle_busy (busy : c.active ≠ none ∨ c.err = true ∨ c.aborted = true ∨ c.baddesc = true) :
    c.takeIdle = c := by
  have notIdle : (c.active.isNone && !c.err && !c.aborted && !c.baddesc) = false := by
    rcases busy with h | h | h | h
    · simp [Option.isNone_eq_false_iff.mpr (Option.isSome_iff_ne_none.mpr h)]
    all_goals simp [h]
  exact if_neg (by rw [notIdle]; decide)

end

/-! ### The page -/

/-- The offset of a channel's register in the DMA page. -/
def chanOff (ch : Fin 8) (b : Nat) : Nat := 0x40 * ch.val + b

section
variable (r : RegionId) (ch : Fin 8) {b : Nat} (hb : b < 0x40)
include hb

theorem chanOff_lt : chanOff ch b < 0x200 := by
  have := ch.isLt
  unfold chanOff
  omega

theorem chanOff_no : Fin.ofNat 32 (8 * r.val + chanOff ch b / 0x40) = chanNo r ch := by
  refine Fin.ext ?_
  rw [Fin.val_ofNat, chanNo_val, chanOff]
  omega

theorem chanOff_mod : chanOff ch b % 0x40 = b := by
  unfold chanOff
  omega

end

section
variable {r : RegionId} {ch : Fin 8} {v : Word} {s : State}

/-- A write of DMA_NCFG with COMMIT (R361). -/
theorem dmaWrite_commit (commit : v.getLsbD 31 = true) : dmaWrite r (chanOff ch 0x10) v s =
    { s with d := s.d.shadowWrite (chanNo r ch) fun c =>
      { c with
        shadow := { c.shadow with cfg := v &&& ncfgMask (chanNo r ch) &&& 0x7FFFFFFF }, commit := true }.takeIdle } := by
  have hb : 0x10 < 0x40 := by decide
  simp only [dmaWrite, Nat.not_le.mpr (chanOff_lt ch hb), chanOff_no r ch hb, chanOff_mod ch hb, if_false, bit, commit]

theorem dmaWrite_abort (abort : v.getLsbD 0 = true) : dmaWrite r (chanOff ch 0x34) v s = dmaAbort (chanNo r ch) s := by
  have hb : 0x34 < 0x40 := by decide
  simp only [dmaWrite, Nat.not_le.mpr (chanOff_lt ch hb), chanOff_no r ch hb, chanOff_mod ch hb, if_false, bit, abort, if_true]

variable {i : Initiator} {b : Nat} (hb : b < 0x40) (page : s.d.pageAnswers r 1)
  (hi : s.d.mayWrite i (regionPage r 1 + 0x40 * ch.val + b))
include hb page hi

theorem rowWrite_dmaReg : rowWrite i (regionPage r 1 + 0x40 * ch.val + b) v s =
    finish (written i (regionPage r 1 + 0x40 * ch.val + b) v (dmaWrite r (chanOff ch b) v s.begun, .done)) :=
  rowWrite_region ((congrArg winOf (Nat.add_assoc ..)).trans (winOf_region r 1 _ ((chanOff_lt ch hb).trans (by decide)))) hi page

end

/-- The row of a channel's register is the access of that register. -/
theorem chanReg_eq (r : RegionId) (ch : Fin 8) (b : Nat) :
    regionPage (Fin.ofNat 4 ((chanNo r ch).val / 8)) 1 + 0x40 * ((chanNo r ch).val % 8) + b =
      regionPage r 1 + 0x40 * ch.val + b := by
  have channel : (chanNo r ch).val % 8 = ch.val := by
    rw [chanNo_val]
    omega
  rw [chanNo_region, channel]

theorem exec_dmaCommit_eq (i : Initiator) (r : RegionId) (ch : Fin 8) (v : Word) (s : State) :
    exec (.dmaCommit i (chanNo r ch) v) s = .next (rowWrite i (regionPage r 1 + 0x40 * ch.val + 0x10) v s) := by
  rw [← chanReg_eq]
  rfl

theorem exec_dmaAbort_eq (i : Initiator) (r : RegionId) (ch : Fin 8) (v : Word) (s : State) :
    exec (.dmaAbort i (chanNo r ch) v) s = .next (rowWrite i (regionPage r 1 + 0x40 * ch.val + 0x34) v s) := by
  rw [← chanReg_eq]
  rfl

section
variable {s : State} {i : Initiator} {r : RegionId} {ch : Fin 8} {v : Word} (page : s.d.pageAnswers r 1)
include page

/-- COMMIT, by what it makes of its channel. -/
theorem exec_dmaCommit_makes {f : DmaChan → DmaChan} (hi : s.d.mayWrite i (regionPage r 1 + 0x40 * ch.val + 0x10))
    (commit : v.getLsbD 31 = true) (takes : { s.d.dma (chanNo r ch) with
        shadow := { (s.d.dma (chanNo r ch)).shadow with cfg := v &&& ncfgMask (chanNo r ch) &&& 0x7FFFFFFF }
        commit := true }.takeIdle = f (s.d.dma (chanNo r ch))) :
    exec (.dmaCommit i (chanNo r ch) v) s =
      .next (onDevW (fun d => (d.shadowWrite (chanNo r ch) f).answer i .done) s) := by
  have changed := Dev.shadowWrite_congr (d := s.begun.d) (f := fun c => { c with
    shadow := { c.shadow with cfg := v &&& ncfgMask (chanNo r ch) &&& 0x7FFFFFFF }, commit := true }.takeIdle) takes
  rw [exec_dmaCommit_eq, rowWrite_dmaReg (by decide) page hi, dmaWrite_commit commit, changed]
  rfl

/-- ABORT, by what it leaves. -/
theorem exec_dmaAbort_leaves {t : State} (hi : s.d.mayWrite i (regionPage r 1 + 0x40 * ch.val + 0x34))
    (abort : v.getLsbD 0 = true) (leaves : dmaAbort (chanNo r ch) s.begun = t) :
    exec (.dmaAbort i (chanNo r ch) v) s = .next (finish { t with d := t.d.answer i .done }) := by
  rw [exec_dmaAbort_eq, rowWrite_dmaReg (by decide) page hi, dmaWrite_abort abort, leaves]
  rfl

end
end Sys2Proof.Machine
end

section
/-! How a descriptor ends and is aborted (R368, R369, R376), and the bursts of the two engines (R363 to R367). -/

namespace Sys2Proof.Machine

/-! ### The end of a descriptor (R368) -/

section
variable {c : DmaChan} {x : Desc} (active : c.active = some x)
include active

theorem DmaChan.close_done (b : Bool) : c.close (.done b) = { c with
    active := none, buf := [], aborting := false, rdLeft := 0, wrLeft := 0, issued := false, pushFail := false, ie := x.ieOn
    done := true, err := false, errLast := false, aborted := false, eopstop := b, residue := c.cnt } := by
  rw [DmaChan.close, active]

theorem DmaChan.close_aborted : c.close .aborted = { c with
    active := none, buf := [], aborting := false, ie := x.ieOn, done := false, err := false, errLast := false
    aborted := true, eopstop := false, residue := c.cnt, rdLeft := 0, wrLeft := 0, issued := false, pushFail := false } := by
  rw [DmaChan.close, active]

end

section
variable {s : State} {n : Fin 32} {x : Desc} (active : (s.d.dma n).active = some x)
include active

theorem dmaEnd_aborted (noWb : x.wbOn = false) : dmaEnd n .aborted s = { s with d := s.d.modDma n fun c => c.close .aborted } := by
  simp only [dmaEnd, active, noWb, Bool.false_eq_true, if_false, if_true]

/-- DONE without a write-back, and with no descriptor to hand over (R361, R376). -/
theorem dmaEnd_done (noWb : x.wbOn = false) (none : (s.d.dma n).commit = false) (b : Bool) :
    dmaEnd n (.done b) s = { s with d := (s.d.modDma n fun c => c.close (.done b)).fire [⟨0xC0 + n.val, 0⟩] } := by
  have closed : (s.d.modDma n fun c => c.close (.done b)).modDma n (fun c => c.handOver s.d.now) =
      s.d.modDma n fun c => c.close (.done b) := by
    refine Dev.modDma_same (if_neg ?_)
    rw [Dev.dma_modDma, DmaChan.close_done active, none]
    decide
  have now : (s.d.modDma n fun c => c.close (.done b)).now = s.d.now := rfl
  simp only [dmaEnd, active, noWb, Bool.false_eq_true, if_false, if_true, dmaCode, now, closed]

end

/-! ### ABORT (R369) -/

/-- A channel that is told to stop: only what came from a queue, or is in the write burst in progress, is still written. -/
def DmaChan.stopping (c : DmaChan) (x : Desc) : DmaChan :=
  { c with aborting := true, buf := if x.srcKind = 2 then c.buf else c.buf.take c.wrLeft }

theorem dmaAbort_idle {n : Fin 32} {s : State} (idle : (s.d.dma n).active = none) : dmaAbort n s = s := by
  simp only [dmaAbort, idle]

section
variable {s : State} {n : Fin 32} {x : Desc} (active : (s.d.dma n).active = some x)
include active

theorem dmaAbort_active : dmaAbort n s =
    (let t := { s with d := s.d.modDma n fun _ => (s.d.dma n).stopping x }
     if ((s.d.dma n).stopping x).stopped then dmaEnd n .aborted t else t) := by
  have told : (s.d.modDma n fun c => { c with aborting := true, buf := if x.srcKind = 2 then c.buf else c.buf.take c.wrLeft }) =
      s.d.modDma n fun _ => (s.d.dma n).stopping x := Dev.modDma_congr rfl
  simp only [dmaAbort, active, told, Dev.dma_modDma]

theorem dmaAbort_goesOn (work : ((s.d.dma n).stopping x).buf ≠ [] ∨ (s.d.dma n).rdLeft ≠ 0) :
    dmaAbort n s = { s with d := s.d.modDma n fun _ => (s.d.dma n).stopping x } := by
  have goesOn : ((s.d.dma n).stopping x).stopped = false := by
    rcases work with h | h
    · simp [DmaChan.stopped, h]
    · have left : ((s.d.dma n).stopping x).rdLeft ≠ 0 := h
      simp [DmaChan.stopped, left]
  rw [dmaAbort_active active]
  exact if_neg (by rw [goesOn]; decide)

theorem dmaAbort_ends (empty : ((s.d.dma n).stopping x).buf = []) (read : (s.d.dma n).rdLeft = 0) :
    dmaAbort n s = dmaEnd n .aborted { s with d := s.d.modDma n fun _ => (s.d.dma n).stopping x } := by
  have left : ((s.d.dma n).stopping x).rdLeft = 0 := read
  rw [dmaAbort_active active]
  exact if_pos (by simp [DmaChan.stopped, empty, left]; rfl)

/-- Without a write-back an ABORT that ends the descriptor leaves the channel closed. -/
theorem dmaAbort_closes (empty : ((s.d.dma n).stopping x).buf = []) (read : (s.d.dma n).rdLeft = 0) (noWb : x.wbOn = false) :
    dmaAbort n s = { s with d := s.d.modDma n fun c => { c with
      active := none, buf := [], aborting := false, ie := x.ieOn, done := false, err := false, errLast := false
      aborted := true, eopstop := false, residue := c.cnt, rdLeft := 0, wrLeft := 0, issued := false, pushFail := false } } := by
  have stands : ((s.d.modDma n fun _ => (s.d.dma n).stopping x).dma n).active = some x := by
    rw [Dev.dma_modDma]
    exact active
  have closed : (s.d.modDma n fun _ => (s.d.dma n).stopping x).modDma n (fun c => c.close .aborted) = s.d.modDma n fun c => { c with
      active := none, buf := [], aborting := false, ie := x.ieOn, done := false, err := false, errLast := false
      aborted := true, eopstop := false, residue := c.cnt, rdLeft := 0, wrLeft := 0, issued := false, pushFail := false } :=
    (Dev.modDma_modDma ..).trans (Dev.modDma_congr (DmaChan.close_aborted (c := (s.d.dma n).stopping x) active))
  exact (dmaAbort_ends active empty read).trans
    ((dmaEnd_aborted (s := { s with d := s.d.modDma n fun _ => (s.d.dma n).stopping x }) stands noWb).trans
      (congrArg (fun d => { s with d := d }) closed))

end

/-! ### Read bursts (R364) -/

section
variable {r : RegionId} {s : State} {u : List BitErr}

theorem exec_dmaReadBurst_none (idle : (s.begun.upset u).d.dmaOn r = false ∨
      nextChan ((s.begun.upset u).d.regions[r]).dma.rdTurn (fun k => decide
        (0 < (s.begun.upset u).d.readBurst r ((s.begun.upset u).d.regions[r]).dma.chans[k])) = none) :
    exec (.dmaReadBurst ⟨r, u⟩) s = done (s.begun.upset u) := by
  have stays : dmaReadBurst r (s.begun.upset u) = s.begun.upset u := by
    unfold dmaReadBurst
    rcases idle with h | h
    · simp only [h, Bool.not_false, if_true]
    · dsimp only
      rw [h]
      exact ite_self _
  exact congrArg done stays

theorem exec_dmaReadBurst_reads {ch : Fin 8} (on : (s.begun.upset u).d.dmaOn r = true)
    (next : nextChan ((s.begun.upset u).d.regions[r]).dma.rdTurn (fun k => decide
        (0 < (s.begun.upset u).d.readBurst r ((s.begun.upset u).d.regions[r]).dma.chans[k])) = some ch) :
    exec (.dmaReadBurst ⟨r, u⟩) s =
      (let b := dmaReads r (chanNo r ch) ((s.begun.upset u).d.readBurst r ((s.begun.upset u).d.dma (chanNo r ch))) (s.begun.upset u)
       done { b.1 with d := b.1.d.modRegion r fun g =>
         { g with dma := { g.dma with rdTurn := if b.2 then ch.val + 1 else ch.val } } }) := by
  refine congrArg done ?_
  change dmaReadBurst r (s.begun.upset u) = _
  unfold dmaReadBurst
  simp only [on, Bool.not_true, Bool.false_eq_true, if_false, next, Dev.dma_chanNo]

end

section
variable {r : RegionId} {n : Fin 32} {k : Nat} {t t' : State} {x : Desc} (active : (t.d.dma n).active = some x)
include active

theorem dmaReads_got {e : Elem} (read : elemRead r x (t.d.dma n).taken t = (t', .got e)) :
    dmaReads r n (k + 1) t = dmaReads r n k { t' with d := t'.d.modDma n fun c => c.got x e } := by
  rw [dmaReads, active]
  simp only [read]

theorem dmaReads_error {a : Word} (read : elemRead r x (t.d.dma n).taken t = (t', .error a)) :
    dmaReads r n (k + 1) t = (dmaEnd n (.err a (t'.d.dma n).cnt false) t', true) := by
  rw [dmaReads, active]
  simp only [read]

theorem dmaReads_held (read : elemRead r x (t.d.dma n).taken t = (t', .held)) :
    dmaReads r n (k + 1) t = ({ t' with d := t'.d.modDma n fun c => { c with rdLeft := k + 1 } }, false) := by
  rw [dmaReads, active]
  simp only [read]

end

/-- An element of 4 bytes of a MEM source is one bus read. -/
theorem elemRead_mem {r : RegionId} {x : Desc} {k : Nat} {t t' : State} {w : Word} (mem : x.srcKind = 0) (word : x.elem = 4)
    (read : t.busRead (initOfDma r) (x.src.toNat + 4 * k) 4 false = (t', .data w)) :
    elemRead r x k t = (t', .got { data := w.setWidth 64, eop := false }) := by
  have addr : Desc.addr x.srcKind x.src x.elem k = x.src.toNat + 4 * k := by rw [Desc.addr, if_pos mem, word]
  have notQueue : x.srcKind ≠ 2 := by omega
  have not8 : x.elem ≠ 8 := by omega
  simp only [elemRead, notQueue, not8, if_false, addr, read]

/-! ### Write bursts (R365) -/

section
variable {r : RegionId} {s : State}

theorem exec_dmaWriteBurst_none (idle : s.begun.d.dmaOn r = false ∨
      nextChan (s.begun.d.regions[r]).dma.wrTurn (fun k => (s.begun.d.writeBurst r (s.begun.d.regions[r]).dma.chans[k]).2) = none) :
    exec (.dmaWriteBurst r) s = done s.begun := by
  have stays : dmaWriteBurst r s.begun = s.begun := by
    unfold dmaWriteBurst
    rcases idle with h | h
    · simp only [h, Bool.not_false, if_true]
    · dsimp only
      rw [h]
      exact ite_self _
  exact congrArg done stays

theorem exec_dmaWriteBurst_writes {ch : Fin 8} (on : s.begun.d.dmaOn r = true)
    (next : nextChan (s.begun.d.regions[r]).dma.wrTurn
      (fun k => (s.begun.d.writeBurst r (s.begun.d.regions[r]).dma.chans[k]).2) = some ch) :
    exec (.dmaWriteBurst r) s =
      (let b := dmaWrites r (chanNo r ch) (s.begun.d.writeBurst r (s.begun.d.dma (chanNo r ch))).1 s.begun
       let e := if b.2 then dmaFinish r (chanNo r ch) b.1 else b
       done { e.1 with d := e.1.d.modRegion r fun g =>
         { g with dma := { g.dma with wrTurn := if e.2 then ch.val + 1 else ch.val } } }) := by
  refine congrArg done ?_
  unfold dmaWriteBurst
  simp only [on, Bool.not_true, Bool.false_eq_true, if_false, next, Dev.dma_chanNo]

end

/-! ### The end of a write burst (R368) -/

/-- A descriptor whose elements are all written ends DONE and fires its event. -/
theorem dmaFinish_done {r : RegionId} {n : Fin 32} {t : State} {x : Desc} {b : Bool} (active : (t.d.dma n).active = some x)
    (empty : (t.d.dma n).buf = []) (goesOn : (t.d.dma n).aborting = false) (noCrc : x.crcStore = false) (noWb : x.wbOn = false)
    (none : (t.d.dma n).commit = false) (read : (t.d.dma n).readEnd = if b then .eop else .count) :
    dmaFinish r n t = ({ t with d := (t.d.modDma n fun c => c.close (.done b)).fire [⟨0xC0 + n.val, 0⟩] }, true) := by
  have ended : dmaFinish r n t = (dmaEnd n (.done b) t, true) := by
    unfold dmaFinish
    simp only [active, empty, goesOn, noCrc, read, List.isEmpty_nil, Bool.not_true, Bool.false_eq_true, if_false]
    cases b <;> rfl
  exact ended.trans (congrArg (·, true) (dmaEnd_done active noWb none b))

end Sys2Proof.Machine
end

section
/-! What a write on the bus leaves of the DMA blocks (R361 to R371): whatever else a register outside the DMA page and the
queue pages changes, the DMA block of every region stands. One lemma for each operation that such a write reaches. -/

namespace Sys2Proof.Machine

/-- The DMA block of every region stands. -/
structure DmaStands (d e : Dev) : Prop where
  dma : ∀ r : RegionId, (e.regions[r]).dma = (d.regions[r]).dma

namespace DmaStands

theorem refl (d : Dev) : DmaStands d d := ⟨fun _ => rfl⟩

theorem trans {a b c : Dev} (h : DmaStands a b) (g : DmaStands b c) : DmaStands a c := ⟨fun r => (g.dma r).trans (h.dma r)⟩

theorem of_regions {d e : Dev} (h : e.regions = d.regions) : DmaStands d e := ⟨fun r => by rw [h]⟩

/-- A channel of a block that stands. -/
theorem chan {d e : Dev} (h : DmaStands d e) (n : Fin 32) : e.dma n = d.dma n := by
  unfold Dev.dma
  rw [h.dma]

theorem ite {d a b : Dev} {c : Prop} [Decidable c] (ha : DmaStands d a) (hb : DmaStands d b) : DmaStands d (if c then a else b) := by
  split
  · exact ha
  · exact hb

theorem foldl {α : Type} {f : Dev → α → Dev} (hf : ∀ d x, DmaStands d (f d x)) (l : List α) (d : Dev) :
    DmaStands d (l.foldl f d) := by
  induction l generalizing d with
  | nil => exact refl d
  | cons x l ih => exact (hf d x).trans (ih (f d x))

/-! ### Parts of the state -/

/-- What the receive side alone can change leaves the DMA blocks. -/
theorem of_rxOnly {d e : Dev} (h : RxOnly d e) : DmaStands d e := ⟨fun r => by rw [h.region r]⟩

section
variable (d : Dev) (p : PortId) (r : RegionId)

theorem modRx (f : Rx → Rx) : DmaStands d (d.modRx p f) := of_regions rfl

theorem modSyn (f : Synth → Synth) : DmaStands d (d.modSyn p f) := of_regions rfl

theorem modTx (f : Tx → Tx) : DmaStands d (d.modTx p f) := of_regions rfl

theorem modTun (f : Tuner → Tuner) : DmaStands d (d.modTun p f) := of_regions rfl

theorem modCal (f : Cal → Cal) : DmaStands d (d.modCal p f) := of_regions rfl

theorem modSb (f : SlotBook → SlotBook) : DmaStands d (d.modSb p f) := of_regions rfl

theorem modGauge (f : Gauge → Gauge) : DmaStands d (d.modGauge p f) := of_regions rfl

theorem modRegion {f : Region → Region} (h : ∀ x, (f x).dma = x.dma) : DmaStands d (d.modRegion r f) := ⟨fun q => by
  by_cases e : q = r
  · rw [e, Dev.modRegion_regions_self, h]
  · rw [Dev.modRegion_regions_ne _ _ _ _ e]⟩

theorem modLink (f : Link → Link) : DmaStands d (d.modLink r f) := modRegion d r fun _ => rfl

theorem modCiph (f : Cipher → Cipher) : DmaStands d (d.modCiph r f) := modRegion d r fun _ => rfl

theorem modChan (n : Fin 2) (f : CiphChan → CiphChan) : DmaStands d (d.modChan r n f) := modCiph d r _

theorem modQueue (q : QueueId) (f : Queue → Queue) : DmaStands d (d.modQueue q f) := modRegion d _ fun _ => rfl

theorem modRegFlt (f : RegFault → RegFault) : DmaStands d (d.modRegFlt r f) := modRegion d r fun _ => rfl

theorem modRegPwr (f : RegPower → RegPower) : DmaStands d (d.modRegPwr r f) := modRegion d r fun _ => rfl

theorem modCore (c : CoreId) (f : Core → Core) : DmaStands d (d.modCore c f) := of_regions rfl

theorem modTrunk (l : LinkId) (f : Trunk → Trunk) : DmaStands d (d.modTrunk l f) := of_regions rfl

theorem modCarrier (c : Carrier) (f : TdpCarrier → TdpCarrier) : DmaStands d (d.modCarrier c f) := of_regions rfl

theorem modMbx (m : Fin 16) (f : Mbx → Mbx) : DmaStands d (d.modMbx m f) := of_regions rfl

theorem attnCause (i : Nat) : DmaStands d (d.attnCause i) := of_regions rfl

theorem secCause (i : Nat) : DmaStands d (d.secCause i) := of_regions rfl

theorem pwrFlag (i : Nat) : DmaStands d (d.pwrFlag i) := of_regions rfl

theorem authRestart : DmaStands d d.authRestart := of_regions rfl

theorem settle : DmaStands d d.settle := of_regions (Dev.settle_regions d)

end
end DmaStands

/-! ### Events and timers (chapter 13) -/

section
variable (d : Dev)

@[simp] theorem Dev.channelEvent_regions (n : Fin 64) (h : Nat) : (d.channelEvent n h).1.regions = d.regions := by
  unfold Dev.channelEvent
  dsimp only
  split
  · rfl
  · split
    · split
      · split <;> rfl
      · rfl
    · rfl

@[simp] theorem Dev.reachChannels_regions (evs : List Ev) (l : List (Fin 64)) (d : Dev) :
    (Dev.reachChannels evs l d).1.regions = d.regions := by
  induction l generalizing d with
  | nil => rfl
  | cons n l ih =>
    unfold Dev.reachChannels
    split
    · exact ih d
    · dsimp only
      rw [ih, Dev.channelEvent_regions]
      split <;> rfl

@[simp] theorem Dev.runTask_regions (g : Trig) : (d.runTask g).regions = d.regions := by
  simp only [Dev.runTask, apply_ite Dev.regions, Dev.modTimer_regions, Dev.attnCause_regions, ite_self]

@[simp] theorem Dev.modTask_regions (t : Nat) (f : TaskIn → TaskIn) : (d.modTask t f).regions = d.regions := rfl

@[simp] theorem Dev.taskInput_regions (g : Trig × Nat) : (d.taskInput g).1.regions = d.regions := by
  have counted : (if 0 < g.2 then d.modTask g.1.task fun x => { x with merged := x.merged + 1 } else d).regions = d.regions := by
    split <;> rfl
  unfold Dev.taskInput
  dsimp only
  generalize (if 0 < g.2 then _ else d : Dev) = e at counted ⊢
  split
  · exact counted
  · dsimp only
    split
    · exact (Dev.runTask_regions _ _).trans counted
    · exact (Dev.runTask_regions _ _).trans counted

@[simp] theorem Dev.taskInputs_regions (l : List (Trig × Nat)) (d : Dev) : (Dev.taskInputs l d).1.regions = d.regions := by
  induction l generalizing d with
  | nil => rfl
  | cons g l ih => exact (ih _).trans (d.taskInput_regions g)

@[simp] theorem Dev.runEvents_regions (k : Nat) (evs : List Ev) (d : Dev) : (Dev.runEvents k evs d).regions = d.regions := by
  induction k generalizing evs d with
  | zero => rfl
  | succ k ih =>
    unfold Dev.runEvents
    split
    · rfl
    · dsimp only
      rw [ih, Dev.taskInputs_regions, Dev.reachChannels_regions]

@[simp] theorem Dev.fire_regions (evs : List Ev) : (d.fire evs).regions = d.regions := by
  simp only [Dev.fire, apply_ite Dev.regions, Dev.runEvents_regions, ite_self]

@[simp] theorem Dev.fireChannels_regions (l : List (Fin 64)) (d : Dev) : (Dev.fireChannels l d).1.regions = d.regions := by
  induction l generalizing d with
  | nil => rfl
  | cons n l ih => exact (ih _).trans (d.channelEvent_regions n 0)

theorem Dev.afterForward_regions (r : Dev × List Trig × List Ev) : (Dev.afterForward r).regions = r.1.regions :=
  (Dev.fire_regions _ _).trans (Dev.taskInputs_regions _ _)

@[simp] theorem Dev.evtFire_regions (base : Nat) (v : Word) : (d.evtFire base v).regions = d.regions :=
  (Dev.afterForward_regions _).trans (Dev.fireChannels_regions _ _)

@[simp] theorem Dev.gpioChange_regions (f : Events → Events) (h : Nat) : (d.gpioChange f h).regions = d.regions :=
  Dev.fire_regions ..

@[simp] theorem Dev.eventWrite_regions (o : Nat) (v : Word) : ((d.eventWrite o v).getD d).regions = d.regions := by
  have cleared : d.evtClear.regions = d.regions := by simp only [Dev.evtClear]
  unfold Dev.eventWrite
  simp only [apply_ite (Option.getD · d), Option.getD_some, Option.getD_none, apply_ite Dev.regions, Dev.evtFire_regions,
    Dev.gpioChange_regions, Dev.modTask_regions, cleared, ite_self]
  split
  · split <;> rfl
  split
  · split <;> rfl
  · rfl

@[simp] theorem Dev.timerCtl_regions (t : Fin 16) (v : Word) : (d.timerCtl t v).regions = d.regions := by
  simp only [Dev.timerCtl, apply_ite Dev.regions, Dev.modTimer_regions, ite_self]

@[simp] theorem Dev.timerWrite_regions (o : Nat) (v : Word) : ((d.timerWrite o v).getD d).regions = d.regions := by
  have load (t : Fin 16) : (d.timerLoad t v).regions = d.regions := by
    unfold Dev.timerLoad
    split <;> rfl
  unfold Dev.timerWrite
  dsimp only
  split
  · split
    · rfl
    · exact load _
    · exact d.timerCtl_regions _ v
    all_goals rfl
  split
  · rfl
  · split <;> rfl

end
end Sys2Proof.Machine
end

section
/-! What the ports' operations leave of the DMA blocks: receiving, hops, stakes and bookings, calibrations, a port that
stops, a datum step. -/

namespace Sys2Proof.Machine
namespace DmaStands

section
variable (d : Dev) (p : PortId) (r : RegionId)

/-! ### Receiving -/

theorem stopFrames : DmaStands d (d.stopFrames p) := of_rxOnly (RxOnly.stopFrames d p)

theorem serveLanes : DmaStands d (d.serveLanes r) := of_rxOnly (RxOnly.serveLanes d r)

theorem gcSlices : DmaStands d (d.gcSlices r) := of_rxOnly (RxOnly.gcSlices d r)

theorem hopRx : DmaStands d (d.hopRx p) := of_rxOnly (RxOnly.hopRx d p)

theorem retuneRx : DmaStands d (d.retuneRx p) := of_rxOnly (RxOnly.retuneRx d p)

theorem leaveCombines : DmaStands d (d.leaveCombines p) := of_rxOnly (RxOnly.leaveCombines d p)

/-! ### Queues that hardware writes -/

theorem wakeDomain (n : Nat) : DmaStands d (d.wakeDomain r n) := by
  unfold Dev.wakeDomain
  exact ite ⟨(modRegPwr d r fun p => { p with domsleep := p.domsleep &&& ~~~(1#10 <<< n) }).dma⟩ (refl d)

theorem producePacket {d e : Dev} {q : QueueId} {ws : List Word64} (h : d.producePacket q ws = some e) : DmaStands d e := by
  unfold Dev.producePacket at h
  split at h
  · cases h
    exact (wakeDomain d _ _).trans (modQueue _ q _)
  · cases h

theorem lateRecord (k : Stake) (slot cause : Nat) (refused : Bool) : DmaStands d (d.lateRecord p k slot cause refused) := by
  unfold Dev.lateRecord
  dsimp only
  split
  · next h => exact producePacket h
  · exact modSb d p _

theorem dnStatus (tag ctx result fcnt : Nat) : DmaStands d (d.dnStatus r tag ctx result fcnt) := by
  unfold Dev.dnStatus
  dsimp only
  split
  · next h => exact producePacket h
  · exact modRegFlt d r _

/-! ### Hops (R118 to R127) -/

theorem clearCal : DmaStands d (d.clearCal p) := ite (modCal d p _) (refl d)

theorem advanceEpoch (tuner : Bool) : DmaStands d (d.advanceEpoch p tuner) :=
  (modSyn d p _).trans (ite (refl _) (clearCal _ p))

theorem calMoved (f : Nat) : DmaStands d (d.calMoved p f) := ite (clearCal d p) (refl d)

theorem beginHop (f : Nat) (k : HopKind × Option (Fin 64)) (wake : Bool) : DmaStands d (d.beginHop p f k wake) :=
  ((calMoved d p f).trans (modSyn _ p _)).trans (hopRx _ p)

theorem hop (f : Nat) : DmaStands d (d.hop p f) := by
  unfold Dev.hop
  refine ite (modSyn d p _) (ite (calMoved d p f) ?_)
  split
  · exact (modSyn d p _).trans (beginHop _ p f _ false)
  · exact modSyn d p _

theorem relock (wake : Bool) : DmaStands d (d.relock p wake) := by
  unfold Dev.relock
  dsimp only
  split
  · exact beginHop d p _ _ wake
  · exact refl d

theorem loseLock : DmaStands d (d.loseLock p) := (modSyn d p _).trans (advanceEpoch _ p false)

/-! ### Stakes that end (R126, R127, R202 to R204) -/

theorem femTo (x : FemState) : DmaStands d (d.femTo p x) := modTx d p _

theorem femIdle : DmaStands d (d.femIdle p) := femTo d p _

theorem releaseBuffer (n : SlotId) : DmaStands d (d.releaseBuffer p n) := by
  unfold Dev.releaseBuffer
  split
  · exact ite (refl d) (modTx d p _)
  · exact modTx d p _

theorem returnHop : DmaStands d (d.returnHop p) := by
  unfold Dev.returnHop
  exact trans (ite (hop d p _) (refl d)) (modTx _ p _)

theorem abandonTx : DmaStands d (d.abandonTx p) := by
  have released : DmaStands d (match (d.ports[p]).tx.interval with | some n => d.releaseBuffer p n | none => d) := by
    split
    · exact releaseBuffer d p _
    · exact refl d
  unfold Dev.abandonTx
  exact ite (modTx d p _) (((released.trans (modTx _ p _)).trans (ite (femTo _ p _) (refl _))).trans (returnHop _ p))

theorem standDown (n : SlotId) (k : Stake) (cause : Nat) : DmaStands d (d.standDown p n k cause) := by
  have counted : DmaStands d
      ((((d.setStake p n none).dropPrepared p n).modSb p fun b => { b with txLate := true }).countSb p .txlate) := of_regions rfl
  unfold Dev.standDown
  exact (counted.trans (ite (lateRecord _ p k n.val cause false) (refl _))).trans (ite (abandonTx _ p) (refl _))

theorem linkLate (k : Stake) (lt : LinkTx) (cause : Nat) : DmaStands d (d.linkLate p k lt cause) := by
  have member (d : Dev) (q : PortId) (x : SlotId × Stake) (h : Prop) [Decidable h] :
      DmaStands d (if h then (d.standDown q x.1 x.2 cause).countTx q .mariout else d) :=
    ite ((standDown d q _ _ _).trans (modTx _ q _)) (refl d)
  unfold Dev.linkLate
  refine ite (trans ?home (foldl (fun d q => ite (refl d) (foldl (fun d x => member d q x _) _ d)) _ _)) (modTx d p _)
  split
  · exact ite (dnStatus d _ _ _ _ _) (refl d)
  · exact refl d

theorem reportLate (k : Stake) (slot cause : Nat) (refused : Bool) : DmaStands d (d.reportLate p k slot cause refused) := by
  have counted : DmaStands d (if k.action = 1 then (d.modSb p fun b => { b with txLate := true }).countSb p .txlate
      else (d.modSb p fun b => { b with late := true }).countSb p .late) := ite (of_regions rfl) (of_regions rfl)
  unfold Dev.reportLate
  refine counted.trans ?_
  dsimp only
  generalize (if k.action = 1 then _ else _ : Dev) = e
  split
  · exact (linkLate _ p k _ cause).trans (ite (lateRecord _ p k slot cause refused) (refl _))
  · exact ite (refl _) (lateRecord _ p k slot cause refused)

theorem calLate (k : Stake) (cause : Nat) : DmaStands d (d.calLate p k cause) := ite (modCal d p _) (refl d)

theorem endLate (n : SlotId) (k : Stake) (cause : Nat) : DmaStands d (d.endLate p n k cause) := by
  have freed : DmaStands d ((d.setStake p n none).dropPrepared p n) := of_regions rfl
  unfold Dev.endLate
  exact ((freed.trans (reportLate _ p k n.val cause false)).trans (calLate _ p k cause)).trans
    (ite (abandonTx _ p) (ite (hop _ p _) (refl _)))

theorem endStakes (cause : Nat) : DmaStands d (d.endStakes p cause) := by
  unfold Dev.endStakes
  refine foldl (fun d x => ?_) _ _
  exact ite (refl d) (endLate d p x.1 x.2 cause)

/-! ### Bookings (R197 to R203) -/

theorem displace (l : List (SlotId × Stake)) (d : Dev) : DmaStands d (d.displace p l) := by
  induction l generalizing d with
  | nil => exact refl d
  | cons x l ih =>
    obtain ⟨n, k⟩ := x
    rw [Dev.displace]
    exact ((endLate d p n k 9).trans (modSb _ p _)).trans (ih _)

/-- A booking that is refused. -/
theorem refuse (k : Stake) (c : Nat) : DmaStands d ((d.reportLate p k 0 c true).calLate p k c) :=
  (reportLate d p k 0 c true).trans (calLate _ p k c)

theorem bookCore (q : BookReq) (release : Int) : DmaStands d (d.bookCore p q release).1 := by
  unfold Dev.bookCore
  dsimp only
  split
  · exact refuse d p _ 12
  split
  · exact refuse d p _ 11
  split
  · exact refuse d p _ 7
  split
  · exact refuse d p _ 6
  split
  · exact refuse d p _ 4
  split
  · exact (displace p _ d).trans (refuse _ p _ 5)
  · exact (displace p _ d).trans (of_regions rfl)

theorem serveCal : DmaStands d (d.serveCal r) := by
  unfold Dev.serveCal
  refine ite (refl d) ?_
  split
  · exact refl d
  · exact (modCal d _ _).trans (bookCore _ _ _ _)

theorem serveCals : DmaStands d d.serveCals := foldl serveCal _ d

theorem bmFill : DmaStands d (d.bmFill p) := ite (refl d) (bookCore d p _ _)

theorem book (q : BookReq) (release : Int) : DmaStands d (d.book p q release).1 := by
  unfold Dev.book
  exact ((bookCore d p q release).trans (foldl (fun d x => ite (bmFill d p) (refl d)) _ _)).trans (serveCal _ _)

/-- The same where the booking's result is known. -/
theorem of_book {d e : Dev} {p : PortId} {q : BookReq} {release : Int} {x : Except Nat SlotId}
    (h : d.book p q release = (e, x)) : DmaStands d e := by
  have booked := book d p q release
  rw [h] at booked
  exact booked

theorem sbBook : DmaStands d (d.sbBook p) := by
  unfold Dev.sbBook
  dsimp only
  split
  next h => exact (of_book h).trans (modSb _ p _)
  next h => exact (of_book h).trans (modSb _ p _)

theorem sbCancel : DmaStands d (d.sbCancel p) := by
  unfold Dev.sbCancel
  dsimp only
  split
  · exact ite (((endLate d p _ _ 10).trans (modSb _ p _)).trans (serveCal _ _)) (modSb d p _)
  · exact modSb d p _

theorem sbCmd (v : Word) : DmaStands d (d.sbCmd p v) := by
  unfold Dev.sbCmd
  exact (modSb d p _).trans (ite (ite (sbBook _ p) (ite (sbCancel _ p) (refl _))) (refl _))

theorem calRunNow : DmaStands d (d.calRunNow p) := (modCal d p _).trans (serveCal _ _)

/-! ### A datum step (R190, R191) -/

theorem skipStakes : DmaStands d (d.skipStakes p) := by
  unfold Dev.skipStakes
  refine foldl (fun d x => ?_) _ _
  exact ite (endLate d p x.1 x.2 8) (refl d)

theorem applyStep (st : Word64) : DmaStands d (d.applyStep st) := by
  unfold Dev.applyStep
  refine trans (trans (trans ?moved ((attnCause _ 13).trans (authRestart _))) (foldl skipStakes _ _)) (serveCals _)
  refine ⟨fun r => ?_⟩
  dsimp only
  rw [vmap_get, Dev.advance_regions]

/-! ### A port that stops (R204, R423) -/

theorem portOff : DmaStands d (d.portOff p) := by
  have stopped : DmaStands d ((((d.stopFrames p).abortOwnLanes p).leaveCombines p).abandonGauge p) :=
    of_rxOnly ((((RxOnly.stopFrames _ _).trans (RxOnly.abortJobs _ _)).trans (RxOnly.leaveCombines _ _)).trans
      (RxOnly.abandonGauge _ _))
  unfold Dev.portOff
  exact ((((stopped.trans (endStakes _ p 11)).trans (modRx _ p _)).trans (femTo _ p .off)).trans (serveLanes _ _)).trans
    (gcSlices _ _)

theorem portSleep : DmaStands d (d.portSleep p) := (portOff d p).trans (modSyn _ p _)

theorem portCut : DmaStands d (d.portCut p) :=
  (((((portOff d p).trans (modSb _ p _)).trans (modTx _ p _)).trans (modRx _ p _)).trans (modCal _ p _)).trans (femTo _ p .off)

theorem cutFrame : DmaStands d (d.cutFrame p) := by
  unfold Dev.cutFrame
  split
  · exact (of_regions rfl : DmaStands d ((d.modTx p fun t => { t with cut := true }).countTx p .txcut)).trans (abandonTx _ p)
  · exact refl d

theorem unlockPort : DmaStands d (d.unlockPort p) :=
  ite (refl d) (ite (((loseLock d p).trans (hopRx _ p)).trans (cutFrame _ p)) (advanceEpoch d p false))

theorem relockUnlocked : DmaStands d (d.relockUnlocked p) := ite (refl d) (relock d p false)

theorem portRise : DmaStands d (d.portRise p) := by
  unfold Dev.portRise
  exact ite (refl d) ((((modSyn d p _).trans (modGauge _ p _)).trans (relock _ p true)).trans (modCal _ p _))

end
end DmaStands
end Sys2Proof.Machine
end

section
/-! What the registers of a port's page and of the timer page leave of the DMA blocks. -/

namespace Sys2Proof.Machine
namespace DmaStands

section
variable (d : Dev) (p : PortId) (o : Nat) (v : Word)

/-! ### Receive registers (R72 to R116) -/

theorem plumbRunNow : DmaStands d (d.plumbRunNow p) := modRx d p _

theorem gaugeRun : DmaStands d (d.gaugeRun p) := by
  unfold Dev.gaugeRun
  refine ite (refl d) (ite (modGauge d p _) ?_)
  split <;> exact modGauge d p _

theorem writeRxfreq : DmaStands d (d.writeRxfreq p v) := by
  unfold Dev.writeRxfreq
  exact ite (modRx d p _) ((modRx d p _).trans (ite (modSyn _ p _) (((retuneRx _ p).trans (hop _ p _)).trans (serveCal _ _))))

theorem writeRxctl : DmaStands d (d.writeRxctl p v) := by
  unfold Dev.writeRxctl
  exact ((((modRx d p _).trans (ite (refl _) (femIdle _ p))).trans (ite (refl _) ((stopFrames _ p).trans (leaveCombines _ p)))).trans
    (serveLanes _ _)).trans (gcSlices _ _)

theorem writeWcfg (w : WatcherId) : DmaStands d (d.writeWcfg p w v) := by
  unfold Dev.writeWcfg
  exact trans (of_rxOnly (RxOnly.modRx d p _)) (ite (modRx _ p _) (refl _))

theorem writeGauge : DmaStands d (d.writeGauge p v) := by
  unfold Dev.writeGauge
  exact (modGauge d p _).trans (ite (gaugeRun _ p) (refl _))

theorem rxWrite : DmaStands d (d.rxWrite p o v) := by
  unfold Dev.rxWrite
  refine ite (writeWcfg d p v _) ?_
  split
  · exact writeRxctl d p v
  · exact writeRxfreq d p v
  · exact modRx d p _
  · exact modRx d p _
  · exact modRx d p _
  · exact modRx d p _
  · exact ite ((modRx d p _).trans (modSb _ p _)) (refl d)
  · exact (modRx d p _).trans (ite (plumbRunNow _ p) (refl _))
  · exact modRx d p _
  · exact modRx d p _
  · exact writeGauge d p v
  · exact modGauge d p _
  · exact refl d

/-! ### Transmit registers and the slot book (R118 to R142, R208) -/

theorem applyTune : DmaStands d (d.applyTune p v) := ite (refl d) ((modTun d p _).trans (advanceEpoch _ p true))

theorem bmWrite : DmaStands d (d.bmWrite p o v) := by
  unfold Dev.bmWrite
  exact modSyn d p _

theorem txWrite : DmaStands d (d.txWrite p o v) := by
  unfold Dev.txWrite
  refine ite (bmWrite d p o v) ?_
  split
  · exact modSyn d p _
  · exact modSyn d p _
  · exact trans (ite (modSyn d p _) (refl d)) (ite (bmFill _ p) (refl _))
  · exact modTx d p _
  · exact modTx d p _
  · exact modTx d p _
  · exact modTx d p _
  · exact ite (modTx d p _) (refl d)
  · exact (modTun d p _).trans (applyTune _ p _)
  · exact modTun d p _
  · exact (modCal d p _).trans (ite (calRunNow _ p) (refl _))
  · exact modCal d p _
  · exact refl d

theorem sbWrite : DmaStands d (d.sbWrite p o v) := by
  unfold Dev.sbWrite
  refine ite (modSb d p _) ?_
  split
  · exact sbCmd d p v
  · exact modSb d p _
  · exact modSb d p _
  · exact refl d

theorem portWrite : DmaStands d (d.portWrite p o v) := ite (rxWrite d p o v) (ite (txWrite d p o v) (sbWrite d p o v))

/-! ### The datum (R184 to R193) -/

theorem setUnsynced (b : Bool) : DmaStands d (d.setUnsynced b) := of_regions (Dev.setUnsynced_regions d b)

theorem writeTrim : DmaStands d (d.writeTrim v) := by
  unfold Dev.writeTrim
  dsimp only
  refine ite (of_regions rfl) (trans (b := { d with datum := { d.datum with trim := v.toInt } }) (of_regions rfl) ?_)
  exact ite ((foldl (fun d p => (unlockPort d p).trans (relockUnlocked _ p)) _ _).trans (serveCals _)) (refl _)

theorem writeDatumCtl : DmaStands d (d.writeDatumCtl v) := by
  have told (d : Dev) (x : Datum) : DmaStands d { d with datum := x } := of_regions rfl
  have synced (d : Dev) : DmaStands d (if bit v 0 then d.setUnsynced false else d) := ite (setUnsynced d false) (refl d)
  have stepped (d : Dev) : DmaStands d (if bit v 1 ∧ d.datum.pend.isNone then
      { d with datum := { d.datum with pend := some d.datum.step } } else d) := ite (told d _) (refl d)
  have taken (d : Dev) : DmaStands d (match d.datum.pend with
      | some st => if d.datum.stepAtPps then d else d.applyStep st
      | none => d) := by
    split
    · exact ite (refl d) (applyStep d _)
    · exact refl d
  exact (((told d { d.datum with stepAtPps := bit v 2 }).trans (synced _)).trans (stepped _)).trans (taken _)

theorem datumWrite : DmaStands d (d.datumWrite o v) := by
  unfold Dev.datumWrite
  dsimp only
  split
  · exact writeDatumCtl d v
  · exact of_regions rfl
  · exact writeTrim d v
  · exact of_regions rfl
  · exact of_regions rfl
  · exact of_regions rfl
  · exact of_regions rfl
  · exact refl d

end
end DmaStands
end Sys2Proof.Machine
end

section
/-! What the registers of a cipher page, of the trunk page, of the fault units, of the mailboxes, of CAN, of core control and
of power management leave of the DMA blocks. -/

namespace Sys2Proof.Machine
namespace DmaStands

section
variable (d : Dev) (r : RegionId) (o : Nat) (v : Word)

/-! ### The link engine and the cipher block (R160 to R181, R216) -/

theorem noteWalk (q : Option RegionId) (k : Nat) : DmaStands d (d.noteWalk q k) := by
  unfold Dev.noteWalk
  cases q with
  | some r => exact modLink d r _
  | none => exact foldl (fun d r => modLink d r _) _ d

theorem endPacket (n : CtxId) (p : DnPacket) (result : Nat) : DmaStands d (d.endPacket n p result) := by
  unfold Dev.endPacket
  split
  · exact refl d
  · exact (of_regions rfl : DmaStands d (d.putChain _)).trans (dnStatus _ _ _ _ _ _)

theorem emptyChain (n : CtxId) : DmaStands d (d.emptyChain n) := of_regions rfl

theorem resumeHeld (n : CtxId) : DmaStands d (d.resumeHeld r n) := by
  unfold Dev.resumeHeld
  exact modLink d r _

theorem ctxInstall (q : Option RegionId) (n : CtxId) : DmaStands d (d.ctxInstall q n).1 := by
  have walked : DmaStands d
      ((d.keysOf n).foldl (fun d k => d.noteWalk q (d.bucket (hashBucket (hashKey k.1 k.2))).length) d) :=
    foldl (fun d k => noteWalk d q _) _ d
  have resumed (d : Dev) (r : RegionId) : DmaStands d (if (d.regions[r]).retired then d else d.resumeHeld r n) :=
    ite (refl d) (resumeHeld d r n)
  have entered (d : Dev) (t : List HashEntry) : DmaStands d
      ({ d with cl := { d.cl with table := t } }.emptyChain n) := of_regions rfl
  unfold Dev.ctxInstall
  split
  · exact refl d
  split
  · exact refl d
  dsimp only
  split
  · exact walked
  · refine walked.trans ?_
    generalize (d.keysOf n).foldl _ d = e
    dsimp only
    refine trans ?_ (foldl resumed _ _)
    exact entered e _

theorem ctxRemoveNow (n : CtxId) : DmaStands d (d.ctxRemoveNow n) :=
  (foldl (fun d p => endPacket d n p 8) _ d).trans ((emptyChain _ n).trans (of_regions rfl))

theorem ctxRemove (q : Option RegionId) (n : CtxId) : DmaStands d (d.ctxRemove q n).1 := by
  unfold Dev.ctxRemove
  split
  · exact refl d
  split
  · exact of_regions rfl
  · exact ctxRemoveNow d n

theorem ctxRun (q : Option RegionId) (c : CtxOp) : DmaStands d (d.ctxRun q c).1 := by
  have found : DmaStands d (d.ctxFind q c.short c.key).1 := noteWalk d q _
  unfold Dev.ctxRun
  dsimp only
  split
  · exact ctxInstall d q _
  split
  · exact ctxRemove d q _
  split
  · split
    · next h => rw [h] at found; exact found
    · next h => rw [h] at found; exact found
  · exact refl d

theorem writeCtxop : DmaStands d (d.writeCtxop r v) := by
  unfold Dev.writeCtxop
  exact (modLink d r _).trans (ite ((ctxRun _ _ _).trans (modLink _ r _)) (refl _))

theorem linkWrite : DmaStands d (d.linkWrite r o v) := by
  unfold Dev.linkWrite
  split
  · exact modLink d r _
  · exact ite (refl d) (of_regions rfl)
  · exact modLink d r _
  · exact modLink d r _
  · exact of_regions rfl
  · exact of_regions rfl
  · exact of_regions rfl
  · exact writeCtxop d r v
  · exact modLink d r _
  · exact ite (modLink d r _) (refl d)
  · exact modLink d r _
  · exact refl d

theorem ciphGo (n : Fin 2) : DmaStands d (d.ciphGo r n) := modChan d r n _

theorem ciphWrite : DmaStands d (d.ciphWrite r o v) := by
  unfold Dev.ciphWrite
  refine ite (refl d) ?_
  dsimp only
  split
  case h_9 => exact (modChan d r _ _).trans (ite (ciphGo _ r _) (refl _))
  case h_10 => exact refl d
  all_goals exact modChan d r _ _

theorem regfWrite : DmaStands d (d.regfWrite r o v) := by
  unfold Dev.regfWrite
  split
  · exact modRegFlt d r _
  · exact modRegFlt d r _
  · exact refl d

/-! ### The trunk (R243 to R264) -/

section
variable (l : LinkId)

theorem countTrk (c : TrkCnt) : DmaStands d (d.countTrk l c) := modTrunk d l _

theorem trkSend (b : List Byte) : DmaStands d (d.trkSend l b) := ite (modTrunk d l _) (refl d)

theorem trkFree (u : Nat) : DmaStands d (d.trkFree l u) := ite (refl d) ((modTrunk d l _).trans (trkSend _ l _))

theorem trkAnswer (t : Fin 32) (opc status aux : Nat) (data : List Byte) : DmaStands d (d.trkAnswer l t opc status aux data) :=
  ite (((settle d).trans (trkSend _ l _)).trans (countTrk _ l _)) (refl d)

theorem trkDone (q : TrunkReq) (status aux : Nat) (data : List Byte) : DmaStands d (d.trkDone l q status aux data) :=
  ((modTrunk d l _).trans (trkFree _ l _)).trans (trkAnswer _ l _ _ _ _ _)

theorem trkDown : DmaStands d (d.trkDown l) := ite ((modTrunk d l _).trans (countTrk _ l _)) (modTrunk d l _)

end

theorem writeTrkCtl : DmaStands d (d.writeTrkCtl v) := by
  have off (d : Dev) (l : LinkId) : DmaStands d (if !bit v l.val ∧ (d.links[l]).state ≠ 0 then d.trkDown l else d) :=
    ite (trkDown d l) (refl d)
  exact ((of_regions rfl : DmaStands d { d with trk := { d.trk with ctl := v &&& 0x00FFFF03 } }).trans (off _ 0)).trans (off _ 1)

theorem trkWrite (i : Initiator) : DmaStands d (d.trkWrite i o v) := by
  unfold Dev.trkWrite
  dsimp only
  refine ite (of_regions rfl) (ite (of_regions rfl) ?_)
  split
  · exact ite (writeTrkCtl d v) (refl d)
  · exact ite (of_regions rfl) (refl d)
  · exact ite (modTrunk d 0 _) (refl d)
  · exact ite (modTrunk d 1 _) (refl d)
  · exact of_regions rfl
  · exact of_regions rfl
  · exact trans (ite (modTrunk d 0 _) (refl d)) (ite (modTrunk _ 1 _) (refl _))
  · exact refl d

/-! ### Mailboxes, CAN, the chip's fault unit, core control -/

theorem mbxPost (p : Fin 10) (m : Fin 16) : DmaStands d (d.mbxPost p m v).1 := by
  unfold Dev.mbxPost
  split <;> dsimp only
  · exact modMbx d m _
  · exact (modMbx d m _).trans (ite (attnCause _ _) (refl _))

theorem mbxWrite (i : Initiator) : DmaStands d (d.mbxWrite i o v).1 := by
  unfold Dev.mbxWrite
  split
  · exact refl d
  split
  · exact refl d
  dsimp only
  split <;> dsimp only
  · exact modMbx d _ _
  · exact mbxPost d v _ _
  · exact modMbx d _ _
  · exact refl d

theorem canWrite : DmaStands d (d.canWrite o v) := by
  unfold Dev.canWrite
  split
  · exact ite (of_regions rfl) (refl d)
  · exact of_regions rfl
  · exact refl d

theorem fltWrite : DmaStands d (d.fltWrite o v) := by
  unfold Dev.fltWrite
  dsimp only
  split
  · exact of_regions rfl
  · exact of_regions rfl
  · exact of_regions rfl
  · exact refl d

theorem holdCore (c : CoreId) : DmaStands d (d.holdCore c) := of_regions rfl

theorem setRun (c : CoreId) (run : Bool) : DmaStands d (d.setRun c run) :=
  ite (refl d) (ite (modCore d c _) (ite (modCore d c _) ((holdCore d c).trans (modCore _ c _))))

theorem coreWrite (i : Initiator) : DmaStands d (d.coreWrite i o v) := by
  unfold Dev.coreWrite
  dsimp only
  refine ite (refl d) (ite (modCore d _ _) (ite (modCore d _ _) ?_))
  split
  · exact foldl (fun d c => setRun d c _) _ d
  · exact foldl (fun d c => modCore d c _) _ d
  · exact refl d

/-! ### Power management (R404 to R413) -/

theorem enterNap : DmaStands d d.enterNap := by
  have blank (d : Dev) : DmaStands d { d with ports := vmap d.ports Port.blank, pwr := { d.pwr with now := .nap } } :=
    of_regions rfl
  unfold Dev.enterNap
  refine trans ?_ (blank _)
  exact foldl portCut _ d

theorem leaveNap (src : Nat) : DmaStands d (d.leaveNap src) := by
  have risen (d : Dev) (p : PortId) : DmaStands d (if d.portUp p then d.portRise p else d) := ite (portRise d p) (refl d)
  exact ((of_regions rfl : DmaStands d { d with pwr := { d.pwr with now := .on, wakeSrc := src } }).trans
    (foldl risen _ _)).trans (serveCals _)

theorem setDomain (dom : Nat) (sleep : Bool) : DmaStands d (d.setDomain r dom sleep) := by
  unfold Dev.setDomain
  dsimp only
  exact ite (refl d) (ite (ite (pwrFlag d 2) ((modRegPwr d r _).trans (ite (ite (portSleep _ _) (refl _)) (refl _))))
    (modRegPwr d r _))

theorem writeDomsleep : DmaStands d (d.writeDomsleep r v) := foldl (fun d k => setDomain d r k _) _ d

theorem writeVset : DmaStands d (d.writeVset r v) := ite (pwrFlag d 0) (modRegPwr d r _)

theorem writePace : DmaStands d (d.writePace r v) := ite (pwrFlag d 0) ((modRegPwr d r _).trans (serveLanes _ r))

theorem writeVceil : DmaStands d (d.writeVceil r v) := ite (pwrFlag d 0) (modRegPwr d r _)

/-! ### The gates of the pages (R35, R406, R410) -/

theorem domainGate (dom : Nat) : DmaStands d (d.domainGate r dom).1 := by
  unfold Dev.domainGate
  dsimp only
  split
  · split
    · exact refl d
    · exact (setDomain d r dom false).trans (of_regions rfl)
  · split <;> exact refl d

theorem regionGate (page : Fin 4) : DmaStands d (d.regionGate r page).1 := by
  unfold Dev.regionGate
  split
  · exact refl d
  split
  · exact domainGate d r _
  · exact refl d

theorem portGate (p : PortId) (write : Bool) : DmaStands d (d.portGate p o write).1 := by
  unfold Dev.portGate
  dsimp only
  split
  · exact refl d
  split
  · exact refl d
  · exact domainGate d _ _

end
end DmaStands
end Sys2Proof.Machine
end

section
/-! What accesses to memory, the security page and the flash die leave of the DMA blocks: stored words are checked (R329,
R338), engines that wait for a read go on (R225, R343), and so does the update engine (R446). -/

namespace Sys2Proof.Machine
namespace DmaStands

section
variable (d : Dev)

/-! ### Stored words (R329, R338, R421) -/

theorem regTflag (r : RegionId) (i : Nat) : DmaStands d (d.regTflag r i) := modRegFlt d r _

theorem chipTflag (i : Nat) : DmaStands d (d.chipTflag i) := of_regions rfl

theorem logFault (k : Nat) (c : Charged) (cause n : Nat) : DmaStands d (d.logFault k c cause n) := of_regions rfl

theorem transientFlag {c : Charged} (cause : Nat) (h : ∀ u, c ≠ .unit u) : DmaStands d (d.transientFlag c cause) := by
  unfold Dev.transientFlag
  cases c with
  | unit u => exact absurd rfl (h u)
  | flash => exact chipTflag _ _
  | chipSram | regionSram r | ctxMem =>
    dsimp only
    split
    case h_14 => exact refl _
    case h_1 | h_10 | h_11 | h_12 | h_13 => exact chipTflag _ _
    all_goals exact regTflag _ _ _

theorem track (c : Charged) : DmaStands d (d.track c).1 := by
  unfold Dev.track
  split <;> dsimp only
  · exact (modRegFlt d _ _).trans (ite (of_regions rfl) (refl _))
  · exact ite (of_regions rfl) (of_regions rfl)

/-- A failure of a memory is charged: it never becomes permanent by counting. -/
theorem charge {c : Charged} (cause : Nat) (h : ∀ u, c ≠ .unit u) : DmaStands d (d.charge c cause) := by
  have flagged := transientFlag d cause h
  unfold Dev.charge
  dsimp only
  generalize d.transientFlag c cause = e at flagged ⊢
  have counted : DmaStands e (match c.unitOf with
      | some r => ({ e with flt := { e.flt with cntTrans := e.flt.cntTrans + 1 } } : Dev).modRegFlt r fun f =>
          { f with cntTrans := f.cntTrans + 1 }
      | none => { e with flt := { e.flt with cntTrans := e.flt.cntTrans + 1 } }) := by
    split
    · exact trans (b := { e with flt := { e.flt with cntTrans := e.flt.cntTrans + 1 } }) (of_regions rfl) (modRegFlt _ _ _)
    · exact of_regions rfl
  have all := fun n => ((flagged.trans counted).trans (track _ c)).trans (logFault _ 1 c cause n)
  cases c with
  | unit u => exact absurd rfl (h u)
  | _ => exact all _

theorem mend (lo hi : Nat) : DmaStands d (d.mend lo hi) := of_regions rfl

theorem check (a : Nat) : DmaStands d (d.check a).1 := by
  have memory := ChecksOnly.sramUnit_memory a
  unfold Dev.check
  split
  · exact refl d
  · exact (mend d _ _).trans (charge _ _ memory)
  · exact charge _ _ memory

theorem ite_fst {α : Type} {d : Dev} {a b : Dev × α} {c : Prop} [Decidable c] (ha : DmaStands d a.1) (hb : DmaStands d b.1) :
    DmaStands d (if c then a else b).1 := by
  split
  · exact ha
  · exact hb

theorem checkEdges (a n : Nat) : DmaStands d (d.checkEdges a n).1 := by
  have one (d : Dev) (w : Nat) : DmaStands d (if a ≤ w && w + 4 ≤ a + n then (d, true) else d.check w).1 :=
    ite_fst (refl d) (check d w)
  have first := one d (a / 4 * 4)
  unfold Dev.checkEdges
  exact ite_fst first (first.trans (one _ _))

theorem breakResv (lo hi : Nat) : DmaStands d (d.breakResv lo hi) := of_regions rfl

theorem checkAll (a n : Nat) (l : List (Nat × Bool)) (d : Dev) : DmaStands d (Dev.checkAll a n l d).1 := by
  induction l generalizing d with
  | nil => exact refl d
  | cons e l ih =>
    unfold Dev.checkAll
    split
    · exact ih d
    · exact (check d e.1).trans (ih _)

theorem flashErr (a : Nat) (double : Bool) : DmaStands d (d.flashErr a double) := by
  have memory : ∀ u, Charged.flash ≠ .unit u := fun _ => nofun
  have flash (f : Flash) : DmaStands d { d with flash := f } := of_regions rfl
  exact ite ((flash _).trans (charge _ _ memory)) ((flash _).trans (charge _ _ memory))

theorem flashAll (a n : Nat) (l : List (Nat × Bool)) (d : Dev) : DmaStands d (Dev.flashAll a n l d).1 := by
  induction l generalizing d with
  | nil => exact refl d
  | cons e l ih =>
    unfold Dev.flashAll
    split
    · exact ih d
    · exact (flashErr d _ _).trans (ih _)

theorem strRead (ram : Memory) (a n : Nat) : DmaStands d (d.strRead ram a n).1 := by
  have bank (k : Nat) : DmaStands d (if d.flash.busyBank = some k ∧ 0 < n then (d, StrRd.held)
      else
        let l := d.flash.bytes a n
        let x := Dev.flashAll a n d.flash.errs { d with flash := d.flash.touch a n }
        (x.1, if x.2 then .data l else .error)).1 := by
    split
    · exact refl d
    · exact (of_regions rfl : DmaStands d { d with flash := d.flash.touch a n }).trans (flashAll a n _ _)
  unfold Dev.strRead
  dsimp only
  split
  · exact checkAll a n _ d
  split
  · exact bank 0
  split
  · exact bank 1
  · exact refl d

/-- The same where the read's result is known. -/
theorem of_strRead {d e : Dev} {ram : Memory} {a n : Nat} {x : StrRd} (h : d.strRead ram a n = (e, x)) : DmaStands d e := by
  have read := strRead d ram a n
  rw [h] at read
  exact read

/-! ### Writes of memory -/

theorem sramWrite (s : State) (a : Nat) (l : List Byte) : DmaStands s.d (s.sramWrite a l).1.d := by
  have checked := checkEdges s.d a l.length
  unfold State.sramWrite
  split
  · exact refl s.d
  dsimp only
  split
  · exact checked
  · exact (checked.trans (mend _ _ _)).trans (breakResv _ _ _)

theorem ctxWrite (s : State) (o : Nat) (v : Word) : DmaStands s.d (s.ctxWrite o v).1.d := by
  unfold State.ctxWrite
  split
  · exact refl s.d
  · exact of_regions rfl

theorem memStore {s t : State} {a n : Nat} {v : Word} {w : Wr} (h : s.memStore a n v = some (t, w)) : DmaStands s.d t.d := by
  have sram {l : List Byte} (h : some (s.sramWrite a l) = some (t, w)) : DmaStands s.d t.d := by
    have written := sramWrite s a l
    rw [Option.some.inj h] at written
    exact written
  have none {x : Wr} (h : some (s, x) = some (t, w)) : DmaStands s.d t.d := by
    cases h
    exact refl s.d
  unfold State.memStore at h
  split at h
  · exact none h
  · exact none h
  · exact sram h
  · split at h
    · exact none h
    · exact sram h
  · next o _ =>
    split at h
    · exact none h
    · have written := ctxWrite s o v
      rw [Option.some.inj h] at written
      exact written
  · cases h

theorem store8 (s : State) (a : Nat) (w : Word64) : DmaStands s.d (s.store8 a w).1.d := by
  unfold State.store8
  split
  next t h =>
    have first := memStore h
    split
    next g => exact first.trans (memStore g)
    next => exact first
  next => exact refl s.d

/-! ### The security page (R222 to R239) -/

theorem hashRun (ram : Memory) (j : HashJob) : DmaStands d (d.hashRun ram j).1 := by
  unfold Dev.hashRun
  split
  · exact refl d
  split
  case h_1 e => exact of_strRead e
  case h_3 e => exact of_strRead e
  case h_2 e =>
    split
    · exact of_strRead e
    split
    case h_1 g => exact (of_strRead e).trans (of_strRead g)
    case h_3 g => exact (of_strRead e).trans (of_strRead g)
    case h_2 g =>
      have both := (of_strRead e).trans (of_strRead g)
      split
      · split <;> rename_i k <;> exact both.trans (of_strRead k)
      · exact both

theorem otpTake (ram : Memory) : DmaStands d (d.otpTake ram) := by
  unfold Dev.otpTake
  split
  · split
    next h => exact (of_strRead h).trans (of_regions rfl)
    next h => exact of_strRead h
    next h => exact (of_strRead h).trans (of_regions rfl)
  · exact refl d

theorem otpCommand (ram : Memory) (v : Word) : DmaStands d (d.otpCommand ram v) := by
  have kept (o : Otp) : DmaStands d { d with otp := o } := of_regions rfl
  exact ite (kept _) (ite (kept _) ((kept _).trans (otpTake _ ram)))

theorem attStart (src : AttFrom) (challenge : List Byte) : DmaStands d (d.attStart src challenge) := by
  have begun (a : Att) : DmaStands d { d with att := a } := of_regions rfl
  exact (begun _).trans (ite (secCause _ 5) (refl _))

theorem attRefused (c : Nat) : DmaStands d (d.attRefused c) := by
  have told (a : Att) : DmaStands d { d with att := a } := of_regions rfl
  exact (told _).trans (ite (secCause _ 5) (refl _))

theorem attGo (ram : Memory) : DmaStands d (d.attGo ram) := by
  unfold Dev.attGo
  dsimp only
  refine ite (refl d) ?_
  split
  · exact attRefused d _
  · split
    next h => exact ((of_strRead h).trans (attStart _ _ _)).trans (of_regions rfl)
    next h => exact (of_strRead h).trans (attRefused _ 6)

theorem submitToken (t : List Byte) : DmaStands d (d.submitToken t) := by
  have told (d : Dev) (x : Dbg) : DmaStands d { d with dbg := x } := of_regions rfl
  have drawn (d : Dev) (x : Dbg) : DmaStands d ({ d with dbg := x } : Dev).took := of_regions rfl
  exact trans (ite ((told d _).trans (secCause _ 1)) ((told d _).trans (secCause _ 2))) (drawn _ _)

theorem engWork (ram : Memory) (u : EngUser) : DmaStands d (d.engWork ram u) := by
  have eng (d : Dev) (x : Engine) : DmaStands d { d with eng := x } := of_regions rfl
  have checked (d : Dev) (t : List Byte) : DmaStands d
      (({ d with eng := { d.eng with tokens := d.eng.tokens.drop 1 } }.submitToken t).engFree .token) :=
    ((eng d _).trans (submitToken _ t)).trans (eng _ _)
  unfold Dev.engWork
  refine (eng d { d.eng with user := some u }).trans ?_
  generalize ({ d with eng := { d.eng with user := some u } } : Dev) = e
  cases u with
  | hash =>
    dsimp only
    split
    · exact (hashRun e ram _).trans (of_regions rfl)
    · exact refl e
  | att => exact refl e
  | token =>
    dsimp only
    split
    · exact eng e _
    · exact checked e _
    · split
      next h => exact (of_strRead h).trans (checked _ _)
      next h => exact of_strRead h
      next h => exact (of_strRead h).trans (checked _ _)

theorem engServe (ram : Memory) (n : Nat) (d : Dev) : DmaStands d (d.engServe ram n) := by
  induction n generalizing d with
  | zero => exact refl d
  | succ n ih =>
    unfold Dev.engServe
    split
    · exact (engWork d ram _).trans (ih _)
    · exact engWork d ram _
    · split
      · exact (engWork d ram _).trans (ih _)
      · exact refl d

theorem engGo (ram : Memory) : DmaStands d (d.engGo ram) := engServe ram _ d

theorem hashCmd (ram : Memory) (v : Word) : DmaStands d (d.hashCmd ram v) := by
  have told (d : Dev) (h : Hash) : DmaStands d { d with hash := h } := of_regions rfl
  exact (told d _).trans (ite ((told _ _).trans (engGo _ ram)) (refl _))

theorem tokenGo (ram : Memory) (t : Token) : DmaStands d (d.tokenGo ram t) := by
  have queued (x : Dbg) (e : Engine) : DmaStands d { d with dbg := x, eng := e } := of_regions rfl
  exact (queued _ _).trans (engGo _ ram)

theorem secWrite (ram : Memory) (o : Nat) (v : Word) : DmaStands d (d.secWrite ram o v) := by
  unfold Dev.secWrite
  refine ite (of_regions rfl) ?_
  split
  case h_3 => exact hashCmd d ram v
  case h_8 => exact otpCommand d ram v
  case h_10 => exact ite ((attGo d ram).trans (engGo _ ram)) (refl d)
  case h_14 => exact ite (tokenGo d ram _) (refl d)
  case h_17 => exact refl d
  all_goals exact of_regions rfl

/-! ### The update engine and what waits for the flash (R271, R343, R446) -/

theorem upd (u : Update) : DmaStands d { d with upd := u } := of_regions rfl

theorem updCut : DmaStands d d.updCut := ite (upd d _) (refl d)

theorem updDone (j : UpdJob) : DmaStands d (d.updDone j).1 := by
  unfold Dev.updDone
  dsimp only
  split
  · exact of_regions rfl
  · split <;> dsimp only
    · refine trans ?_ (updCut _)
      exact of_regions rfl
    · split <;> exact of_regions rfl

theorem updFailed (j : UpdJob) : DmaStands d (d.updFailed j).1 := by
  unfold Dev.updFailed
  dsimp only
  split <;> exact of_regions rfl

theorem updNext : DmaStands d d.updNext.1 := by
  have started (f : Flash) (k : Nat) : DmaStands d { d with flash := f, freeCtr := k } := of_regions rfl
  unfold Dev.updNext
  split
  · exact refl d
  split
  · exact updDone d _
  · exact ite_fst (refl d) (ite_fst (started _ _) ((started _ _).trans (updFailed _ _)))

theorem updOpEnd (erased : Bool) : DmaStands d (d.updOpEnd erased).1 := by
  unfold Dev.updOpEnd
  split
  · exact refl d
  split
  · exact updNext d
  split
  · exact updNext d
  dsimp only
  split
  · exact updFailed d _
  split
  · exact (upd d _).trans (updNext _)
  split
  · exact updFailed d _
  · exact (upd d _).trans (updNext _)

theorem respond (c : Carrier) (m : List Byte) : DmaStands d (d.respond c m) := by
  unfold Dev.respond
  extract_lets tdp a b e can l
  have counted : DmaStands d a := ite (of_regions rfl) (refl d)
  have sent : DmaStands b e := modCarrier b c _
  refine ((counted.trans (settle a)).trans sent).trans ?_
  split
  · split
    · exact of_regions rfl
    · exact refl e
  · split
    · exact ite ((modTrunk e l _).trans (trkDone _ l _ _ _ _)) (refl e)
    · exact refl e

theorem answered (x : Dev × Option (Carrier × List Byte)) : DmaStands x.1 (Dev.answered x) := by
  unfold Dev.answered
  split
  · exact respond _ _ _
  · exact refl _

theorem flashGoOn (s : State) (ended : Option Bool) : DmaStands s.d (s.flashGoOn ended).d := by
  have went : DmaStands s.d (match ended with
      | some erased => s.d.updOpEnd erased
      | none => s.d.updNext).1 := by
    cases ended with
    | some erased => exact updOpEnd s.d erased
    | none => exact updNext s.d
  exact ((went.trans (answered _)).trans (engGo _ s.ram)).trans (otpTake _ s.ram)

end
end DmaStands
end Sys2Proof.Machine
end

section
/-! What a write on the bus leaves of a DMA channel whose descriptor is under way (R361, R365): how many elements it has
written, and the CRC over them. Only an access to the channel's own page, or the end of a queue, reaches the channel. -/

namespace Sys2Proof.Machine

/-- Two writes to channels of different numbers do not meet. -/
theorem Dev.dma_modDma_ne (d : Dev) {m n : Fin 32} (h : n ≠ m) (f : DmaChan → DmaChan) : (d.modDma m f).dma n = d.dma n := by
  have other (q r : RegionId) (i j : Fin 8) (h : r = q → j ≠ i) : (((d.modRegion q fun x =>
      { x with dma := { x.dma with chans := x.dma.chans.set i (f x.dma.chans[i]) } }).regions[r]).dma).chans[j] =
        ((d.regions[r]).dma).chans[j] := by
    by_cases region : r = q
    · subst region
      rw [Dev.modRegion_regions_self]
      exact vset_ne _ _ _ _ (h rfl)
    · rw [Dev.modRegion_regions_ne _ _ _ _ region]
  refine other _ _ _ _ fun region channel => h (Fin.ext ?_)
  have high : n.val / 8 % 4 = m.val / 8 % 4 := congrArg Fin.val region
  have low : n.val % 8 = m.val % 8 := congrArg Fin.val channel
  omega

/-- Channel n has written no more, and its CRC stands. -/
structure CountStands (n : Fin 32) (d e : Dev) : Prop where
  written : (e.dma n).written = (d.dma n).written
  crc : (e.dma n).crc = (d.dma n).crc

namespace CountStands
variable {n : Fin 32}

theorem refl (d : Dev) : CountStands n d d := ⟨rfl, rfl⟩

theorem trans {a b c : Dev} (h : CountStands n a b) (g : CountStands n b c) : CountStands n a c :=
  ⟨g.written.trans h.written, g.crc.trans h.crc⟩

theorem of_stands {d e : Dev} (h : DmaStands d e) : CountStands n d e := ⟨by rw [h.chan], by rw [h.chan]⟩

/-- A change of a channel that keeps both where that channel is n. -/
theorem modDma (d : Dev) (m : Fin 32) {f : DmaChan → DmaChan}
    (h : n = m → (f (d.dma n)).written = (d.dma n).written ∧ (f (d.dma n)).crc = (d.dma n).crc) :
    CountStands n d (d.modDma m f) := by
  by_cases e : n = m
  · obtain ⟨written, crc⟩ := h e
    subst e
    exact ⟨by rw [Dev.dma_modDma, written], by rw [Dev.dma_modDma, crc]⟩
  · exact ⟨by rw [Dev.dma_modDma_ne _ e], by rw [Dev.dma_modDma_ne _ e]⟩

theorem shadowWrite (d : Dev) (m : Fin 32) {f : DmaChan → DmaChan}
    (h : n = m → (f (d.dma n)).written = (d.dma n).written ∧ (f (d.dma n)).crc = (d.dma n).crc) :
    CountStands n d (d.shadowWrite m f) := by
  unfold Dev.shadowWrite
  split
  · exact (modDma d m (f := fun c => { f c with late := c.late || d.freeNow % 2 = 1 }) h).trans
      (of_stands (DmaStands.of_regions (Dev.took_regions _)))
  · exact modDma d m h

/-! ### The DMA page (R361, R368, R369) -/

theorem dmaEnd_aborted (m : Fin 32) (s : State) : CountStands n s.d (dmaEnd m .aborted s).d := by
  unfold dmaEnd
  split
  · exact refl s.d
  next x _ =>
    have closed : CountStands n s.d (s.d.modDma m fun c => c.close .aborted) := modDma s.d m fun _ => ⟨rfl, rfl⟩
    dsimp only
    split
    · have back (a : Nat) (w : Word64) :=
        closed.trans (of_stands (DmaStands.store8 { s with d := s.d.modDma m fun c => c.close .aborted } a w))
      split
      · exact back _ _
      · dsimp only
        exact (back _ _).trans (modDma _ m fun _ => ⟨rfl, rfl⟩)
    · exact closed

theorem dmaAbort (m : Fin 32) (s : State) : CountStands n s.d (dmaAbort m s).d := by
  cases active : (s.d.dma m).active with
  | none =>
    rw [dmaAbort_idle active]
    exact refl s.d
  | some x =>
    have told : CountStands n s.d (s.d.modDma m fun _ => (s.d.dma m).stopping x) :=
      modDma s.d m fun e => by subst e; exact ⟨rfl, rfl⟩
    rw [dmaAbort_active active]
    dsimp only
    split
    · exact told.trans (dmaEnd_aborted m { s with d := s.d.modDma m fun _ => (s.d.dma m).stopping x })
    · exact told

/-- A channel with a descriptor under way does not take another. -/
theorem takeIdle {c : DmaChan} (busy : c.active ≠ none) : c.takeIdle.written = c.written ∧ c.takeIdle.crc = c.crc := by
  rw [DmaChan.takeIdle_busy (.inl busy)]
  exact ⟨rfl, rfl⟩

theorem dmaWrite {s : State} (busy : (s.d.dma n).active ≠ none) (r : RegionId) (o : Nat) (v : Word) :
    CountStands n s.d (dmaWrite r o v s).d := by
  unfold Machine.dmaWrite
  split
  · exact refl s.d
  dsimp only
  split
  · exact shadowWrite s.d _ fun _ => ⟨rfl, rfl⟩
  · exact shadowWrite s.d _ fun _ => ⟨rfl, rfl⟩
  · exact shadowWrite s.d _ fun _ => ⟨rfl, rfl⟩
  · exact shadowWrite s.d _ fun _ => ⟨rfl, rfl⟩
  · exact shadowWrite s.d _ fun _ => takeIdle busy
  · dsimp only
    refine modDma s.d _ fun _ => ?_
    exact takeIdle busy
  · split
    · exact dmaAbort _ s
    · exact refl s.d
  · exact refl s.d

/-! ### The queue page (R350 to R357) -/

theorem failPushes (d : Dev) (q : QueueId) : CountStands n d (d.failPushes q) := by
  have failed (c : DmaChan) (b : Bool) : (if b then { c with pushFail := true } else c).written = c.written ∧
      (if b then { c with pushFail := true } else c).crc = c.crc := by
    cases b <;> exact ⟨rfl, rfl⟩
  have region (r : RegionId) : (d.failPushes q).regions[r] = (d.regions[r]).failChans fun c =>
      c.pushes q (if r = regionOfQueue q then (localOfQueue q).val else 32) := Vector.getElem_ofFn ..
  have chan (r : RegionId) (i : Fin 8) : (((d.failPushes q).regions[r]).dma).chans[i] =
      if ((d.regions[r]).dma.chans[i]).pushes q (if r = regionOfQueue q then (localOfQueue q).val else 32) then
        { (d.regions[r]).dma.chans[i] with pushFail := true } else (d.regions[r]).dma.chans[i] := by
    rw [region]
    exact vmap_get ..
  exact ⟨(congrArg DmaChan.written (chan _ _)).trans (failed _ _).1, (congrArg DmaChan.crc (chan _ _)).trans (failed _ _).2⟩

theorem queWrite (d : Dev) (i : Initiator) (r : RegionId) (o : Nat) (v : Word) : CountStands n d (d.queWrite i r o v).1 := by
  have told (f : Queue → Queue) (w : Wr) : CountStands n d (d.modQueue (queueOf r (Fin.ofNat 32 (o / 0x40))) f, w).1 :=
    of_stands (DmaStands.modQueue d _ f)
  have push (q : QueueId) (eop : Bool) : DmaStands d (d.quePush i q v eop).1 := by
    unfold Dev.quePush
    dsimp only
    split
    · exact DmaStands.refl d
    · dsimp only
      exact DmaStands.modQueue d q _
  unfold Dev.queWrite
  split
  · exact refl d
  dsimp only
  split
  · exact refl d
  split
  · exact told _ _
  · have ctl : DmaStands d (d.modRegion r fun x => x.writeQueCtl (Fin.ofNat 32 (o / 0x40)) v) :=
      DmaStands.modRegion d r fun _ => rfl
    dsimp only
    split
    · exact of_stands ctl
    · exact (of_stands ctl).trans (failPushes _ _)
  · exact told _ _
  · exact told _ _
  · exact of_stands (DmaStands.of_regions rfl)
  · exact of_stands (push _ _)
  · exact of_stands (push _ _)
  · exact refl d

end CountStands

/-! ### The chip's pages -/

section
variable {n : Fin 32} {s : State} (busy : (s.d.dma n).active ≠ none)
include busy

/-- While a descriptor is under way the module does not enter HOLD or STANDBY (R408). -/
theorem Dev.entryRefused_busy : s.d.entryRefused = true := by
  have under : s.d.anyRegion (fun r => (List.finRange 8).any fun c => (r.dma.chans[c]).active.isSome) = true :=
    List.any_eq_true.mpr ⟨Fin.ofNat 4 (n.val / 8), List.mem_finRange _,
      List.any_eq_true.mpr ⟨Fin.ofNat 8 n.val, List.mem_finRange _, Option.isSome_iff_ne_none.mpr busy⟩⟩
  simp only [Dev.entryRefused, under, Bool.or_true, Bool.true_or]

theorem DmaStands.pwrReq (v : Word) : DmaStands s.d (pwrReq v s).d := by
  unfold Machine.pwrReq
  dsimp only
  rw [Dev.entryRefused_busy busy]
  split
  · exact refl s.d
  split
  · split
    · dsimp only
      exact leaveNap s.d 8
    · exact refl s.d
  · split
    · dsimp only
      exact enterNap s.d
    · exact refl s.d
  · exact pwrFlag s.d 3
  · exact pwrFlag s.d 3
  · exact refl s.d

theorem DmaStands.pwrWrite (o : Nat) (v : Word) : DmaStands s.d (pwrWrite o v s).d := by
  unfold Machine.pwrWrite
  dsimp only
  split
  · exact writeDomsleep s.d _ v
  · dsimp only
    exact modRegPwr s.d _ _
  · exact writeVset s.d _ v
  · exact writePace s.d _ v
  · exact writeVceil s.d _ v
  · split
    · exact pwrReq busy v
    · exact of_regions rfl
    · exact of_regions rfl
    · exact of_regions rfl
    · exact refl s.d

theorem DmaStands.chipWrite (i : Initiator) (page : Fin 12) (o : Nat) (v : Word) :
    DmaStands s.d (chipWrite i page o v s).1.d := by
  have flash (f : Flash) : DmaStands s.d ({ s with d := { s.d with flash := f } } : State).d := of_regions rfl
  unfold Machine.chipWrite
  dsimp only
  split
  · split
    · exact (flash _).trans (flashGoOn _ none)
    · exact flash _
  · exact of_regions rfl
  · exact pwrWrite busy o v
  · split
    · exact of_regions (Dev.timerWrite_regions s.d o v)
    · exact datumWrite s.d o v
  · exact of_regions (Dev.eventWrite_regions s.d o v)
  · exact mbxWrite s.d o v i
  · split
    · exact refl s.d
    · exact secWrite s.d s.ram o v
  · exact trkWrite s.d o v i
  · exact canWrite s.d o v
  · exact of_regions rfl
  · exact fltWrite s.d o v
  · exact coreWrite s.d o v i

/-! ### The access -/

theorem CountStands.regionWrite (i : Initiator) (r : RegionId) (page : Fin 4) (o : Nat) (v : Word) :
    CountStands n s.d (regionWrite i r page o v s).1.d := by
  unfold Machine.regionWrite
  split
  · exact queWrite s.d i r o v
  · exact dmaWrite busy r o v
  · exact of_stands (DmaStands.ite (DmaStands.ciphWrite s.d r o v) (DmaStands.linkWrite s.d r o v))
  · exact of_stands (DmaStands.regfWrite s.d r o v)

theorem CountStands.busWrite (i : Initiator) (a k : Nat) (v : Word) : CountStands n s.d (s.busWrite i a k v).1.d := by
  unfold State.busWrite
  split
  next x h =>
    obtain ⟨t, w⟩ := x
    exact of_stands (DmaStands.memStore h)
  split
  · exact refl s.d
  split
  · exact of_stands (DmaStands.chipWrite busy i _ _ v)
  next r page o _ =>
    have gate := DmaStands.regionGate s.d r page
    split
    next h =>
      rw [h] at gate
      exact of_stands gate
    next h =>
      rw [h] at gate
      refine (of_stands gate).trans (regionWrite (s := { s with d := _ }) ?_ i r page o v)
      rw [gate.chan]
      exact busy
  next p o _ =>
    have gate := DmaStands.portGate s.d o p true
    split
    next h =>
      rw [h] at gate
      exact of_stands gate
    next h =>
      rw [h] at gate
      exact of_stands (gate.trans (DmaStands.portWrite _ p o v))
  · exact refl s.d

/-- The write of an element leaves its channel's count and CRC, whatever else it reaches. -/
theorem CountStands.destWrite (r : RegionId) (x : Desc) (a k : Nat) (w : Word64) (eop fail : Bool) :
    CountStands n s.d (destWrite r x a k w eop fail s).1.d := by
  unfold Machine.destWrite
  split
  · exact refl s.d
  split
  · dsimp only
    split
    · exact refl s.d
    split
    · exact refl s.d
    · dsimp only
      exact of_stands ((DmaStands.wakeDomain s.d r 8).trans (DmaStands.modQueue _ _ _))
  · split
    · exact of_stands (DmaStands.store8 s a w)
    · exact busWrite busy _ a 4 _

end

/-! ### Write bursts (R365) -/

theorem DmaChan.issue_active (c : DmaChan) : c.issue.active = c.active := by
  unfold DmaChan.issue
  split <;> rfl

theorem DmaChan.issue_buf (c : DmaChan) : c.issue.buf = c.buf := by
  unfold DmaChan.issue
  split <;> rfl

/-- The next element that a channel writes, and where to (R365). -/
def writeNext (r : RegionId) (n : Fin 32) (x : Desc) (e : Elem) (t : State) : State × Wr × Word :=
  destWrite r x (Desc.addr x.dstKind x.dst x.elem (t.d.dma n).issue.written) x.elem (swapElem x.swap e.data)
    (x.eop && decide ((t.d.dma n).issue.cnt = 0) && !x.crcStore) (t.d.dma n).issue.pushFail
    { t with d := t.d.modDma n DmaChan.issue }

section
variable {r : RegionId} {n : Fin 32} {k : Nat} {t t' : State} {x : Desc} {e : Elem} {l : List Elem} {a : Word}
  (active : (t.d.dma n).active = some x) (buf : (t.d.dma n).buf = e :: l)
include active

/-- The write of an element leaves what its channel has written, and its CRC, as its issue has them. -/
theorem writeNext_stands {w : Wr} (out : writeNext r n x e t = (t', w, a)) :
    (t'.d.dma n).written = (t.d.dma n).issue.written ∧ (t'.d.dma n).crc = (t.d.dma n).issue.crc := by
  have busy : ((t.d.modDma n DmaChan.issue).dma n).active ≠ none := by
    rw [Dev.dma_modDma, DmaChan.issue_active, active]
    exact Option.some_ne_none x
  obtain ⟨written, crc⟩ := CountStands.destWrite (s := { t with d := t.d.modDma n DmaChan.issue }) busy r x
    (Desc.addr x.dstKind x.dst x.elem (t.d.dma n).issue.written) x.elem (swapElem x.swap e.data)
    (x.eop && decide ((t.d.dma n).issue.cnt = 0) && !x.crcStore) (t.d.dma n).issue.pushFail
  rw [Dev.dma_modDma] at written crc
  rw [writeNext] at out
  rw [out] at written crc
  exact ⟨written, crc⟩

include buf

theorem dmaWrites_done (out : writeNext r n x e t = (t', .done, a)) :
    dmaWrites r n (k + 1) t = dmaWrites r n k { t' with d := t'.d.modDma n fun c => { c with
      buf := l, issued := false, written := (t.d.dma n).issue.written + 1
      crc := if x.crcOn then crcOn (t.d.dma n).issue.crc (natBytes x.elem (swapElem x.swap e.data).toNat)
        else (t.d.dma n).issue.crc } } := by
  obtain ⟨written, crc⟩ := writeNext_stands active out
  rw [writeNext] at out
  rw [dmaWrites, DmaChan.issue_active, DmaChan.issue_buf, active, buf]
  simp only [out]
  refine congrArg (fun d => dmaWrites r n k { t' with d := d }) (Dev.modDma_congr ?_)
  rw [written, crc]

theorem dmaWrites_held (out : writeNext r n x e t = (t', .held, a)) :
    dmaWrites r n (k + 1) t = ({ t' with d := t'.d.modDma n fun c => { c with wrLeft := k + 1 } }, false) := by
  rw [writeNext] at out
  rw [dmaWrites, DmaChan.issue_active, DmaChan.issue_buf, active, buf]
  simp only [out]

theorem dmaWrites_error (out : writeNext r n x e t = (t', .error, a)) :
    dmaWrites r n (k + 1) t = (dmaEnd n (if (t.d.dma n).issue.cnt = 0 then .err a 0 true
      else .err a ((t.d.dma n).issue.cnt + 1) false) t', true) := by
  rw [writeNext] at out
  rw [dmaWrites, DmaChan.issue_active, DmaChan.issue_buf, active, buf]
  simp only [out]

end
end Sys2Proof.Machine
end

section
/-! A DMA channel takes, moves, refuses and ends its descriptor (R361 to R369, R376). -/

namespace Sys2Proof.Machine

/-- Settles O51: COMMIT and ABORT through the channel's page, then each burst by its elements; that a write leaves its own
channel's count and CRC is `CountStands.destWrite`. -/
theorem dmaMovesItsDescriptor : Obligations.DmaMovesItsDescriptor := by
  intro s r ch
  refine ⟨fun i v page => ⟨fun hi commit => ⟨fun idle err aborted bad => ⟨fun valid => ?takes, fun invalid => ?bad⟩, fun busy => ?waits⟩,
      fun hi abort => ⟨fun idle => ?idle, fun x active => ⟨fun work => ?goesOn, fun empty read noWb => ?closes,
        fun empty read _ => ?ends⟩⟩⟩,
    fun d f => ⟨fun apart => if_neg apart, fun shared => if_pos shared⟩,
    fun u => ⟨exec_dmaReadBurst_none, exec_dmaReadBurst_reads⟩,
    fun k t t' x active => ⟨fun _ => dmaReads_got active, fun _ => dmaReads_error active, dmaReads_held active,
      fun _ mem word => elemRead_mem mem word⟩,
    ⟨exec_dmaWriteBurst_none, exec_dmaWriteBurst_writes⟩,
    fun k t t' x e l a active buf => ⟨dmaWrites_done active buf, dmaWrites_held active buf, dmaWrites_error active buf⟩,
    fun t x b active empty goesOn noCrc noWb none read => ?done⟩
  case takes => exact exec_dmaCommit_makes page hi commit (DmaChan.takeIdle_valid idle err aborted bad valid)
  case bad => exact exec_dmaCommit_makes page hi commit (DmaChan.takeIdle_invalid idle err aborted bad invalid)
  case waits => exact exec_dmaCommit_makes page hi commit (DmaChan.takeIdle_busy busy)
  case idle => exact exec_dmaAbort_leaves page hi abort (dmaAbort_idle idle)
  case goesOn => exact exec_dmaAbort_leaves page hi abort (dmaAbort_goesOn active work)
  case closes => exact exec_dmaAbort_leaves page hi abort (dmaAbort_closes active empty read noWb)
  case ends => exact exec_dmaAbort_leaves page hi abort (dmaAbort_ends active empty read)
  case done =>
    exact (dmaFinish_done active empty goesOn noCrc noWb none read).trans
      (congrArg (fun d => ({ t with d := Dev.fire d [⟨0xC0 + (chanNo r ch).val, 0⟩] }, true))
        (Dev.modDma_congr (DmaChan.close_done active b)))

end Sys2Proof.Machine
end
